-- ==== Sys2Proof/Word.lean ====
section
/-! DEFINITION. The word types of the module: 32-bit register and order words, bytes. -/

namespace Sys2Proof

/-- A register, order or argument word. -/
abbrev Word := BitVec 32

/-- A byte of a frame, a berth or a memory. -/
abbrev Byte := BitVec 8

end Sys2Proof
end

