-- ==== Sys2Proof/Syntax.lean ====
section
/-! DEFINITION. The commands the module takes from outside, one constructor per row of spec/opcode_table.json,
and the types of their operands. Nothing here has a meaning; the meanings are in Sys2Proof/Machine. -/

namespace Sys2Proof

/-- The three lanes of the module (R23). -/
inductive LaneId where
  | A | B | C
  deriving DecidableEq, Repr

/-- What the error code of a memory word read reports (R134): no error, one bit corrected, uncorrectable. -/
inductive Ecc where
  | clean | corrected | uncorrectable
  deriving DecidableEq, Repr

/-- Why BOOT failed (R113): the cause that the boot log of the record store carries. -/
inductive BootCause where
  | memory | image | selfTest | clock | record
  deriving DecidableEq, Repr

/-- The two ferries. -/
inductive Ferry where
  | lane | vehicle
  deriving DecidableEq, Repr

/-- Three hall lines as they stand, and for how many samples of 10 ns in succession those that changed have held (R276, R513). -/
structure HallLines where
  code : Fin 8
  held : Nat
  deriving DecidableEq, Repr

/-- A frame on an SGMII port as it stands on the wire: its bytes from DA on without the FCS (Table 10.4), and whether its FCS holds (R452). -/
structure VFrame where
  bytes : List Byte
  fcsOk : Bool
  deriving DecidableEq, Repr

/-- Which frame of the lane ferry passes a lane (R440, R443): the lane that originated it, a main frame or a tail, and whether it comes
back, turned by a link that is down. -/
structure FrameId where
  orig : LaneId
  tail : Bool
  back : Bool
  deriving DecidableEq, Repr

/-- The head of a frame as it reaches a lane: the frame, and line errors on the bytes of its header. -/
structure FrameHead where
  id : FrameId
  flips : List (Nat × Byte)
  deriving DecidableEq, Repr

/-- A launch frame as it reaches a node: on the lane ferry, whose launch it is, its path and line errors on its bytes; on a vehicle ring, the
frame. -/
inductive LaunchFrame where
  | ring (node : LaneId) (path : Fin 2) (flips : List (Nat × Byte))
  | wire (frame : VFrame)
  deriving DecidableEq, Repr

/-- A SENT frame as the receiver times it: the calibration pulse and the nibble periods in nanoseconds
(status nibble first, check nibble last), and the pause pulse where the frame has one. -/
structure SentFrame where
  calNs : Nat
  nibbleNs : List Nat
  pauseNs : Option Nat
  deriving DecidableEq, Repr

/-- A core's programmer-visible registers, as the commit gate takes them for a checkpoint (R372). -/
structure CoreRegs where
  pc : Word
  x : List Word
  f : List Word
  csr : List (Nat × Word)
  deriving DecidableEq, Repr

/-- What a core presents at the gate: an instruction fetch, a load, a store, or a WFI it executes (R364, R369). -/
inductive TxnKind where
  | fetch | load | store | wfi
  deriving DecidableEq, Repr

/-- A read of one of the registers of Table 8.1, or of mhartid (R362), that a core executed since its last gate boundary: the register's
address, how many ticks of 10 ns before this boundary it was read, and, for cprawin, the lines whose raw level then differed from the
level last sampled or accepted on them. -/
structure CsrRead where
  csr : BitVec 12
  back : Nat
  flips : BitVec 14
  deriving DecidableEq, Repr

/-- One transaction a core presents at the commit gate (R364): its kind, address, length in bytes, byte mask, data, privilege, what the error
code of the loop engine's store reports where the access is a load from one (R134), the reads of R362 and R363 it has executed since the
last gate boundary, and the core's registers at this boundary. -/
structure CoreTxn where
  kind : TxnKind
  addr : Word
  size : Nat
  mask : BitVec 4
  data : Word
  machineMode : Bool
  ecc : Ecc
  csrReads : List CsrRead
  regs : CoreRegs
  deriving DecidableEq, Repr

/-- A requester's transaction at the crossbar (R424): its number, the address, the beats of 8 bytes, whether it writes, and the words it writes. -/
structure IxReq where
  r : Fin 11
  addr : Word
  beats : Nat
  write : Bool
  data : List Word
  deriving DecidableEq, Repr

/-- A gPTP Sync as received, with the fields of its Follow_Up where it is one-step: the origin time in ns, the
correction in units of 2^-16 ns, the cumulative rate ratio (offset from 1 in units of 2^-41), and the time of arrival in
units of 2^-16 ns of LOCAL, at the SGMII balls (R496). -/
structure SyncMsg where
  twoStep : Bool
  seq : BitVec 16
  originNs : Nat
  corr : Int
  rr : Int
  tRx : Nat
  deriving DecidableEq, Repr

/-- An Announce as received (R495): stepsRemoved, the path trace, and the logarithm of its interval in seconds. -/
structure AnnounceMsg where
  hops : Nat
  path : List (BitVec 64)
  logInterval : Int
  deriving DecidableEq, Repr

/-- A peer-delay message (R495): a request received, the answer to the port's own request, or its follow-up. Times in
units of 2^-16 ns, those of the lane of LOCAL at the SGMII balls. -/
inductive PdelayMsg where
  | req (tRx : Nat)
  | resp (t2 : Nat) (t4 : Nat)
  | followUp (t3 : Nat)
  deriving DecidableEq, Repr

/-- A symbol of the 8b/10b command link (R583): a data byte, the start, end and idle symbols, or one that is not valid. A frame in an element
of the vehicle ferry or on CAN FD has data bytes alone. -/
inductive Sym where
  | data (b : Byte) | k27_7 | k29_7 | k28_5 | invalid
  deriving DecidableEq, Repr

/-- How a frame reached HL (R582): its route, the node whose berth carried it (route 1), and its CAN FD identifier (route 2). -/
structure FrameVia where
  route : Fin 3
  node : Fin 16
  canId : BitVec 11
  deriving DecidableEq, Repr

/-- What the header word of an order says (R587, Table 14.3), with the route and node it came by. -/
structure OrderHdr where
  route : Fin 3
  node : Fin 16
  part : Fin 4
  tag : Fin 16
  scope : Bool
  resv : Bool
  narg : Fin 64
  deriving DecidableEq, Repr

/-- The CAN FD fault-confinement states (R400). -/
inductive CanState where
  | active | passive | busOff
  deriving DecidableEq, Repr


/-- The commands of the module: one constructor per row of spec/opcode_table.json, in the table's order. `x` is the
lane a command acts in. -/
inductive Instr where
  /-- POWER_ON_RESET_RELEASE. VSUP_x rises above 4.80 V; `strap` is the level of LID1_x, LID0_x at the release (R90, R679). -/
  | powerOnResetRelease (x : LaneId) (strap : BitVec 2)
  /-- SUPPLY_LOSS. VSUP_x falls below 4.30 V (R679). -/
  | supplyLoss (x : LaneId)
  /-- RESET_PIN. RST_x_N was low for `lowNs` and has been high for 10 µs (R676). -/
  | resetPin (x : LaneId) (lowNs : Nat) (strap : BitVec 2)
  /-- SUPPLY_THRESHOLD_CROSSING. VSUP_x has moved across 6.0 V or 58 V and now reads `mv` (R679, R680). -/
  | supplyThresholdCrossing (x : LaneId) (mv : Nat)
  /-- CRYSTAL_FAILURE. The crystal has stopped or deviates by more than 3 % (R697). -/
  | crystalFailure (x : LaneId)
  /-- CRYSTAL_RECOVERY. The crystal has run within 1 % for 1 ms (R697). -/
  | crystalRecovery (x : LaneId)
  /-- BOOT_COMPLETE. BOOT ends with its self-tests passed (R109 No. 2). -/
  | bootComplete (x : LaneId)
  /-- BOOT_FAILURE. BOOT ends with a failure (R113). -/
  | bootFailure (x : LaneId) (cause : BootCause)
  /-- WATCH_START. A watch begins; the crack-detect loop and the deputy's self-check read as given (R7, R85, R511). -/
  | watchStart (x : LaneId) (crackOpen deputyFault : Bool)
  /-- WATCH_OVERRUN. A watch has exceeded its 10 ms (R8). -/
  | watchOverrun (x : LaneId)
  /-- OUTER_TICK. An outer tick of the lane's ferry time (R436). -/
  | outerTick (x : LaneId)
  /-- FORMATION_PUBLISH. The formation lead publishes F (R119). -/
  | formationPublish (x : LaneId)
  /-- UNRESOLVED_TIMEOUT. UNRESOLVED has lasted 100 ms (R108). -/
  | unresolvedTimeout (x : LaneId)
  /-- START_TEST_PENDING_REPORT. The once-per-second start-test report (R128). -/
  | startTestPendingReport (x : LaneId)
  /-- BOOST_UPDATE. A millisecond of the boost budgets (R68). -/
  | boostUpdate (x : LaneId)
  /-- ALIVE_LINE_EDGE. Lane `x` receives a toggle of the alive line driven by lane `y` (R60). -/
  | aliveLineEdge (x y : LaneId)
  /-- ALIVE_LINE_TIMEOUT. No toggle and no fresh berth of lane `y` within 75 µs in lane `x` (R60). -/
  | aliveLineTimeout (x y : LaneId)
  /-- SAILING_DEPARTURE. The departure instant of a sailing in lane `x` (R433). -/
  | sailingDeparture (x : LaneId)
  /-- LATCH_POINT. 2 µs before a departure in lane `x` (R460). -/
  | latchPoint (x : LaneId)
  /-- SAILING_JUDGEMENT. 21.0 µs after a departure in lane `x` (R706). -/
  | sailingJudgement (x : LaneId)
  /-- LANDING. The landing instant of a sailing in lane `x` (R437). -/
  | landing (x : LaneId)
  /-- RELAY_LOST. The time of an awaited relay result has passed (R606). -/
  | relayLost (x : LaneId)
  /-- FRAME_HEAD_ARRIVAL. The head of the sailing's frame on `path` reaches lane `x`, `err` units of 625 ps after its expectation (R469 to R471). -/
  | frameHeadArrival (x : LaneId) (path : Fin 2) (head : FrameHead) (err : Int)
  /-- BERTH_PASSAGE. The berth of `owner` in the frame on `path` passes lane `x`; `flips` are line errors on its bytes (R441, R454). -/
  | berthPassage (x owner : LaneId) (path : Fin 2) (frame : FrameId) (flips : List (Nat × Byte))
  /-- TAIL_SEND. 1 µs after the main frame has left harbour master `x` (R444). -/
  | tailSend (x : LaneId)
  /-- RELIEF_INSTANT. The relief instant of lane `x` (R446). -/
  | reliefInstant (x : LaneId)
  /-- FERRY_LINK_DOWN. Lane `x` has seen no valid line code from lane `y` for 100 ns (R442). -/
  | ferryLinkDown (x y : LaneId)
  /-- FERRY_LINK_UP. The link of lanes `x` and `y` has carried valid line code for 1 ms (R442). -/
  | ferryLinkUp (x y : LaneId)
  /-- LAUNCH_TIMEOUT. The launch timeout has passed without a valid frame (R473). -/
  | launchTimeout (x : LaneId) (ferry : Ferry)
  /-- LAUNCH_FRAME_RECEIVED. A launch frame arrives (R474, R475). -/
  | launchFrameReceived (x : LaneId) (ferry : Ferry) (launch : LaunchFrame)
  /-- XF_COMMIT. A write of `v` to XF_COMMIT (R460, R487). -/
  | xfCommit (x : LaneId) (v : Word)
  /-- VF_COMMIT. A write of `v` to VF_COMMIT (R460, R488). -/
  | vfCommit (x : LaneId) (v : Word)
  /-- XF_ENABLE. A write of `v`, with EN set, to XF_CTRL (R457). -/
  | xfEnable (x : LaneId) (v : Word)
  /-- VF_ENABLE. A write of `v`, with EN set, to VF_CTRL (R457). -/
  | vfEnable (x : LaneId) (v : Word)
  /-- VEHICLE_DEPARTURE. A vehicle departure instant in lane `x` (R478). -/
  | vehicleDeparture (x : LaneId)
  /-- VEHICLE_PASS_ARRIVAL. A vehicle-ferry pass arrives at port 0, `err` ticks after its expectation (R470). -/
  | vehiclePassArrival (x : LaneId) (frame : VFrame) (err : Int)
  /-- LOADING_PASS_RETURN. The loading pass returns to its originator (R478). -/
  | loadingPassReturn (x : LaneId) (frame : VFrame)
  /-- NON_FERRY_FRAME. A frame that is not a ferry frame is received (R481). -/
  | nonFerryFrame (x : LaneId) (port : Fin 2) (etherType : Nat) (da : Nat) (frame : VFrame)
  /-- FRAME_SEND_REQUEST. A write of `v` to VF_TXC[port] (R482). -/
  | frameSendRequest (x : LaneId) (port : Fin 2) (v : Word)
  /-- HELD_FRAME_SEND. The oldest held frame of the port is sent (R482). -/
  | heldFrameSend (x : LaneId) (port : Fin 2)
  /-- FERRY_PASS_DELAYED. A delayed ferry pass leaves by the port (R483). -/
  | ferryPassDelayed (x : LaneId) (port : Fin 2)
  /-- PORT_LINK_CHANGE. The SGMII link word of the port changes (R480). -/
  | portLinkChange (x : LaneId) (port : Fin 2) (link fullDuplex : Bool) (mbit : Nat)
  /-- SAMPLING_INSTANT. A valley or peak; `c0` and `c1` are the held channels 0 to 3 and 4 to 7 (R237). -/
  | samplingInstant (x : LaneId) (peak : Bool) (c0 c1 : List (BitVec 12))
  /-- SAMPLE_SET_READY. The conversion of sample set `b` ends (R238). -/
  | sampleSetReady (x : LaneId) (b : Fin 2)
  /-- TRIGGER_FIRING. The source event of trigger `n` (R140). -/
  | triggerFiring (x : LaneId) (n : Fin 8)
  /-- NOP. The LE executes NOP (R157). -/
  | leNop (x : LaneId) (ecc : Ecc)
  /-- CLR. The LE executes CLR (R157). -/
  | leClr (x : LaneId) (ecc : Ecc)
  /-- LDA. The LE executes LDA (R157). -/
  | leLda (x : LaneId) (ecc : Ecc)
  /-- MAC. The LE executes MAC (R149). -/
  | leMac (x : LaneId) (ecc : Ecc)
  /-- MACR. The LE executes MACR (R149). -/
  | leMacr (x : LaneId) (ecc : Ecc)
  /-- STA. The LE executes STA (R150). -/
  | leSta (x : LaneId) (ecc : Ecc)
  /-- MOV. The LE executes MOV (R152). -/
  | leMov (x : LaneId) (ecc : Ecc)
  /-- LDC. The LE executes LDC (R152). -/
  | leLdc (x : LaneId) (ecc : Ecc)
  /-- ADD. The LE executes ADD (R152). -/
  | leAdd (x : LaneId) (ecc : Ecc)
  /-- MUL. The LE executes MUL (R151). -/
  | leMul (x : LaneId) (ecc : Ecc)
  /-- SAT. The LE executes SAT (R197). -/
  | leSat (x : LaneId) (ecc : Ecc)
  /-- SEL. The LE executes SEL (R157). -/
  | leSel (x : LaneId) (ecc : Ecc)
  /-- SKP. The LE executes SKP (R157). -/
  | leSkp (x : LaneId) (ecc : Ecc)
  /-- C22. The LE executes C22 (R194). -/
  | leC22 (x : LaneId) (ecc : Ecc)
  /-- C33. The LE executes C33 (R194). -/
  | leC33 (x : LaneId) (ecc : Ecc)
  /-- NTC. The LE executes NTC (R194). -/
  | leNtc (x : LaneId) (ecc : Ecc)
  /-- CLK. The LE executes CLK (R157). -/
  | leClk (x : LaneId) (ecc : Ecc)
  /-- PRK. The LE executes PRK (R157). -/
  | lePrk (x : LaneId) (ecc : Ecc)
  /-- IPK. The LE executes IPK (R157). -/
  | leIpk (x : LaneId) (ecc : Ecc)
  /-- SCS. The LE executes SCS (R153). -/
  | leScs (x : LaneId) (ecc : Ecc)
  /-- SVM. The LE executes SVM (R157). -/
  | leSvm (x : LaneId) (ecc : Ecc)
  /-- RCP. The LE executes RCP (R154). -/
  | leRcp (x : LaneId) (ecc : Ecc)
  /-- SQR. The LE executes SQR (R155). -/
  | leSqr (x : LaneId) (ecc : Ecc)
  /-- OUT. The LE executes OUT (R161). -/
  | leOut (x : LaneId) (ecc : Ecc)
  /-- WAIT. The LE executes WAIT (R159). -/
  | leWait (x : LaneId) (ecc : Ecc)
  /-- WAIT_EVENT_COMPLETE. The event of the WAIT in progress has occurred (R159). -/
  | waitEventComplete (x : LaneId)
  /-- WAIT_TIMEOUT. The WAIT in progress times out (R160). -/
  | waitTimeout (x : LaneId)
  /-- END. The LE executes END (R166). -/
  | leEnd (x : LaneId) (ecc : Ecc)
  /-- DEADLINE_MISS. The deadline of trigger `n` has passed (R168, R169). -/
  | deadlineMiss (x : LaneId) (n : Fin 8)
  /-- PACE_MEASUREMENT. A pace measurement reads `pace` (R164). -/
  | paceMeasurement (x : LaneId) (pace : Nat)
  /-- LE_FIRE_FIRE. A write of `mask` to LE_FIRE.FIRE (R140). -/
  | leFireFire (x : LaneId) (mask : BitVec 8)
  /-- LE_FIRE_EVT. A write of 1 to LE_FIRE.EVT (R159). -/
  | leFireEvt (x : LaneId)
  /-- TRIGGER_ENABLE. A write of `v`, with EN set, to LE_TRIG_CFG[n] (R174). -/
  | triggerEnable (x : LaneId) (n : Fin 8) (v : Word)
  /-- SCAN_END. The scan of trigger `n` ends (R176). -/
  | scanEnd (x : LaneId) (n : Fin 8)
  /-- PROGRAM_SWAP. A write of `v`, with GO set, to LE_SWAP (R177). -/
  | programSwap (x : LaneId) (v : Word)
  /-- PROGRAM_WORD_WRITE. A core writes half of program word `i` (R136). -/
  | programWordWrite (x : LaneId) (i : Fin 4096) (high : Bool) (v : Word)
  /-- SIGNAL_WORD_WRITE. A core writes signal word `i` (R135). -/
  | signalWordWrite (x : LaneId) (i : Fin 4096) (v : Word)
  /-- COEFF_WORD_WRITE. A core writes coefficient-window word `k` (R211). -/
  | coeffWordWrite (x : LaneId) (k : Fin 1024) (v : Word)
  /-- CSWAP_REQUEST. A write of `v` to LE_CSWAP (R201). -/
  | cswapRequest (x : LaneId) (v : Word)
  /-- CSWAP_IDLE_APPLY. A boundary at which no program is running or pending (R202). -/
  | cswapIdleApply (x : LaneId)
  /-- CSWAP_AT_REQUEST. A write of `v` to LE_CSWAP_AT (R203). -/
  | cswapAtRequest (x : LaneId) (v : Word)
  /-- SWAP_COPY_END. The copy into the new shadow banks ends (R206). -/
  | swapCopyEnd (x : LaneId)
  /-- HOLD_SCHEDULE. A write of `v`, with GO set, to LE_HOLD_SCHED (R213). -/
  | holdSchedule (x : LaneId) (v : Word)
  /-- CARRIER_WRITE. A write of `v` to FC_CAR (R224). -/
  | carrierWrite (x : LaneId) (v : Word)
  /-- BR_REQ_OFF. A write of OFF to FC_BR_CTRL[b].REQ (R252). -/
  | brReqOff (x : LaneId) (b : Fin 2)
  /-- BR_REQ_CATCH. A write of CATCH to FC_BR_CTRL[b].REQ (R251). -/
  | brReqCatch (x : LaneId) (b : Fin 2)
  /-- BR_REQ_DIRECT. A write of DIRECT to FC_BR_CTRL[b].REQ (R269). -/
  | brReqDirect (x : LaneId) (b : Fin 2)
  /-- CATCH_TIMEOUT. Bridge `b` has waited TMO ms in MEASURE (R253). -/
  | catchTimeout (x : LaneId) (b : Fin 2)
  /-- ZERO_END. Bridge `b` has served its ZERO periods (R257). -/
  | zeroEnd (x : LaneId) (b : Fin 2)
  /-- LOCKED_ROTOR. The lock timer of bridge `b` reaches TIME ms (R267). -/
  | lockedRotor (x : LaneId) (b : Fin 2)
  /-- AM_CAL. A write of 1 to AM_CTRL.CAL (R275). -/
  | amCal (x : LaneId)
  /-- AM_CAL_END. The 64 sampling instants of the calibration are over (R275). -/
  | amCalEnd (x : LaneId)
  /-- HALL_EDGE. The hall lines of lane `x`, actuator `b`, as they stand now (R276 to R280). -/
  | hallEdge (x : LaneId) (b : Fin 2) (lines : HallLines)
  /-- OBSERVER_LOSS. The prediction has passed an expected edge by more than 30° (R296). -/
  | observerLoss (x : LaneId) (b : Fin 2)
  /-- STANDSTILL. TSTILL ms without a legal fused edge (R301). -/
  | standstill (x : LaneId) (b : Fin 2)
  /-- HALL_SET_LOST. A condition of R307 holds for the lane's own set. -/
  | hallSetLost (x : LaneId) (b : Fin 2)
  /-- ENCODER_STEP. AF moves the emulated count one state (R311). -/
  | encoderStep (x : LaneId) (b : Fin 2)
  /-- ENCODER_ENABLE. A write of `v`, with EN set, to AF_ENC_CFG[b] (R310). -/
  | encoderEnable (x : LaneId) (b : Fin 2) (v : Word)
  /-- ENCODER_DISABLE. A write of `v`, with EN clear, to AF_ENC_CFG[b] (R314). -/
  | encoderDisable (x : LaneId) (b : Fin 2) (v : Word)
  /-- ENCODER_DRAINED. The backlog has reached 0 after EN was cleared (R314). -/
  | encoderDrained (x : LaneId) (b : Fin 2)
  /-- SENT_FRAME. A frame is measured on SENT channel `s` (R316 to R318). -/
  | sentFrame (x : LaneId) (s : Fin 2) (frame : SentFrame)
  /-- SENT_TIMEOUT. No accepted frame on channel `s` for TMO ms (R318). -/
  | sentTimeout (x : LaneId) (s : Fin 2)
  /-- ANALOG_CONVERSION. AM converts analog input `a` (R319). -/
  | analogConversion (x : LaneId) (a : Fin 4) (code : BitVec 12)
  /-- SWITCH_INPUT_EDGE. An edge of a switch input reaches GD (R325). -/
  | switchInputEdge (x : LaneId) (b : Fin 2) (ph : Fin 3) (high on : Bool)
  /-- DEAD_TIME_END. DT_MIN has passed for a delayed turn-on (R329). -/
  | deadTimeEnd (x : LaneId) (b : Fin 2) (ph : Fin 3) (high : Bool)
  /-- PROFILE_PHASE_END. The present profile phase of a switch ends (R332). -/
  | profilePhaseEnd (x : LaneId) (b : Fin 2) (ph : Fin 3) (high : Bool)
  /-- DIE_LINK_LOSS. The die-to-die link fails (R327). -/
  | dieLinkLoss (x : LaneId)
  /-- BOOTSTRAP_UNDERVOLTAGE. The bootstrap voltage has been below 7.5 V for 500 ns (R337). -/
  | bootstrapUndervoltage (x : LaneId) (b : Fin 2) (ph : Fin 3)
  /-- GATE_SUPPLY_UNDERVOLTAGE. VGD has been below 8.5 V for 1 µs (R340). -/
  | gateSupplyUndervoltage (x : LaneId)
  /-- GATE_SUPPLY_RECOVERY. VGD has been above 9.0 V for 10 µs (R340). -/
  | gateSupplyRecovery (x : LaneId)
  /-- DESAT_DETECTION. One 10 ns sample in which the drain-source filters of the named switches pass (R342). -/
  | desatDetection (x : LaneId) (b : Fin 2) (high low : BitVec 3)
  /-- HARD_SHORT_DETECTION. One 10 ns sample in which the shunt filters of the named phases pass (R343). -/
  | hardShortDetection (x : LaneId) (b : Fin 2) (phases : BitVec 3)
  /-- SHORT_SEQUENCE_STAGE. The next stage of the short sequence falls due (R347). -/
  | shortSequenceStage (x : LaneId) (b : Fin 2)
  /-- SHORT_SEQUENCE_END. The short sequence of bridge `b` ends (R350). -/
  | shortSequenceEnd (x : LaneId) (b : Fin 2)
  /-- EN_LOW. EN_x has been low for `ns` (R351, R352). -/
  | enLow (x : LaneId) (ns : Nat)
  /-- EN_RISE. EN_x rises (R354). -/
  | enRise (x : LaneId)
  /-- TORQUE_OFF_LINE. The level of the deputy's torque-off line reaches GD (R356). -/
  | torqueOffLine (x : LaneId)
  /-- PROFILE_WRITE. A write of `v` to GD_PROF[b][e] (R333). -/
  | profileWrite (x : LaneId) (b e : Fin 2) (v : Word)
  /-- DIRECT_WRITE. A write of `v` to GD_DIRECT[b] (R360). -/
  | directWrite (x : LaneId) (b : Fin 2) (v : Word)
  /-- COMMIT_GATE_TRANSACTION. Both cores present a transaction at the gate; while split, `t0` is performed for core 0 and `t1` for core 1 (R364 to R376). -/
  | commitGateTransaction (x : LaneId) (t0 t1 : CoreTxn)
  /-- PARTNER_TIMEOUT. Core `late` has presented nothing for 2 µs (R367). -/
  | partnerTimeout (x : LaneId) (late : Fin 2) (addr : Word)
  /-- PAIR_RESTART_END. The restarted pair fetches from its checkpoint (R378). -/
  | pairRestartEnd (x : LaneId)
  /-- CORE_INTERNAL_FAULT. Core `core` detects a fault in itself (R381). -/
  | coreInternalFault (x : LaneId) (core : Fin 2)
  /-- WFI. Both cores execute WFI (R369). -/
  | wfi (x : LaneId)
  /-- SPLIT_REQUEST. A write of 1 to CP_SPLIT.REQ with LEAD as given (R383). -/
  | splitRequest (x : LaneId) (lead : Fin 2)
  /-- REJOIN_REQUEST. A write of 1 to CP_SPLIT.REJOIN (R387). -/
  | rejoinRequest (x : LaneId)
  /-- DRAIN_TIMEOUT. CP_REJOIN_CFG.DRAIN has passed (R387). -/
  | drainTimeout (x : LaneId)
  /-- DEBUG_HALT. DB requests a halt of core `core` (R390, R391). -/
  | debugHalt (x : LaneId) (core : Fin 2)
  /-- DEBUG_RESUME. DB resumes core `core` (R393). -/
  | debugResume (x : LaneId) (core : Fin 2)
  /-- DEBUG_SINGLE_STEP. DB steps core `core` once (R393). -/
  | debugSingleStep (x : LaneId) (core : Fin 2)
  /-- TS_EVENT. TS event `s` occurs (R399). -/
  | tsEvent (x : LaneId) (s : Fin 256)
  /-- SIGNAL. A write to TS_SIGNAL (R398). -/
  | signal (x : LaneId) (task : Fin 256) (flag : Fin 32)
  /-- FLAG_CLEAR. A write of `v` to TS_TASK_FLAGS[task] (R398). -/
  | flagClear (x : LaneId) (task : Fin 256) (v : Word)
  /-- DISPATCH_READ. A read of TS_DISP by the dispatcher of a target (R405). -/
  | dispatchRead (x : LaneId) (target : Fin 2)
  /-- DISPATCH_ACK. A write of TS_DISP_ACK (R405). -/
  | dispatchAck (x : LaneId) (target : Fin 2)
  /-- YIELD. A write of TS_YIELD.GO with END clear (R408). -/
  | tsYield (x : LaneId) (target : Fin 2)
  /-- YIELD_END. A write of TS_YIELD.GO with END set (R408). -/
  | tsYieldEnd (x : LaneId) (target : Fin 2)
  /-- TASK_ENABLE. CMD 1 of TS_TASK_CFG[task] (R431). -/
  | taskEnable (x : LaneId) (task : Fin 256)
  /-- TASK_DISABLE. CMD 2 of TS_TASK_CFG[task] (R421). -/
  | taskDisable (x : LaneId) (task : Fin 256)
  /-- TASK_RESTART. CMD 3 of TS_TASK_CFG[task] (R431). -/
  | taskRestart (x : LaneId) (task : Fin 256)
  /-- QUEUE_PUSH. A push into queue `q` by a core, or by a hardware source (R413, R415). -/
  | queuePush (x : LaneId) (q : Fin 64) (data : BitVec 31) (core : Bool)
  /-- QUEUE_PUSH_TIMEOUT. A core push has been held for 1 µs (R415). -/
  | queuePushTimeout (x : LaneId) (q : Fin 64)
  /-- QUEUE_SPACE_PUSH. Space appears for the oldest held push (R415). -/
  | queueSpacePush (x : LaneId) (q : Fin 64)
  /-- QUEUE_POP. A read of TS_Q_POP[q] (R413). -/
  | queuePop (x : LaneId) (q : Fin 64)
  /-- FLOW_ADMIT. A read of TS_FLOW_ADMIT[f] by `task` (R417). -/
  | flowAdmit (x : LaneId) (f : Fin 32) (task : Fin 256)
  /-- FLOW_DONE. A write of `v` to TS_FLOW_DONE[f] (R419). -/
  | flowDone (x : LaneId) (f : Fin 32) (v : Word)
  /-- FLOW_RELEASE. Flow `f` releases its oldest completed ticket (R420). -/
  | flowRelease (x : LaneId) (f : Fin 32)
  /-- IX_RENEWAL. A renewal instant; `throughout` lists the (target, requester) pairs pending all through the ended period (R423, R428). -/
  | ixRenewal (x : LaneId) (throughout : List (Nat × Nat))
  /-- IX_GRANT. IX chooses among the pending requests (R424). -/
  | ixGrant (x : LaneId) (reqs : List IxReq)
  /-- WEIGHT_WRITE. A write of `v` to IX_WEIGHT[r] (R425). -/
  | weightWrite (x : LaneId) (r : Fin 11) (v : Word)
  /-- SYNC_RECEIVED. A gPTP Sync arrives (R497). -/
  | syncReceived (x : LaneId) (d port : Fin 2) (msg : SyncMsg)
  /-- FOLLOW_UP_RECEIVED. The Follow_Up of a two-step Sync arrives (R497). -/
  | followUpReceived (x : LaneId) (d : Fin 2) (msg : SyncMsg)
  /-- FOLLOW_UP_TIMEOUT. A sync interval has passed without the Follow_Up (R498). -/
  | followUpTimeout (x : LaneId) (d : Fin 2)
  /-- ANNOUNCE_RECEIVED. An Announce of an acceptable grandmaster arrives (R499). -/
  | announceReceived (x : LaneId) (d port : Fin 2) (gm : BitVec 64) (msg : AnnounceMsg)
  /-- PDELAY_MESSAGE. A peer-delay message arrives (R495). -/
  | pdelayMessage (x : LaneId) (port : Fin 2) (msg : PdelayMsg)
  /-- PDELAY_REQ_TIMER. The peer-delay interval of the port has passed (R495). -/
  | pdelayReqTimer (x : LaneId) (port : Fin 2)
  /-- SYNC_DEPARTURE. A relayed Sync leaves a master port at `tTx` units of 2^-16 ns (R497). -/
  | syncDeparture (x : LaneId) (d port : Fin 2) (tTx : Nat)
  /-- RECEIPT_TIMEOUT. An announce or sync receipt timeout (R499). -/
  | receiptTimeout (x : LaneId) (d : Fin 2)
  /-- SLEW_COMPLETE. Vehicle time reaches the followed domain's time (R501). -/
  | slewComplete (x : LaneId)
  /-- REVERT_QUALIFIED. The PRI domain has been SYNCED for QUAL s (R502). -/
  | revertQualified (x : LaneId)
  /-- COMPARATOR_FIRE. The base of comparator `c` has reached TIME (R505). -/
  | comparatorFire (x : LaneId) (c : Fin 16)
  /-- SNAPSHOT. A write of 1 to TB_SNAP.GO (R506). -/
  | snapshot (x : LaneId)
  /-- TIME_LO_READ. A read of the LO register of a time pair (R506). -/
  | timeLoRead (x : LaneId) (requester : Fin 11) (base : Fin 8)
  /-- RESYNC. A write of 1 to TB_CTRL.RESYNC (R494). -/
  | resync (x : LaneId)
  /-- DEPUTY_HALL_EDGE. The hall lines as they stand before the deputy's own filter (R513). -/
  | deputyHallEdge (x : LaneId) (b : Fin 2) (lines : HallLines)
  /-- DEPUTY_SPEED_TIMEOUT. 100 ms without a deputy edge (R514). -/
  | deputySpeedTimeout (x : LaneId) (b : Fin 2)
  /-- SM_CMD_STOP. A write of STOP to SM_CMD (R521). -/
  | smCmdStop (x : LaneId)
  /-- SM_CMD_TOFF. A write of TOFF to SM_CMD (R527). -/
  | smCmdToff (x : LaneId)
  /-- SM_CMD_RELEASE. A write of RELEASE to SM_CMD (R530). -/
  | smCmdRelease (x : LaneId)
  /-- SM_CMD_ABORT. A write of ABORT to SM_CMD (R526). -/
  | smCmdAbort (x : LaneId)
  /-- STOP_GRACE_EXPIRY. The speed has exceeded the envelope for GRACE ms (R524). -/
  | stopGraceExpiry (x : LaneId)
  /-- STOP_HOLD_EXPIRY. Both speeds have stayed at or below SPEED_MAX for HOLD ms (R525). -/
  | stopHoldExpiry (x : LaneId)
  /-- SI_SAMPLE. The deputy samples the safety inputs (R531). -/
  | siSample (x : LaneId) (levels : BitVec 8)
  /-- SI_FILTER_CHANGE. A new level of input `i` has held for FILT ms (R531). -/
  | siFilterChange (x : LaneId) (i : Fin 8)
  /-- TEST_PULSE_START. Test output `n` begins its low pulse (R532). -/
  | testPulseStart (x : LaneId) (n : Fin 4)
  /-- TEST_PULSE_END. The pulse of test output `n` ends (R533). -/
  | testPulseEnd (x : LaneId) (n : Fin 4)
  /-- SI_FAULT_CLEAR. A write of `mask` to SM_SI_STAT.FAULT (R534). -/
  | siFaultClear (x : LaneId) (mask : BitVec 8)
  /-- SX_SEND. A write of `v`, with GO set, to SX_SEND (R540). -/
  | sxSend (x : LaneId) (v : Word)
  /-- SX_UNIT_RECEIVED. A safety unit arrives on a route (R541). -/
  | sxUnitReceived (x : LaneId) (route : Fin 3) (unit : List Byte)
  /-- SX_EXPIRY. Connection `c` has accepted no unit for its time (R544). -/
  | sxExpiry (x : LaneId) (c : Fin 64)
  /-- FM_FORCE. A write of `v` to FM_FORCE[g] (R567). -/
  | fmForce (x : LaneId) (g : Fin 6) (v : Word)
  /-- FM_STATUS_CLEAR. A write of `v` to FM_STATUS[g] (R564). -/
  | fmStatusClear (x : LaneId) (g : Fin 6) (v : Word)
  /-- FM_NMT_ACK. A write of FM_NMT.ACK (R561). -/
  | fmNmtAck (x : LaneId)
  /-- FM_BALL_PREL. A write of FM_BALL.PREL (R557). -/
  | fmBallPrel (x : LaneId)
  /-- ERRP_HOLD_EXPIRY. 100 µs have passed since the latest E event (R557). -/
  | errpHoldExpiry (x : LaneId)
  /-- QUIET_PERIOD_END. The quiet period of source `s` ends (R565). -/
  | quietPeriodEnd (x : LaneId) (s : Fin 192)
  /-- LANE_RESET_REACTION. The sailing after refuge entry has departed (R560). -/
  | laneResetReaction (x : LaneId)
  /-- MODE_REQUEST. A write of SYS_MODE_REQ.GO (R111). -/
  | modeRequest (x : LaneId) (target : Fin 8)
  /-- PRECEDENCE_WRITE. A write of `v` to XF_VCTRL (R48). -/
  | precedenceWrite (x : LaneId) (v : Word)
  /-- IMPORT_WRITE. A write of `v` to XF_IMPORT[i] (R75). -/
  | importWrite (x : LaneId) (i : Fin 8) (v : Word)
  /-- COMMAND_LINK_SYNC_LOSS. Four invalid symbols within 16 (R584). -/
  | commandLinkSyncLoss (x : LaneId)
  /-- COMMAND_LINK_UP. The link of a route comes up (R593). -/
  | commandLinkUp (x : LaneId) (route : Fin 3)
  /-- PING. A PING order frame (R596). -/
  | ordPing (x : LaneId) (via : FrameVia) (syms : List Sym)
  /-- READ. A READ order frame (R597). -/
  | ordRead (x : LaneId) (via : FrameVia) (syms : List Sym)
  /-- WRITE. A WRITE order frame (R598). -/
  | ordWrite (x : LaneId) (via : FrameVia) (syms : List Sym)
  /-- MODE. A MODE order frame (R607). -/
  | ordMode (x : LaneId) (via : FrameVia) (syms : List Sym)
  /-- TOFF. A TOFF order frame (R599). -/
  | ordToff (x : LaneId) (via : FrameVia) (syms : List Sym)
  /-- STOP. A STOP order frame (R599). -/
  | ordStop (x : LaneId) (via : FrameVia) (syms : List Sym)
  /-- RELEASE. A RELEASE order frame (R599). -/
  | ordRelease (x : LaneId) (via : FrameVia) (syms : List Sym)
  /-- ONEWAY. A ONEWAY order frame (R599). -/
  | ordOneway (x : LaneId) (via : FrameVia) (syms : List Sym)
  /-- ABORT. An ABORT order frame (R613). -/
  | ordAbort (x : LaneId) (via : FrameVia) (syms : List Sym)
  /-- RAMP. A RAMP order frame (R611). -/
  | ordRamp (x : LaneId) (via : FrameVia) (syms : List Sym)
  /-- MOTION_SELECT. A MOTION_SELECT order frame (R610). -/
  | ordMotionSelect (x : LaneId) (via : FrameVia) (syms : List Sym)
  /-- SUBSCRIBE. A SUBSCRIBE order frame (R618). -/
  | ordSubscribe (x : LaneId) (via : FrameVia) (syms : List Sym)
  /-- FAULT_CLEAR. A FAULT_CLEAR order frame (R599). -/
  | ordFaultClear (x : LaneId) (via : FrameVia) (syms : List Sym)
  /-- POWER. A POWER order frame (R629). -/
  | ordPower (x : LaneId) (via : FrameVia) (syms : List Sym)
  /-- SCRIPT_LOAD. A SCRIPT_LOAD order frame (R621). -/
  | ordScriptLoad (x : LaneId) (via : FrameVia) (syms : List Sym)
  /-- SCRIPT_RUN. A SCRIPT_RUN order frame (R622). -/
  | ordScriptRun (x : LaneId) (via : FrameVia) (syms : List Sym)
  /-- RECORD. A RECORD order frame (R664). -/
  | ordRecord (x : LaneId) (via : FrameVia) (syms : List Sym)
  /-- BIST. A BIST order frame (R656). -/
  | ordBist (x : LaneId) (via : FrameVia) (syms : List Sym)
  /-- RESPONSE_SEND. The oldest queued response of a route is sent (R592). -/
  | responseSend (x : LaneId) (route : Fin 3)
  /-- REPORT_SEND. The oldest queued report of a route is sent (R620). -/
  | reportSend (x : LaneId) (route : Fin 3)
  /-- SCRIPT_ORDER. The running script executes its ORDER step (R623). -/
  | scrOrder (x : LaneId)
  /-- WAIT_TIME. The running script executes its WAIT_TIME step (R621). -/
  | scrWaitTime (x : LaneId)
  /-- WAIT_TIME_END. The wait of a WAIT_TIME step expires (R621). -/
  | scrWaitTimeEnd (x : LaneId)
  /-- WAIT_OP. The running script executes its WAIT_OP step (R621). -/
  | scrWaitOp (x : LaneId)
  /-- WAIT_OP_END. The awaited report arrives, or the timeout expires (R621). -/
  | scrWaitOpEnd (x : LaneId)
  /-- SKIP. The running script executes its SKIP step (R621). -/
  | scrSkip (x : LaneId)
  /-- COMMIT. The running script executes its COMMIT step (R622). -/
  | scrCommit (x : LaneId)
  /-- SCRIPT_END. The running script executes its END step (R622). -/
  | scrEnd (x : LaneId)
  /-- PM_REQ_GO. A write of PM_REQ.GO with TARGET (R629). -/
  | pmReqGo (x : LaneId) (target : Fin 8)
  /-- ENTRY_ABORT_POINT. The entry in progress reaches its next abort point (R632). -/
  | entryAbortPoint (x : LaneId)
  /-- DOMAIN_SWITCH_OFF. The domains switch off after AP4 (R631). -/
  | domainSwitchOff (x : LaneId)
  /-- WAKE. A wake source of Table 15.1 becomes active (R630). -/
  | wake (x : LaneId) (src : Fin 6)
  /-- WAKE_TIMER. PM_WAKE_TIME ms have passed since entry (R630). -/
  | wakeTimer (x : LaneId)
  /-- EXIT_COMPLETE. The exit in progress completes (R636). -/
  | exitComplete (x : LaneId)
  /-- PAD_RELEASE. A write of PM_PADREL.REL (R639). -/
  | padRelease (x : LaneId)
  /-- TM_SAMPLE. TM samples its eight sensors, in 0.125 °C (R642, R643). -/
  | tmSample (x : LaneId) (codes : List (BitVec 12))
  /-- NV_WINDOW_OPEN. The conditions of the NV window have held for 100 ms (R649). -/
  | nvWindowOpen (x : LaneId)
  /-- RECORD_WRITE_REQUEST. A write of RS_CMD.GO with SLOT (R664). -/
  | recordWriteRequest (x : LaneId) (slot : Fin 64)
  /-- RECORD_WRITE_ABORT. A write of RS_CMD.ABORT with SLOT (R663). -/
  | recordWriteAbort (x : LaneId) (slot : Fin 64)
  /-- RECORD_WRITE_COMMIT. The read-back check of the record write ends (R662). -/
  | recordWriteCommit (x : LaneId) (ok : Bool)
  /-- CANARY_SLICE. ST starts the next slice (R654). -/
  | canarySlice (x : LaneId)
  /-- CANARY_SLICE_END. The slice test ends, with its first failing address if it failed (R655). -/
  | canarySliceEnd (x : LaneId) (fail : Option Word)
  /-- BIST_END. A BIST order ends (R656). -/
  | bistEnd (x : LaneId)
  /-- LBIST_REQUEST. A write of ST_LBIST.GO (R657). -/
  | lbistRequest (x : LaneId)
  /-- LBIST_END. The follower's logic self-test ends (R657). -/
  | lbistEnd (x : LaneId)
  /-- FUSE_BURN. A write of ST_FUSE.GO (R658). -/
  | fuseBurn (x : LaneId)
  /-- FUSE_BURN_END. The burn ends (R658). -/
  | fuseBurnEnd (x : LaneId)
  /-- REGISTER_WRITE. A write of `v` to the register at `addr` (R704). -/
  | registerWrite (x : LaneId) (addr : Word) (v : Word)
  /-- BOOTSTRAP_RECOVERY. The bootstrap voltage rises above 8.0 V (R338). -/
  | bootstrapRecovery (x : LaneId) (b : Fin 2) (ph : Fin 3)
  /-- COMMAND_LINK_IN_SYNC. 16 consecutive valid symbols at comma alignment (R584). -/
  | commandLinkInSync (x : LaneId)
  /-- CAN_FD_ERROR_STATE_CHANGE. CN fault confinement changes state (R400). -/
  | canFdErrorStateChange (x : LaneId) (st : CanState)
  /-- THROTTLE_PAUSE_END. n µs into the renewal period at throttle level n (R644). -/
  | throttlePauseEnd (x : LaneId)
  /-- LIMITED_RATE_RELEASE. The decaying speed bound reaches the release level (R516). -/
  | limitedRateRelease (x : LaneId) (b : Fin 2)
  /-- PHY_RESET_RELEASE. 10 ms after PHYCLK_x started (R683). -/
  | phyResetRelease (x : LaneId)
  /-- DEBUG_SESSION_CHANGE. A debug session opens or closes on TCK_x (R400). -/
  | debugSessionChange (x : LaneId) (isOpen : Bool)
  deriving DecidableEq, Repr

end Sys2Proof
end

