-- ==== Sys2Proof/Decode.lean ====
section
/-! DEFINITION. The commands that the opcode table's bits spell. spec/opcode_table.json gives no row bits: the commands are
pin events, register accesses and frames, and a row's operands do not come in a word. -/

namespace Sys2Proof

/-- The command a word spells by the table's bits: none, since no row gives bits. -/
def decodeTableWord (_nbits _w : Nat) : Option Instr := none

end Sys2Proof
end

