-- ==== Sys2Proof/Config.lean ====
section
/-! DEFINITION. The values spec/ leaves open. None has a body: nothing in Lean can evaluate them, and a statement
that holds, holds for every value of them. Each is named in a row of notes/assumptions. -/

namespace Sys2Proof

/-- The `n`-th free value of a lane: a value that spec/ calls undefined, or does not state (log entry 3). -/
opaque Config.freeWord : Nat → Word

/-- The result of an LE instruction whose exact bits spec/ bounds but does not fix, by opcode and operand words: the
LE gives the same result for the same operands (R132; log entry 4). -/
opaque Config.leResult : (op : Nat) → (operands : List Word) → Word

/-- One bit of a choice that spec/ leaves to the hardware (log entry 3). -/
opaque Config.freeBit : Nat → Bool

end Sys2Proof
end

