-- ==== Sys2Proof/Machine/Regs.lean ====
section
/-! DEFINITION. The register fields of a lane: one `Fld` per field of the register tables of spec/, with its
address, bits, access type, value after power-on reset, value after lane reset and the rule by which a
written value is stored. Numbers are those of the spec's tables; the tables' captions are cited per block. -/

namespace Sys2Proof.Machine

/-- Access types of 00_scope.md (Notation). -/
inductive Acc where
  | rw | ro | w1c | w1s | wo | rwl
  deriving DecidableEq, Repr

/-- How a written value outside a field's range is stored ("0 is stored as 1", "above 16 stored as 16",
"5 to 7 stored as 0"). -/
inductive Fix where
  | any
  | clamp (lo hi : Nat)
  | zeroAbove (hi : Nat)
  deriving DecidableEq, Repr

/-- One field of one register. `lrst` is the value after lane reset, `none` where the table says the field is
kept (or live, sampled, fused). -/
structure Fld where
  addr : Nat
  lo : Nat
  width : Nat
  acc : Acc
  por : Nat
  lrst : Option Nat
  fix : Fix
  deriving DecidableEq, Repr

/-- A register, or an array of registers with one or two indices. -/
structure RegDef where
  name : String
  base : Nat
  n1 : Nat
  s1 : Nat
  n2 : Nat
  s2 : Nat
  flds : LaneId → Nat → Nat → List Fld

/-- The key under which a field's value stands in `Lane.regs`. -/
def Fld.key (f : Fld) : Nat := f.addr * 32 + f.lo

/-- The value a write stores into a field (cut to the field's width, then the table's range rule). -/
def Fld.store (f : Fld) (v : Nat) : Nat :=
  let v := v % 2 ^ f.width
  match f.fix with
  | .any => v
  | .clamp lo hi => if v < lo then lo else if hi < v then hi else v
  | .zeroAbove hi => if hi < v then 0 else v

/-- Table 13.1: the sources of class S. -/
def srcIsS (s : Nat) : Bool :=
  [0, 1, 7, 10, 16, 18, 19, 20, 32, 80, 81, 82, 128, 129, 130, 144, 145, 152, 153, 154, 155].contains s

namespace Reg

/-! ### SYS (02_modes.md Table 2.10; 02_modes.md Table 2.11; 02_modes.md Table 2.12; 02_modes.md Table 2.13; 02_modes.md Table 2.7; 02_modes.md Table 2.8; 02_modes.md Table 2.9) -/

def SYS_LANE_ID_MATCH : Fld := ⟨0x40000100, 7, 1, .ro, 0, none, .any⟩
def SYS_LANE_ID_PARITY_ERR : Fld := ⟨0x40000100, 6, 1, .ro, 0, none, .any⟩
def SYS_LANE_ID_PDIE_FUSE : Fld := ⟨0x40000100, 4, 2, .ro, 0, none, .any⟩
def SYS_LANE_ID_LDIE_FUSE : Fld := ⟨0x40000100, 2, 2, .ro, 0, none, .any⟩
def SYS_LANE_ID_STRAP : Fld := ⟨0x40000100, 0, 2, .ro, 0, none, .any⟩
def SYS_MODE_MODE : Fld := ⟨0x40000104, 29, 3, .ro, 0, some 0, .any⟩
def SYS_MODE_PREV : Fld := ⟨0x40000104, 26, 3, .ro, 0, some 0, .any⟩
def SYS_MODE_CAUSE : Fld := ⟨0x40000104, 22, 4, .ro, 0, some 0, .any⟩
def SYS_MODE_PENDING : Fld := ⟨0x40000104, 21, 1, .ro, 0, some 0, .any⟩
def SYS_MODE_PEND_TARGET : Fld := ⟨0x40000104, 18, 3, .ro, 0, some 0, .any⟩
def SYS_MODE_ENTRY_CYCLE : Fld := ⟨0x40000104, 0, 16, .ro, 0, some 0, .any⟩
def SYS_MODE_REQ_GO : Fld := ⟨0x40000108, 31, 1, .w1s, 0, some 0, .any⟩
def SYS_MODE_REQ_TARGET : Fld := ⟨0x40000108, 28, 3, .rw, 0, some 0, .any⟩
def SYS_MODE_REQ_RESULT : Fld := ⟨0x40000108, 0, 8, .ro, 0, some 0, .any⟩
def SYS_MODE_CFG_LOCK : Fld := ⟨0x4000010C, 31, 1, .w1s, 0, some 0, .any⟩
def SYS_MODE_CFG_BOOT_RETRY : Fld := ⟨0x4000010C, 16, 4, .rwl, 3, some 3, .any⟩
def SYS_MODE_CFG_FORM_WAIT : Fld := ⟨0x4000010C, 6, 10, .rwl, 500, some 500, .clamp 1 1023⟩
def SYS_MODE_CFG_FW_SUPER : Fld := ⟨0x4000010C, 5, 1, .rwl, 0, some 0, .any⟩
def SYS_MODE_CFG_RESUME_ONE : Fld := ⟨0x4000010C, 4, 1, .rwl, 0, some 0, .any⟩
def SYS_MODE_CFG_START_TWO : Fld := ⟨0x4000010C, 3, 1, .rwl, 0, some 0, .any⟩
def SYS_MODE_CFG_AUTO_SERVICE : Fld := ⟨0x4000010C, 2, 1, .rwl, 0, some 0, .any⟩
def SYS_MODE_CFG_AUTO_RECOVERY : Fld := ⟨0x4000010C, 1, 1, .rwl, 1, some 1, .any⟩
def SYS_STILL_CFG_HOLD : Fld := ⟨0x40000110, 20, 12, .rwl, 200, some 200, .clamp 1 4095⟩
def SYS_STILL_CFG_SPEED_MAX : Fld := ⟨0x40000110, 0, 16, .rwl, 655, some 655, .any⟩
def SYS_START_DONE : Fld := ⟨0x40000114, 24, 1, .ro, 0, some 0, .any⟩
def SYS_START_MASK : Fld := ⟨0x40000114, 16, 8, .ro, 0, some 0, .any⟩
def SYS_START_SEEN_HIGH : Fld := ⟨0x40000114, 8, 8, .ro, 0, some 0, .any⟩
def SYS_START_SEEN_LOW : Fld := ⟨0x40000114, 0, 8, .ro, 0, some 0, .any⟩
def SYS_MODE_CNT_CHANGES : Fld := ⟨0x40000118, 16, 16, .ro, 0, some 0, .any⟩
def SYS_MODE_CNT_REFUSED : Fld := ⟨0x40000118, 0, 16, .ro, 0, some 0, .any⟩

/-- The registers of SYS. -/
def tabSYS : List RegDef := [
  ⟨"SYS_LANE_ID", 0x40000100, 1, 4, 1, 4, fun _ _ _ => [SYS_LANE_ID_MATCH, SYS_LANE_ID_PARITY_ERR, SYS_LANE_ID_PDIE_FUSE, SYS_LANE_ID_LDIE_FUSE, SYS_LANE_ID_STRAP]⟩,
  ⟨"SYS_MODE", 0x40000104, 1, 4, 1, 4, fun _ _ _ => [SYS_MODE_MODE, SYS_MODE_PREV, SYS_MODE_CAUSE, SYS_MODE_PENDING, SYS_MODE_PEND_TARGET, SYS_MODE_ENTRY_CYCLE]⟩,
  ⟨"SYS_MODE_REQ", 0x40000108, 1, 4, 1, 4, fun _ _ _ => [SYS_MODE_REQ_GO, SYS_MODE_REQ_TARGET, SYS_MODE_REQ_RESULT]⟩,
  ⟨"SYS_MODE_CFG", 0x4000010C, 1, 4, 1, 4, fun _ _ _ => [SYS_MODE_CFG_LOCK, SYS_MODE_CFG_BOOT_RETRY, SYS_MODE_CFG_FORM_WAIT, SYS_MODE_CFG_FW_SUPER, SYS_MODE_CFG_RESUME_ONE, SYS_MODE_CFG_START_TWO, SYS_MODE_CFG_AUTO_SERVICE, SYS_MODE_CFG_AUTO_RECOVERY]⟩,
  ⟨"SYS_STILL_CFG", 0x40000110, 1, 4, 1, 4, fun _ _ _ => [SYS_STILL_CFG_HOLD, SYS_STILL_CFG_SPEED_MAX]⟩,
  ⟨"SYS_START", 0x40000114, 1, 4, 1, 4, fun _ _ _ => [SYS_START_DONE, SYS_START_MASK, SYS_START_SEEN_HIGH, SYS_START_SEEN_LOW]⟩,
  ⟨"SYS_MODE_CNT", 0x40000118, 1, 4, 1, 4, fun _ _ _ => [SYS_MODE_CNT_CHANGES, SYS_MODE_CNT_REFUSED]⟩]

/-! ### CP (08_core_pair.md Table 8.10; 08_core_pair.md Table 8.11; 08_core_pair.md Table 8.12; 08_core_pair.md Table 8.13; 08_core_pair.md Table 8.9) -/

def CP_STAT_STATE : Fld := ⟨0x40008000, 29, 3, .ro, 0, some 0, .any⟩
def CP_STAT_LEAD : Fld := ⟨0x40008000, 28, 1, .ro, 0, some 0, .any⟩
def CP_STAT_DEBUG_SPLIT : Fld := ⟨0x40008000, 27, 1, .ro, 0, some 0, .any⟩
def CP_STAT_HALT1 : Fld := ⟨0x40008000, 26, 1, .ro, 0, some 0, .any⟩
def CP_STAT_HALT0 : Fld := ⟨0x40008000, 25, 1, .ro, 0, some 0, .any⟩
def CP_STAT_ISOLATED : Fld := ⟨0x40008000, 23, 2, .ro, 0, some 0, .any⟩
def CP_STAT_CONSEC : Fld := ⟨0x40008000, 21, 2, .ro, 0, some 0, .any⟩
def CP_STAT_INLOG : Fld := ⟨0x40008000, 16, 5, .ro, 0, some 0, .any⟩
def CP_STAT_JOURNAL : Fld := ⟨0x40008000, 0, 11, .ro, 0, some 0, .any⟩
def CP_SPLIT_REQ : Fld := ⟨0x40008004, 31, 1, .w1s, 0, some 0, .any⟩
def CP_SPLIT_REJOIN : Fld := ⟨0x40008004, 30, 1, .w1s, 0, some 0, .any⟩
def CP_SPLIT_LEAD : Fld := ⟨0x40008004, 29, 1, .rw, 0, some 0, .any⟩
def CP_SPLIT_RESULT : Fld := ⟨0x40008004, 0, 8, .ro, 0, some 0, .any⟩
def CP_ENTRY_ENTRY : Fld := ⟨0x40008008, 1, 31, .rw, 0, some 0, .any⟩
def CP_REJOIN_CFG_DRAIN : Fld := ⟨0x4000800C, 0, 10, .rw, 100, some 100, .clamp 1 1000⟩
def CP_LAST_KIND : Fld := ⟨0x40008010, 29, 3, .ro, 0, none, .any⟩
def CP_LAST_WHERE : Fld := ⟨0x40008010, 26, 3, .ro, 0, none, .any⟩
def CP_LAST_CAUSE : Fld := ⟨0x40008010, 23, 3, .ro, 0, none, .any⟩
def CP_LAST_UNWOUND : Fld := ⟨0x40008010, 0, 11, .ro, 0, none, .any⟩
def CP_LAST_ADDR_ADDR : Fld := ⟨0x40008014, 0, 32, .ro, 0, none, .any⟩
def CP_CNT_MISMATCH_COUNT : Fld := ⟨0x40008020, 0, 32, .ro, 0, none, .any⟩
def CP_CNT_INSPLIT_COUNT : Fld := ⟨0x40008024, 0, 32, .ro, 0, none, .any⟩
def CP_CNT_TIMEOUT_COUNT : Fld := ⟨0x40008028, 0, 32, .ro, 0, none, .any⟩
def CP_CNT_SPLIT_COUNT : Fld := ⟨0x4000802C, 0, 32, .ro, 0, none, .any⟩
def CP_SHARED_BASE (i : Nat) : Fld := ⟨0x40008040 + 4 * i, 12, 20, .rw, 0, some 0, .any⟩
def CP_SHARED_EN (i : Nat) : Fld := ⟨0x40008040 + 4 * i, 4, 1, .rw, 0, some 0, .any⟩
def CP_SHARED_SIZE (i : Nat) : Fld := ⟨0x40008040 + 4 * i, 0, 4, .rw, 0, some 0, .clamp 0 11⟩

/-- The registers of CP. -/
def tabCP : List RegDef := [
  ⟨"CP_STAT", 0x40008000, 1, 4, 1, 4, fun _ _ _ => [CP_STAT_STATE, CP_STAT_LEAD, CP_STAT_DEBUG_SPLIT, CP_STAT_HALT1, CP_STAT_HALT0, CP_STAT_ISOLATED, CP_STAT_CONSEC, CP_STAT_INLOG, CP_STAT_JOURNAL]⟩,
  ⟨"CP_SPLIT", 0x40008004, 1, 4, 1, 4, fun _ _ _ => [CP_SPLIT_REQ, CP_SPLIT_REJOIN, CP_SPLIT_LEAD, CP_SPLIT_RESULT]⟩,
  ⟨"CP_ENTRY", 0x40008008, 1, 4, 1, 4, fun _ _ _ => [CP_ENTRY_ENTRY]⟩,
  ⟨"CP_REJOIN_CFG", 0x4000800C, 1, 4, 1, 4, fun _ _ _ => [CP_REJOIN_CFG_DRAIN]⟩,
  ⟨"CP_LAST", 0x40008010, 1, 4, 1, 4, fun _ _ _ => [CP_LAST_KIND, CP_LAST_WHERE, CP_LAST_CAUSE, CP_LAST_UNWOUND]⟩,
  ⟨"CP_LAST_ADDR", 0x40008014, 1, 4, 1, 4, fun _ _ _ => [CP_LAST_ADDR_ADDR]⟩,
  ⟨"CP_CNT_MISMATCH", 0x40008020, 1, 4, 1, 4, fun _ _ _ => [CP_CNT_MISMATCH_COUNT]⟩,
  ⟨"CP_CNT_INSPLIT", 0x40008024, 1, 4, 1, 4, fun _ _ _ => [CP_CNT_INSPLIT_COUNT]⟩,
  ⟨"CP_CNT_TIMEOUT", 0x40008028, 1, 4, 1, 4, fun _ _ _ => [CP_CNT_TIMEOUT_COUNT]⟩,
  ⟨"CP_CNT_SPLIT", 0x4000802C, 1, 4, 1, 4, fun _ _ _ => [CP_CNT_SPLIT_COUNT]⟩,
  ⟨"CP_SHARED", 0x40008040, 4, 4, 1, 4, fun _ i _ => [CP_SHARED_BASE i, CP_SHARED_EN i, CP_SHARED_SIZE i]⟩]

/-! ### TS (09_tasks_arbitration.md Table 9.10; 09_tasks_arbitration.md Table 9.11; 09_tasks_arbitration.md Table 9.12; 09_tasks_arbitration.md Table 9.13; 09_tasks_arbitration.md Table 9.8; 09_tasks_arbitration.md Table 9.9) -/

def TS_STAT_RUN0 : Fld := ⟨0x40010000, 24, 8, .ro, 0, some 0, .any⟩
def TS_STAT_RUN1 : Fld := ⟨0x40010000, 16, 8, .ro, 0, some 0, .any⟩
def TS_STAT_VALID0 : Fld := ⟨0x40010000, 15, 1, .ro, 0, some 0, .any⟩
def TS_STAT_VALID1 : Fld := ⟨0x40010000, 14, 1, .ro, 0, some 0, .any⟩
def TS_SAVE_BASE_BASE : Fld := ⟨0x40010004, 17, 15, .rw, 0, some 0, .any⟩
def TS_DISP_VALID : Fld := ⟨0x40010010, 31, 1, .ro, 0, some 0, .any⟩
def TS_DISP_FRESH : Fld := ⟨0x40010010, 30, 1, .ro, 0, some 0, .any⟩
def TS_DISP_OUT_NONE : Fld := ⟨0x40010010, 29, 1, .ro, 0, some 0, .any⟩
def TS_DISP_IN_NONE : Fld := ⟨0x40010010, 28, 1, .ro, 0, some 0, .any⟩
def TS_DISP_IN : Fld := ⟨0x40010010, 16, 8, .ro, 0, some 0, .any⟩
def TS_DISP_OUT : Fld := ⟨0x40010010, 8, 8, .ro, 0, some 0, .any⟩
def TS_DISP_ACK_ACK : Fld := ⟨0x40010014, 0, 1, .wo, 0, some 0, .any⟩
def TS_YIELD_END : Fld := ⟨0x40010018, 1, 1, .wo, 0, some 0, .any⟩
def TS_YIELD_GO : Fld := ⟨0x40010018, 0, 1, .wo, 0, some 0, .any⟩
def TS_SIGNAL_FLAG : Fld := ⟨0x4001001C, 8, 5, .wo, 0, some 0, .any⟩
def TS_SIGNAL_TASK : Fld := ⟨0x4001001C, 0, 8, .wo, 0, some 0, .any⟩
def TS_CNT_DISP_COUNT : Fld := ⟨0x40010020, 0, 32, .ro, 0, none, .any⟩
def TS_CNT_PREEMPT_COUNT : Fld := ⟨0x40010024, 0, 32, .ro, 0, none, .any⟩
def TS_FLOW_CFG_EN (f : Nat) : Fld := ⟨0x40010400 + 4 * f, 31, 1, .rw, 0, some 0, .any⟩
def TS_FLOW_CFG_OQ (f : Nat) : Fld := ⟨0x40010400 + 4 * f, 8, 6, .rw, 0, some 0, .any⟩
def TS_FLOW_CFG_IQ (f : Nat) : Fld := ⟨0x40010400 + 4 * f, 0, 6, .rw, 0, some 0, .any⟩
def TS_FLOW_ADMIT_ITEM (f : Nat) : Fld := ⟨0x40010480 + 4 * f, 0, 32, .ro, 0, some 0, .any⟩
def TS_FLOW_DONE_DROP (f : Nat) : Fld := ⟨0x40010500 + 4 * f, 31, 1, .wo, 0, some 0, .any⟩
def TS_FLOW_DONE_TICKET (f : Nat) : Fld := ⟨0x40010500 + 4 * f, 24, 7, .wo, 0, some 0, .any⟩
def TS_FLOW_DONE_RESULT (f : Nat) : Fld := ⟨0x40010500 + 4 * f, 0, 24, .wo, 0, some 0, .any⟩
def TS_FLOW_STAT_NEXT (f : Nat) : Fld := ⟨0x40010580 + 4 * f, 25, 7, .ro, 0, some 0, .any⟩
def TS_FLOW_STAT_OLDEST (f : Nat) : Fld := ⟨0x40010580 + 4 * f, 18, 7, .ro, 0, some 0, .any⟩
def TS_FLOW_STAT_OUT (f : Nat) : Fld := ⟨0x40010580 + 4 * f, 11, 7, .ro, 0, some 0, .any⟩
def TS_FLOW_STAT_WAIT_OQ (f : Nat) : Fld := ⟨0x40010580 + 4 * f, 10, 1, .ro, 0, some 0, .any⟩
def TS_FLOW_STAT_REFUSED (f : Nat) : Fld := ⟨0x40010580 + 4 * f, 5, 5, .ro, 0, none, .any⟩
def TS_ROUTE_EN (s : Nat) : Fld := ⟨0x40010800 + 4 * s, 31, 1, .rw, 0, some 0, .any⟩
def TS_ROUTE_FLAG (s : Nat) : Fld := ⟨0x40010800 + 4 * s, 8, 5, .rw, 0, some 0, .any⟩
def TS_ROUTE_TASK (s : Nat) : Fld := ⟨0x40010800 + 4 * s, 0, 8, .rw, 0, some 0, .any⟩
def TS_Q_CFG_EN (q : Nat) : Fld := ⟨0x40010C00 + 4 * q, 31, 1, .rw, 0, some 0, .any⟩
def TS_Q_CFG_DEPTH (q : Nat) : Fld := ⟨0x40010C00 + 4 * q, 24, 4, .rw, 1, some 1, .clamp 1 10⟩
def TS_Q_CFG_BASE (q : Nat) : Fld := ⟨0x40010C00 + 4 * q, 0, 13, .rw, 0, some 0, .any⟩
def TS_Q_PUSH_DATA (q : Nat) : Fld := ⟨0x40010D00 + 4 * q, 0, 31, .wo, 0, some 0, .any⟩
def TS_Q_POP_VALID (q : Nat) : Fld := ⟨0x40010E00 + 4 * q, 31, 1, .ro, 0, some 0, .any⟩
def TS_Q_POP_DATA (q : Nat) : Fld := ⟨0x40010E00 + 4 * q, 0, 31, .ro, 0, some 0, .any⟩
def TS_Q_STAT_FILL (q : Nat) : Fld := ⟨0x40010F00 + 4 * q, 21, 11, .ro, 0, some 0, .any⟩
def TS_Q_STAT_FULL (q : Nat) : Fld := ⟨0x40010F00 + 4 * q, 20, 1, .ro, 0, some 0, .any⟩
def TS_Q_STAT_FULLREF (q : Nat) : Fld := ⟨0x40010F00 + 4 * q, 0, 16, .ro, 0, none, .any⟩
def TS_TASK_CFG_CMD (n : Nat) : Fld := ⟨0x40011000 + 16 * n, 30, 2, .wo, 0, some 0, .any⟩
def TS_TASK_CFG_AFF (n : Nat) : Fld := ⟨0x40011000 + 16 * n, 28, 2, .rw, 0, some 0, .zeroAbove 2⟩
def TS_TASK_CFG_SAFE (n : Nat) : Fld := ⟨0x40011000 + 16 * n, 27, 1, .rw, 0, some 0, .any⟩
def TS_TASK_CFG_PRIO (n : Nat) : Fld := ⟨0x40011000 + 16 * n, 20, 4, .rw, 0, some 0, .any⟩
def TS_TASK_FLAGS_FLAGS (n : Nat) : Fld := ⟨0x40011004 + 16 * n, 0, 32, .w1c, 0, some 0, .any⟩
def TS_TASK_MASK_MASK (n : Nat) : Fld := ⟨0x40011008 + 16 * n, 0, 32, .rw, 0, some 0, .any⟩
def TS_TASK_STAT_STATE (n : Nat) : Fld := ⟨0x4001100C + 16 * n, 29, 3, .ro, 0, some 0, .any⟩
def TS_TASK_STAT_FRESH (n : Nat) : Fld := ⟨0x4001100C + 16 * n, 28, 1, .ro, 0, some 0, .any⟩
def TS_TASK_STAT_HOLDS (n : Nat) : Fld := ⟨0x4001100C + 16 * n, 27, 1, .ro, 0, some 0, .any⟩
def TS_TASK_STAT_DISPATCHES (n : Nat) : Fld := ⟨0x4001100C + 16 * n, 0, 16, .ro, 0, some 0, .any⟩

/-- Part of the registers of TS. -/
def tabTSa : List RegDef := [
  ⟨"TS_STAT", 0x40010000, 1, 4, 1, 4, fun _ _ _ => [TS_STAT_RUN0, TS_STAT_RUN1, TS_STAT_VALID0, TS_STAT_VALID1]⟩,
  ⟨"TS_SAVE_BASE", 0x40010004, 1, 4, 1, 4, fun _ _ _ => [TS_SAVE_BASE_BASE]⟩,
  ⟨"TS_DISP", 0x40010010, 1, 4, 1, 4, fun _ _ _ => [TS_DISP_VALID, TS_DISP_FRESH, TS_DISP_OUT_NONE, TS_DISP_IN_NONE, TS_DISP_IN, TS_DISP_OUT]⟩,
  ⟨"TS_DISP_ACK", 0x40010014, 1, 4, 1, 4, fun _ _ _ => [TS_DISP_ACK_ACK]⟩,
  ⟨"TS_YIELD", 0x40010018, 1, 4, 1, 4, fun _ _ _ => [TS_YIELD_END, TS_YIELD_GO]⟩,
  ⟨"TS_SIGNAL", 0x4001001C, 1, 4, 1, 4, fun _ _ _ => [TS_SIGNAL_FLAG, TS_SIGNAL_TASK]⟩,
  ⟨"TS_CNT_DISP", 0x40010020, 1, 4, 1, 4, fun _ _ _ => [TS_CNT_DISP_COUNT]⟩,
  ⟨"TS_CNT_PREEMPT", 0x40010024, 1, 4, 1, 4, fun _ _ _ => [TS_CNT_PREEMPT_COUNT]⟩,
  ⟨"TS_FLOW_CFG", 0x40010400, 32, 4, 1, 4, fun _ i _ => [TS_FLOW_CFG_EN i, TS_FLOW_CFG_OQ i, TS_FLOW_CFG_IQ i]⟩,
  ⟨"TS_FLOW_ADMIT", 0x40010480, 32, 4, 1, 4, fun _ i _ => [TS_FLOW_ADMIT_ITEM i]⟩,
  ⟨"TS_FLOW_DONE", 0x40010500, 32, 4, 1, 4, fun _ i _ => [TS_FLOW_DONE_DROP i, TS_FLOW_DONE_TICKET i, TS_FLOW_DONE_RESULT i]⟩,
  ⟨"TS_FLOW_STAT", 0x40010580, 32, 4, 1, 4, fun _ i _ => [TS_FLOW_STAT_NEXT i, TS_FLOW_STAT_OLDEST i, TS_FLOW_STAT_OUT i, TS_FLOW_STAT_WAIT_OQ i, TS_FLOW_STAT_REFUSED i]⟩]

/-- Part of the registers of TS. -/
def tabTSb : List RegDef := [
  ⟨"TS_ROUTE", 0x40010800, 256, 4, 1, 4, fun _ i _ => [TS_ROUTE_EN i, TS_ROUTE_FLAG i, TS_ROUTE_TASK i]⟩,
  ⟨"TS_Q_CFG", 0x40010C00, 64, 4, 1, 4, fun _ i _ => [TS_Q_CFG_EN i, TS_Q_CFG_DEPTH i, TS_Q_CFG_BASE i]⟩,
  ⟨"TS_Q_PUSH", 0x40010D00, 64, 4, 1, 4, fun _ i _ => [TS_Q_PUSH_DATA i]⟩,
  ⟨"TS_Q_POP", 0x40010E00, 64, 4, 1, 4, fun _ i _ => [TS_Q_POP_VALID i, TS_Q_POP_DATA i]⟩,
  ⟨"TS_Q_STAT", 0x40010F00, 64, 4, 1, 4, fun _ i _ => [TS_Q_STAT_FILL i, TS_Q_STAT_FULL i, TS_Q_STAT_FULLREF i]⟩,
  ⟨"TS_TASK_CFG", 0x40011000, 256, 16, 1, 4, fun _ i _ => [TS_TASK_CFG_CMD i, TS_TASK_CFG_AFF i, TS_TASK_CFG_SAFE i, TS_TASK_CFG_PRIO i]⟩,
  ⟨"TS_TASK_FLAGS", 0x40011004, 256, 16, 1, 4, fun _ i _ => [TS_TASK_FLAGS_FLAGS i]⟩,
  ⟨"TS_TASK_MASK", 0x40011008, 256, 16, 1, 4, fun _ i _ => [TS_TASK_MASK_MASK i]⟩,
  ⟨"TS_TASK_STAT", 0x4001100C, 256, 16, 1, 4, fun _ i _ => [TS_TASK_STAT_STATE i, TS_TASK_STAT_FRESH i, TS_TASK_STAT_HOLDS i, TS_TASK_STAT_DISPATCHES i]⟩]

/-- The registers of TS. -/
def tabTS : List RegDef := tabTSa ++ tabTSb

/-! ### IX (09_tasks_arbitration.md Table 9.15) -/

def IX_CTRL_LOCK : Fld := ⟨0x40020000, 31, 1, .w1s, 0, some 0, .any⟩
def IX_CTRL_REFUSED : Fld := ⟨0x40020000, 8, 1, .w1c, 0, some 0, .any⟩
def IX_CTRL_SUM : Fld := ⟨0x40020000, 0, 8, .ro, 240, some 240, .any⟩
def IX_WEIGHT_W (r : Nat) : Fld := ⟨0x40020010 + 4 * r, 0, 8, .rwl, ([96, 0, 16, 32, 32, 4, 12, 16, 8, 16, 8].getD r 0), some ([96, 0, 16, 32, 32, 4, 12, 16, 8, 16, 8].getD r 0), .any⟩
def IX_TALLY_TALLY (t : Nat) (r : Nat) : Fld := ⟨0x40020100 + 64 * t + 4 * r, 0, 11, .ro, 0, some 0, .any⟩
def IX_CNT_SHORT_COUNT (r : Nat) : Fld := ⟨0x40020200 + 4 * r, 0, 32, .ro, 0, none, .any⟩

/-- The registers of IX. -/
def tabIX : List RegDef := [
  ⟨"IX_CTRL", 0x40020000, 1, 4, 1, 4, fun _ _ _ => [IX_CTRL_LOCK, IX_CTRL_REFUSED, IX_CTRL_SUM]⟩,
  ⟨"IX_WEIGHT", 0x40020010, 11, 4, 1, 4, fun _ i _ => [IX_WEIGHT_W i]⟩,
  ⟨"IX_TALLY", 0x40020100, 4, 64, 11, 4, fun _ i j => [IX_TALLY_TALLY i j]⟩,
  ⟨"IX_CNT_SHORT", 0x40020200, 11, 4, 1, 4, fun _ i _ => [IX_CNT_SHORT_COUNT i]⟩]

/-! ### LE (03_loop_engine.md Table 3.12; 03_loop_engine.md Table 3.13; 03_loop_engine.md Table 3.14; 03_loop_engine.md Table 3.15; 03_loop_engine.md Table 3.16; 03_loop_engine.md Table 3.17; 03_loop_engine.md Table 3.18; 03_loop_engine.md Table 3.19; 04_compensators.md Table 4.10; 04_compensators.md Table 4.11; 04_compensators.md Table 4.12; 04_compensators.md Table 4.13; 04_compensators.md Table 4.14; 04_compensators.md Table 4.15; 04_compensators.md Table 4.9) -/

def LE_CTRL_LOCK : Fld := ⟨0x40030000, 31, 1, .w1s, 0, some 0, .any⟩
def LE_CTRL_CCFG : Fld := ⟨0x40030000, 1, 1, .rwl, 0, some 0, .any⟩
def LE_CTRL_RUN : Fld := ⟨0x40030000, 0, 1, .rw, 0, some 0, .any⟩
def LE_STAT_ACTIVE : Fld := ⟨0x40030004, 31, 1, .ro, 0, some 0, .any⟩
def LE_STAT_CUR : Fld := ⟨0x40030004, 28, 3, .ro, 0, some 0, .any⟩
def LE_STAT_PEND : Fld := ⟨0x40030004, 20, 8, .ro, 0, some 0, .any⟩
def LE_STAT_PACE : Fld := ⟨0x40030004, 0, 12, .ro, 0, some 0, .any⟩
def LE_FIRE_EVT : Fld := ⟨0x40030008, 8, 1, .w1s, 0, some 0, .any⟩
def LE_FIRE_FIRE : Fld := ⟨0x40030008, 0, 8, .w1s, 0, some 0, .any⟩
def LE_SWAP_GO : Fld := ⟨0x40030010, 31, 1, .w1s, 0, some 0, .any⟩
def LE_SWAP_AT_CYCLE : Fld := ⟨0x40030010, 30, 1, .rw, 0, some 0, .any⟩
def LE_SWAP_TRIG : Fld := ⟨0x40030010, 27, 3, .rw, 0, some 0, .any⟩
def LE_SWAP_NEW_LIMIT : Fld := ⟨0x40030010, 12, 12, .rw, 0, some 0, .any⟩
def LE_SWAP_NEW_ENTRY : Fld := ⟨0x40030010, 0, 12, .rw, 0, some 0, .any⟩
def LE_SWAP_CYCLE_CYCLE : Fld := ⟨0x40030014, 0, 32, .rw, 0, some 0, .any⟩
def LE_CNT_MISS_COUNT : Fld := ⟨0x40030020, 0, 32, .ro, 0, none, .any⟩
def LE_CNT_ECC_COUNT : Fld := ⟨0x40030024, 0, 32, .ro, 0, none, .any⟩
def LE_CSWAP_REQ : Fld := ⟨0x40030040, 0, 32, .w1s, 0, some 0, .any⟩
def LE_CSWAP_AT_REQ : Fld := ⟨0x40030044, 0, 32, .w1s, 0, some 0, .any⟩
def LE_CSWAP_CYCLE_CYCLE : Fld := ⟨0x40030048, 0, 32, .rw, 0, some 0, .any⟩
def LE_CBANK_BANK : Fld := ⟨0x4003004C, 0, 32, .ro, 0, some 0, .any⟩
def LE_COWN_OWNED_0 (i : Nat) : Fld := ⟨0x40030050 + 4 * i, 3, 1, .rw, 0, some 0, .any⟩
def LE_COWN_TRIG_0 (i : Nat) : Fld := ⟨0x40030050 + 4 * i, 0, 3, .rw, 0, some 0, .any⟩
def LE_COWN_OWNED_1 (i : Nat) : Fld := ⟨0x40030050 + 4 * i, 7, 1, .rw, 0, some 0, .any⟩
def LE_COWN_TRIG_1 (i : Nat) : Fld := ⟨0x40030050 + 4 * i, 4, 3, .rw, 0, some 0, .any⟩
def LE_COWN_OWNED_2 (i : Nat) : Fld := ⟨0x40030050 + 4 * i, 11, 1, .rw, 0, some 0, .any⟩
def LE_COWN_TRIG_2 (i : Nat) : Fld := ⟨0x40030050 + 4 * i, 8, 3, .rw, 0, some 0, .any⟩
def LE_COWN_OWNED_3 (i : Nat) : Fld := ⟨0x40030050 + 4 * i, 15, 1, .rw, 0, some 0, .any⟩
def LE_COWN_TRIG_3 (i : Nat) : Fld := ⟨0x40030050 + 4 * i, 12, 3, .rw, 0, some 0, .any⟩
def LE_COWN_OWNED_4 (i : Nat) : Fld := ⟨0x40030050 + 4 * i, 19, 1, .rw, 0, some 0, .any⟩
def LE_COWN_TRIG_4 (i : Nat) : Fld := ⟨0x40030050 + 4 * i, 16, 3, .rw, 0, some 0, .any⟩
def LE_COWN_OWNED_5 (i : Nat) : Fld := ⟨0x40030050 + 4 * i, 23, 1, .rw, 0, some 0, .any⟩
def LE_COWN_TRIG_5 (i : Nat) : Fld := ⟨0x40030050 + 4 * i, 20, 3, .rw, 0, some 0, .any⟩
def LE_COWN_OWNED_6 (i : Nat) : Fld := ⟨0x40030050 + 4 * i, 27, 1, .rw, 0, some 0, .any⟩
def LE_COWN_TRIG_6 (i : Nat) : Fld := ⟨0x40030050 + 4 * i, 24, 3, .rw, 0, some 0, .any⟩
def LE_COWN_OWNED_7 (i : Nat) : Fld := ⟨0x40030050 + 4 * i, 31, 1, .rw, 0, some 0, .any⟩
def LE_COWN_TRIG_7 (i : Nat) : Fld := ⟨0x40030050 + 4 * i, 28, 3, .rw, 0, some 0, .any⟩
def LE_HOLD_HOLD (i : Nat) : Fld := ⟨0x40030060 + 4 * i, 0, 32, .rw, 0, some 0, .any⟩
def LE_HOLD_SCHED_GO : Fld := ⟨0x40030068, 31, 1, .w1s, 0, some 0, .any⟩
def LE_HOLD_SCHED_VALUE : Fld := ⟨0x40030068, 30, 1, .rw, 0, some 0, .any⟩
def LE_HOLD_SCHED_RECORD : Fld := ⟨0x40030068, 0, 6, .rw, 0, some 0, .any⟩
def LE_HOLD_CYCLE_CYCLE : Fld := ⟨0x4003006C, 0, 32, .rw, 0, some 0, .any⟩
def LE_CSTAT_REFUSED : Fld := ⟨0x40030070, 7, 1, .w1c, 0, some 0, .any⟩
def LE_CSTAT_REASON : Fld := ⟨0x40030070, 4, 3, .ro, 0, some 0, .any⟩
def LE_CSTAT_HOLD_PEND : Fld := ⟨0x40030070, 3, 1, .ro, 0, some 0, .any⟩
def LE_CSTAT_AT_PEND : Fld := ⟨0x40030070, 2, 1, .ro, 0, some 0, .any⟩
def LE_TRIG_CFG_EN (n : Nat) : Fld := ⟨0x40030100 + 16 * n, 31, 1, .rw, 0, some 0, .any⟩
def LE_TRIG_CFG_SRC (n : Nat) : Fld := ⟨0x40030100 + 16 * n, 24, 4, .rw, (if n = 0 then 3 else if n = 1 then 6 else if n = 2 then 7 else 0), some (if n = 0 then 3 else if n = 1 then 6 else if n = 2 then 7 else 0), .any⟩
def LE_TRIG_CFG_LIMIT (n : Nat) : Fld := ⟨0x40030100 + 16 * n, 12, 12, .rw, 4095, some 4095, .any⟩
def LE_TRIG_CFG_ENTRY (n : Nat) : Fld := ⟨0x40030100 + 16 * n, 0, 12, .rw, 0, some 0, .any⟩
def LE_TRIG_DL_DL (n : Nat) : Fld := ⟨0x40030104 + 16 * n, 0, 20, .rw, (if n < 2 then 2000 else if n = 2 then 2300 else 0), some (if n < 2 then 2000 else if n = 2 then 2300 else 0), .any⟩
def LE_TRIG_WCET_WCET (n : Nat) : Fld := ⟨0x40030108 + 16 * n, 0, 20, .ro, 0, some 0, .any⟩
def LE_TRIG_STAT_RUNS (n : Nat) : Fld := ⟨0x4003010C + 16 * n, 16, 16, .ro, 0, some 0, .any⟩
def LE_TRIG_STAT_REASON (n : Nat) : Fld := ⟨0x4003010C + 16 * n, 8, 3, .ro, 0, some 0, .any⟩
def LE_TRIG_STAT_SCAN (n : Nat) : Fld := ⟨0x4003010C + 16 * n, 7, 1, .ro, 0, some 0, .any⟩
def LE_TRIG_STAT_REFUSED (n : Nat) : Fld := ⟨0x4003010C + 16 * n, 6, 1, .ro, 0, some 0, .any⟩
def LE_TRIG_STAT_MISS (n : Nat) : Fld := ⟨0x4003010C + 16 * n, 5, 1, .w1c, 0, some 0, .any⟩
def LE_TRIG_STAT_OVR (n : Nat) : Fld := ⟨0x4003010C + 16 * n, 4, 1, .w1c, 0, some 0, .any⟩
def LE_TRIG_STAT_TIMEOUT (n : Nat) : Fld := ⟨0x4003010C + 16 * n, 3, 1, .w1c, 0, some 0, .any⟩
def LE_TRIG_STAT_SATUR (n : Nat) : Fld := ⟨0x4003010C + 16 * n, 2, 1, .w1c, 0, some 0, .any⟩

/-- Part of the registers of LE. -/
def tabLEa : List RegDef := [
  ⟨"LE_CTRL", 0x40030000, 1, 4, 1, 4, fun _ _ _ => [LE_CTRL_LOCK, LE_CTRL_CCFG, LE_CTRL_RUN]⟩,
  ⟨"LE_STAT", 0x40030004, 1, 4, 1, 4, fun _ _ _ => [LE_STAT_ACTIVE, LE_STAT_CUR, LE_STAT_PEND, LE_STAT_PACE]⟩,
  ⟨"LE_FIRE", 0x40030008, 1, 4, 1, 4, fun _ _ _ => [LE_FIRE_EVT, LE_FIRE_FIRE]⟩,
  ⟨"LE_SWAP", 0x40030010, 1, 4, 1, 4, fun _ _ _ => [LE_SWAP_GO, LE_SWAP_AT_CYCLE, LE_SWAP_TRIG, LE_SWAP_NEW_LIMIT, LE_SWAP_NEW_ENTRY]⟩,
  ⟨"LE_SWAP_CYCLE", 0x40030014, 1, 4, 1, 4, fun _ _ _ => [LE_SWAP_CYCLE_CYCLE]⟩,
  ⟨"LE_CNT_MISS", 0x40030020, 1, 4, 1, 4, fun _ _ _ => [LE_CNT_MISS_COUNT]⟩,
  ⟨"LE_CNT_ECC", 0x40030024, 1, 4, 1, 4, fun _ _ _ => [LE_CNT_ECC_COUNT]⟩,
  ⟨"LE_CSWAP", 0x40030040, 1, 4, 1, 4, fun _ _ _ => [LE_CSWAP_REQ]⟩,
  ⟨"LE_CSWAP_AT", 0x40030044, 1, 4, 1, 4, fun _ _ _ => [LE_CSWAP_AT_REQ]⟩,
  ⟨"LE_CSWAP_CYCLE", 0x40030048, 1, 4, 1, 4, fun _ _ _ => [LE_CSWAP_CYCLE_CYCLE]⟩,
  ⟨"LE_CBANK", 0x4003004C, 1, 4, 1, 4, fun _ _ _ => [LE_CBANK_BANK]⟩,
  ⟨"LE_COWN", 0x40030050, 4, 4, 1, 4, fun _ i _ => [LE_COWN_OWNED_0 i, LE_COWN_TRIG_0 i, LE_COWN_OWNED_1 i, LE_COWN_TRIG_1 i, LE_COWN_OWNED_2 i, LE_COWN_TRIG_2 i, LE_COWN_OWNED_3 i, LE_COWN_TRIG_3 i, LE_COWN_OWNED_4 i, LE_COWN_TRIG_4 i, LE_COWN_OWNED_5 i, LE_COWN_TRIG_5 i, LE_COWN_OWNED_6 i, LE_COWN_TRIG_6 i, LE_COWN_OWNED_7 i, LE_COWN_TRIG_7 i]⟩]

/-- Part of the registers of LE. -/
def tabLEb : List RegDef := [
  ⟨"LE_HOLD", 0x40030060, 2, 4, 1, 4, fun _ i _ => [LE_HOLD_HOLD i]⟩,
  ⟨"LE_HOLD_SCHED", 0x40030068, 1, 4, 1, 4, fun _ _ _ => [LE_HOLD_SCHED_GO, LE_HOLD_SCHED_VALUE, LE_HOLD_SCHED_RECORD]⟩,
  ⟨"LE_HOLD_CYCLE", 0x4003006C, 1, 4, 1, 4, fun _ _ _ => [LE_HOLD_CYCLE_CYCLE]⟩,
  ⟨"LE_CSTAT", 0x40030070, 1, 4, 1, 4, fun _ _ _ => [LE_CSTAT_REFUSED, LE_CSTAT_REASON, LE_CSTAT_HOLD_PEND, LE_CSTAT_AT_PEND]⟩,
  ⟨"LE_TRIG_CFG", 0x40030100, 8, 16, 1, 4, fun _ i _ => [LE_TRIG_CFG_EN i, LE_TRIG_CFG_SRC i, LE_TRIG_CFG_LIMIT i, LE_TRIG_CFG_ENTRY i]⟩,
  ⟨"LE_TRIG_DL", 0x40030104, 8, 16, 1, 4, fun _ i _ => [LE_TRIG_DL_DL i]⟩,
  ⟨"LE_TRIG_WCET", 0x40030108, 8, 16, 1, 4, fun _ i _ => [LE_TRIG_WCET_WCET i]⟩,
  ⟨"LE_TRIG_STAT", 0x4003010C, 8, 16, 1, 4, fun _ i _ => [LE_TRIG_STAT_RUNS i, LE_TRIG_STAT_REASON i, LE_TRIG_STAT_SCAN i, LE_TRIG_STAT_REFUSED i, LE_TRIG_STAT_MISS i, LE_TRIG_STAT_OVR i, LE_TRIG_STAT_TIMEOUT i, LE_TRIG_STAT_SATUR i]⟩]

/-- The registers of LE. -/
def tabLE : List RegDef := tabLEa ++ tabLEb

/-! ### FC (05_field_control.md Table 5.10; 05_field_control.md Table 5.11; 05_field_control.md Table 5.12; 05_field_control.md Table 5.13; 05_field_control.md Table 5.14; 05_field_control.md Table 5.15; 05_field_control.md Table 5.16; 05_field_control.md Table 5.8; 05_field_control.md Table 5.9) -/

def FC_CAR_LOCK : Fld := ⟨0x40040000, 31, 1, .w1s, 0, some 0, .any⟩
def FC_CAR_DIV : Fld := ⟨0x40040000, 18, 4, .rwl, 2, some 2, .any⟩
def FC_CAR_PHASE (x : LaneId) : Fld := ⟨0x40040000, 0, 15, .rwl, (match x with | .A => 0 | .B => 1667 | .C => 3333), some (match x with | .A => 0 | .B => 1667 | .C => 3333), .any⟩
def FC_SMP_CFG_WMIN : Fld := ⟨0x40040004, 0, 10, .rw, 100, some 100, .clamp 100 1023⟩
def FC_BR_CTRL_REQ (b : Nat) : Fld := ⟨0x40040100 + 128 * b, 0, 2, .rw, 0, some 0, .any⟩
def FC_BR_CFG_MINP (b : Nat) : Fld := ⟨0x40040104 + 128 * b, 16, 8, .rw, 10, some 10, .any⟩
def FC_BR_CFG_DT (b : Nat) : Fld := ⟨0x40040104 + 128 * b, 8, 8, .rw, 20, some 20, .any⟩
def FC_BR_CFG_PAT (b : Nat) : Fld := ⟨0x40040104 + 128 * b, 0, 1, .rw, 1, some 1, .any⟩
def FC_BR_STAT_STATE (b : Nat) : Fld := ⟨0x40040108 + 128 * b, 29, 3, .ro, 0, some 0, .any⟩
def FC_BR_STAT_DRIVE_OK (b : Nat) : Fld := ⟨0x40040108 + 128 * b, 28, 1, .ro, 0, some 0, .any⟩
def FC_BR_STAT_RAMP (b : Nat) : Fld := ⟨0x40040108 + 128 * b, 27, 1, .ro, 0, some 0, .any⟩
def FC_BR_STAT_REGEN (b : Nat) : Fld := ⟨0x40040108 + 128 * b, 26, 1, .ro, 0, some 0, .any⟩
def FC_BR_STAT_DISSIP (b : Nat) : Fld := ⟨0x40040108 + 128 * b, 25, 1, .ro, 0, some 0, .any⟩
def FC_BR_STAT_CEIL (b : Nat) : Fld := ⟨0x40040108 + 128 * b, 24, 1, .w1c, 0, some 0, .any⟩
def FC_BR_STAT_LOCKED (b : Nat) : Fld := ⟨0x40040108 + 128 * b, 23, 1, .ro, 0, some 0, .any⟩
def FC_BR_STAT_AFLIM (b : Nat) : Fld := ⟨0x40040108 + 128 * b, 22, 1, .ro, 0, some 0, .any⟩
def FC_BR_STAT_DCLAMP (b : Nat) : Fld := ⟨0x40040108 + 128 * b, 21, 1, .w1c, 0, some 0, .any⟩
def FC_BR_STAT_CTMO (b : Nat) : Fld := ⟨0x40040108 + 128 * b, 20, 1, .w1c, 0, some 0, .any⟩
def FC_PRED_G_VALUE (b : Nat) : Fld := ⟨0x40040110 + 128 * b, 0, 32, .rw, 0, some 0, .any⟩
def FC_PRED_GR_VALUE (b : Nat) : Fld := ⟨0x40040114 + 128 * b, 0, 32, .rw, 0, some 0, .any⟩
def FC_PRED_PSI_VALUE (b : Nat) : Fld := ⟨0x40040118 + 128 * b, 0, 32, .rw, 0, some 0, .any⟩
def FC_CATCH_CFG_RAMP (b : Nat) : Fld := ⟨0x40040120 + 128 * b, 24, 8, .rw, 20, some 20, .any⟩
def FC_CATCH_CFG_ZHOLD (b : Nat) : Fld := ⟨0x40040120 + 128 * b, 12, 12, .rw, 256, some 256, .clamp 64 4095⟩
def FC_CATCH_CFG_TMO (b : Nat) : Fld := ⟨0x40040120 + 128 * b, 4, 8, .rw, 200, some 200, .clamp 1 255⟩
def FC_CATCH_CFG_FF (b : Nat) : Fld := ⟨0x40040120 + 128 * b, 0, 1, .rw, 1, some 1, .any⟩
def FC_CATCH_LIM_LIMIT (b : Nat) : Fld := ⟨0x40040124 + 128 * b, 0, 16, .rw, 4096, some 4096, .any⟩
def FC_CATCH_ADDR_QSTATE (b : Nat) : Fld := ⟨0x40040128 + 128 * b, 12, 12, .rw, 0, some 0, .any⟩
def FC_CATCH_ADDR_DSTATE (b : Nat) : Fld := ⟨0x40040128 + 128 * b, 0, 12, .rw, 0, some 0, .any⟩
def FC_REGEN_CFG_V_CEIL (b : Nat) : Fld := ⟨0x40040130 + 128 * b, 16, 16, .rw, 32767, some 32767, .any⟩
def FC_REGEN_CFG_V_REG (b : Nat) : Fld := ⟨0x40040130 + 128 * b, 0, 16, .rw, 32767, some 32767, .any⟩
def FC_DIS_CFG_IDIS_MAX (b : Nat) : Fld := ⟨0x40040134 + 128 * b, 16, 16, .rw, 0, some 0, .any⟩
def FC_DIS_CFG_V_DIS (b : Nat) : Fld := ⟨0x40040134 + 128 * b, 0, 16, .rw, 32767, some 32767, .any⟩
def FC_ID_CFG_EN (b : Nat) : Fld := ⟨0x40040138 + 128 * b, 31, 1, .rw, 0, some 0, .any⟩
def FC_ID_CFG_IDADDR (b : Nat) : Fld := ⟨0x40040138 + 128 * b, 16, 12, .rw, 128, some 128, .any⟩
def FC_ID_CFG_ID_BASE (b : Nat) : Fld := ⟨0x40040138 + 128 * b, 0, 16, .rw, 0, some 0, .any⟩
def FC_LOCK_CFG_TQ (b : Nat) : Fld := ⟨0x40040140 + 128 * b, 16, 16, .rw, 32767, some 32767, .any⟩
def FC_LOCK_CFG_LIM (b : Nat) : Fld := ⟨0x40040140 + 128 * b, 0, 16, .rw, 16384, some 16384, .any⟩
def FC_LOCK_TIME_EN_ES (b : Nat) : Fld := ⟨0x40040144 + 128 * b, 31, 1, .rw, 0, some 0, .any⟩
def FC_LOCK_TIME_ESBIT (b : Nat) : Fld := ⟨0x40040144 + 128 * b, 26, 5, .rw, 0, some 0, .any⟩
def FC_LOCK_TIME_ESADDR (b : Nat) : Fld := ⟨0x40040144 + 128 * b, 12, 12, .rw, 128, some 128, .any⟩
def FC_LOCK_TIME_TIME (b : Nat) : Fld := ⟨0x40040144 + 128 * b, 0, 10, .rw, 100, some 100, .clamp 1 1000⟩
def FC_CNT_PRED_COUNT (b : Nat) : Fld := ⟨0x40040150 + 128 * b, 0, 32, .ro, 0, none, .any⟩
def FC_CNT_FORCE_COUNT (b : Nat) : Fld := ⟨0x40040154 + 128 * b, 0, 32, .ro, 0, none, .any⟩
def FC_CNT_CLAMP_COUNT (b : Nat) : Fld := ⟨0x40040158 + 128 * b, 0, 32, .ro, 0, none, .any⟩
def FC_CNT_LOCK_COUNT (b : Nat) : Fld := ⟨0x4004015C + 128 * b, 0, 32, .ro, 0, none, .any⟩

/-- Part of the registers of FC. -/
def tabFCa : List RegDef := [
  ⟨"FC_CAR", 0x40040000, 1, 4, 1, 4, fun x _ _ => [FC_CAR_LOCK, FC_CAR_DIV, FC_CAR_PHASE x]⟩,
  ⟨"FC_SMP_CFG", 0x40040004, 1, 4, 1, 4, fun _ _ _ => [FC_SMP_CFG_WMIN]⟩,
  ⟨"FC_BR_CTRL", 0x40040100, 2, 128, 1, 4, fun _ i _ => [FC_BR_CTRL_REQ i]⟩,
  ⟨"FC_BR_CFG", 0x40040104, 2, 128, 1, 4, fun _ i _ => [FC_BR_CFG_MINP i, FC_BR_CFG_DT i, FC_BR_CFG_PAT i]⟩,
  ⟨"FC_BR_STAT", 0x40040108, 2, 128, 1, 4, fun _ i _ => [FC_BR_STAT_STATE i, FC_BR_STAT_DRIVE_OK i, FC_BR_STAT_RAMP i, FC_BR_STAT_REGEN i, FC_BR_STAT_DISSIP i, FC_BR_STAT_CEIL i, FC_BR_STAT_LOCKED i, FC_BR_STAT_AFLIM i, FC_BR_STAT_DCLAMP i, FC_BR_STAT_CTMO i]⟩,
  ⟨"FC_PRED_G", 0x40040110, 2, 128, 1, 4, fun _ i _ => [FC_PRED_G_VALUE i]⟩,
  ⟨"FC_PRED_GR", 0x40040114, 2, 128, 1, 4, fun _ i _ => [FC_PRED_GR_VALUE i]⟩,
  ⟨"FC_PRED_PSI", 0x40040118, 2, 128, 1, 4, fun _ i _ => [FC_PRED_PSI_VALUE i]⟩,
  ⟨"FC_CATCH_CFG", 0x40040120, 2, 128, 1, 4, fun _ i _ => [FC_CATCH_CFG_RAMP i, FC_CATCH_CFG_ZHOLD i, FC_CATCH_CFG_TMO i, FC_CATCH_CFG_FF i]⟩,
  ⟨"FC_CATCH_LIM", 0x40040124, 2, 128, 1, 4, fun _ i _ => [FC_CATCH_LIM_LIMIT i]⟩,
  ⟨"FC_CATCH_ADDR", 0x40040128, 2, 128, 1, 4, fun _ i _ => [FC_CATCH_ADDR_QSTATE i, FC_CATCH_ADDR_DSTATE i]⟩,
  ⟨"FC_REGEN_CFG", 0x40040130, 2, 128, 1, 4, fun _ i _ => [FC_REGEN_CFG_V_CEIL i, FC_REGEN_CFG_V_REG i]⟩]

/-- Part of the registers of FC. -/
def tabFCb : List RegDef := [
  ⟨"FC_DIS_CFG", 0x40040134, 2, 128, 1, 4, fun _ i _ => [FC_DIS_CFG_IDIS_MAX i, FC_DIS_CFG_V_DIS i]⟩,
  ⟨"FC_ID_CFG", 0x40040138, 2, 128, 1, 4, fun _ i _ => [FC_ID_CFG_EN i, FC_ID_CFG_IDADDR i, FC_ID_CFG_ID_BASE i]⟩,
  ⟨"FC_LOCK_CFG", 0x40040140, 2, 128, 1, 4, fun _ i _ => [FC_LOCK_CFG_TQ i, FC_LOCK_CFG_LIM i]⟩,
  ⟨"FC_LOCK_TIME", 0x40040144, 2, 128, 1, 4, fun _ i _ => [FC_LOCK_TIME_EN_ES i, FC_LOCK_TIME_ESBIT i, FC_LOCK_TIME_ESADDR i, FC_LOCK_TIME_TIME i]⟩,
  ⟨"FC_CNT_PRED", 0x40040150, 2, 128, 1, 4, fun _ i _ => [FC_CNT_PRED_COUNT i]⟩,
  ⟨"FC_CNT_FORCE", 0x40040154, 2, 128, 1, 4, fun _ i _ => [FC_CNT_FORCE_COUNT i]⟩,
  ⟨"FC_CNT_CLAMP", 0x40040158, 2, 128, 1, 4, fun _ i _ => [FC_CNT_CLAMP_COUNT i]⟩,
  ⟨"FC_CNT_LOCK", 0x4004015C, 2, 128, 1, 4, fun _ i _ => [FC_CNT_LOCK_COUNT i]⟩]

/-- The registers of FC. -/
def tabFC : List RegDef := tabFCa ++ tabFCb

/-! ### AF (06_angle_speed.md Table 6.10; 06_angle_speed.md Table 6.11; 06_angle_speed.md Table 6.12; 06_angle_speed.md Table 6.13; 06_angle_speed.md Table 6.14; 06_angle_speed.md Table 6.8; 06_angle_speed.md Table 6.9) -/

def AF_HALL_CFG_DLY (b : Nat) : Fld := ⟨0x40050100 + 256 * b, 16, 10, .rw, 0, some 0, .any⟩
def AF_HALL_CFG_FILT (b : Nat) : Fld := ⟨0x40050100 + 256 * b, 0, 10, .rw, 50, some 50, .clamp 1 1023⟩
def AF_OBS_CFG_LOSS_SPD (b : Nat) : Fld := ⟨0x40050104 + 256 * b, 16, 16, .rw, 6554, some 6554, .any⟩
def AF_OBS_CFG_WIN (b : Nat) : Fld := ⟨0x40050104 + 256 * b, 8, 5, .rw, 0, some 0, .clamp 0 18⟩
def AF_OBS_CFG_TSTILL (b : Nat) : Fld := ⟨0x40050104 + 256 * b, 0, 7, .rw, 20, some 20, .clamp 1 100⟩
def AF_SCALE_OFS (b : Nat) : Fld := ⟨0x40050108 + 256 * b, 16, 16, .rw, 0, some 0, .any⟩
def AF_SCALE_BASE (b : Nat) : Fld := ⟨0x40050108 + 256 * b, 0, 16, .rw, 16384, some 16384, .clamp 1 65535⟩
def AF_LOSS_CFG_LIM (b : Nat) : Fld := ⟨0x4005010C + 256 * b, 0, 16, .rw, 4096, some 4096, .any⟩
def AF_STAT_WORD (b : Nat) : Fld := ⟨0x40050110 + 256 * b, 0, 32, .ro, 0, some 0, .any⟩
def AF_ANG_ANG (b : Nat) : Fld := ⟨0x40050114 + 256 * b, 0, 16, .ro, 0, some 0, .any⟩
def AF_SPD_SPD (b : Nat) : Fld := ⟨0x40050118 + 256 * b, 0, 32, .ro, 0, some 0, .any⟩
def AF_POS_POS (b : Nat) : Fld := ⟨0x4005011C + 256 * b, 0, 32, .ro, 0, some 0, .any⟩
def AF_EDGE_J (b : Nat) : Fld := ⟨0x40050120 + 256 * b, 27, 5, .ro, 0, some 0, .any⟩
def AF_EDGE_LANE (b : Nat) : Fld := ⟨0x40050120 + 256 * b, 25, 2, .ro, 0, some 0, .any⟩
def AF_EDGE_DIR (b : Nat) : Fld := ⟨0x40050120 + 256 * b, 24, 1, .ro, 0, some 0, .any⟩
def AF_EDGE_TIME (b : Nat) : Fld := ⟨0x40050120 + 256 * b, 0, 24, .ro, 0, some 0, .any⟩
def AF_ENC_CFG_EN (b : Nat) : Fld := ⟨0x40050124 + 256 * b, 31, 1, .rw, 0, some 0, .any⟩
def AF_ENC_CFG_PP (b : Nat) : Fld := ⟨0x40050124 + 256 * b, 16, 5, .rw, 1, some 1, .clamp 1 16⟩
def AF_ENC_CFG_Q (b : Nat) : Fld := ⟨0x40050124 + 256 * b, 0, 15, .rw, 4096, some 4096, .clamp 1 16384⟩
def AF_ENC_CNT_COUNT (b : Nat) : Fld := ⟨0x40050128 + 256 * b, 0, 32, .rw, 0, some 0, .any⟩
def AF_ENC_BKLG_BKLG (b : Nat) : Fld := ⟨0x4005012C + 256 * b, 0, 32, .ro, 0, some 0, .any⟩
def AF_CNT_ILL_COUNT (b : Nat) : Fld := ⟨0x40050130 + 256 * b, 0, 32, .ro, 0, none, .any⟩
def AF_CNT_LATE_COUNT (b : Nat) : Fld := ⟨0x40050134 + 256 * b, 0, 32, .ro, 0, none, .any⟩
def AF_CNT_LOSS_COUNT (b : Nat) : Fld := ⟨0x40050138 + 256 * b, 0, 32, .ro, 0, none, .any⟩
def AF_CNT_SETLOST_COUNT (b : Nat) : Fld := ⟨0x4005013C + 256 * b, 0, 32, .ro, 0, none, .any⟩
def AF_ECAL_CAL (b : Nat) (j : Nat) : Fld := ⟨0x40050140 + 256 * b + 4 * j, 0, 16, .rw, 0, none, .any⟩
def AF_SENT_CFG_EN (s : Nat) : Fld := ⟨0x40050400 + 64 * s, 31, 1, .rw, 0, some 0, .any⟩
def AF_SENT_CFG_PAUSE (s : Nat) : Fld := ⟨0x40050400 + 64 * s, 30, 1, .rw, 0, some 0, .any⟩
def AF_SENT_CFG_CRC_LEGACY (s : Nat) : Fld := ⟨0x40050400 + 64 * s, 29, 1, .rw, 0, some 0, .any⟩
def AF_SENT_CFG_NIB (s : Nat) : Fld := ⟨0x40050400 + 64 * s, 26, 3, .rw, 6, some 6, .clamp 1 6⟩
def AF_SENT_CFG_TICK (s : Nat) : Fld := ⟨0x40050400 + 64 * s, 16, 10, .rw, 30, some 30, .any⟩
def AF_SENT_CFG_TMO (s : Nat) : Fld := ⟨0x40050400 + 64 * s, 8, 8, .rw, 10, some 10, .clamp 1 255⟩
def AF_SENT_CFG_SMASK (s : Nat) : Fld := ⟨0x40050400 + 64 * s, 4, 4, .rw, 0, some 0, .any⟩
def AF_SENT_STAT_VALID (s : Nat) : Fld := ⟨0x40050404 + 64 * s, 31, 1, .ro, 0, some 0, .any⟩
def AF_SENT_STAT_IMPL (s : Nat) : Fld := ⟨0x40050404 + 64 * s, 30, 1, .ro, 0, some 0, .any⟩
def AF_SENT_STAT_FRAMES (s : Nat) : Fld := ⟨0x40050404 + 64 * s, 0, 16, .ro, 0, some 0, .any⟩
def AF_SENT_FAST_STATUS (s : Nat) : Fld := ⟨0x40050408 + 64 * s, 28, 4, .ro, 0, some 0, .any⟩
def AF_SENT_FAST_DATA (s : Nat) : Fld := ⟨0x40050408 + 64 * s, 0, 24, .ro, 0, some 0, .any⟩
def AF_SENT_SLOW_NEW (s : Nat) : Fld := ⟨0x4005040C + 64 * s, 31, 1, .w1c, 0, some 0, .any⟩
def AF_SENT_SLOW_WIDE (s : Nat) : Fld := ⟨0x4005040C + 64 * s, 30, 1, .ro, 0, some 0, .any⟩
def AF_SENT_SLOW_ID (s : Nat) : Fld := ⟨0x4005040C + 64 * s, 16, 8, .ro, 0, some 0, .any⟩
def AF_SENT_SLOW_DATA (s : Nat) : Fld := ⟨0x4005040C + 64 * s, 0, 16, .ro, 0, some 0, .any⟩
def AF_SENT_CNT_CRC_ERR (s : Nat) : Fld := ⟨0x40050410 + 64 * s, 16, 16, .ro, 0, none, .any⟩
def AF_SENT_CNT_FRM_ERR (s : Nat) : Fld := ⟨0x40050410 + 64 * s, 0, 16, .ro, 0, none, .any⟩
def AF_AN_CFG_HI (a : Nat) : Fld := ⟨0x40050500 + 4 * a, 16, 16, .rw, 65535, some 65535, .any⟩
def AF_AN_CFG_LO (a : Nat) : Fld := ⟨0x40050500 + 4 * a, 0, 16, .rw, 0, some 0, .any⟩
def AF_AN_VAL_IMPL (a : Nat) : Fld := ⟨0x40050520 + 4 * a, 31, 1, .ro, 0, some 0, .any⟩
def AF_AN_VAL_VALUE (a : Nat) : Fld := ⟨0x40050520 + 4 * a, 0, 16, .ro, 0, some 0, .any⟩

/-- Part of the registers of AF. -/
def tabAFa : List RegDef := [
  ⟨"AF_HALL_CFG", 0x40050100, 2, 256, 1, 4, fun _ i _ => [AF_HALL_CFG_DLY i, AF_HALL_CFG_FILT i]⟩,
  ⟨"AF_OBS_CFG", 0x40050104, 2, 256, 1, 4, fun _ i _ => [AF_OBS_CFG_LOSS_SPD i, AF_OBS_CFG_WIN i, AF_OBS_CFG_TSTILL i]⟩,
  ⟨"AF_SCALE", 0x40050108, 2, 256, 1, 4, fun _ i _ => [AF_SCALE_OFS i, AF_SCALE_BASE i]⟩,
  ⟨"AF_LOSS_CFG", 0x4005010C, 2, 256, 1, 4, fun _ i _ => [AF_LOSS_CFG_LIM i]⟩,
  ⟨"AF_STAT", 0x40050110, 2, 256, 1, 4, fun _ i _ => [AF_STAT_WORD i]⟩,
  ⟨"AF_ANG", 0x40050114, 2, 256, 1, 4, fun _ i _ => [AF_ANG_ANG i]⟩,
  ⟨"AF_SPD", 0x40050118, 2, 256, 1, 4, fun _ i _ => [AF_SPD_SPD i]⟩,
  ⟨"AF_POS", 0x4005011C, 2, 256, 1, 4, fun _ i _ => [AF_POS_POS i]⟩,
  ⟨"AF_EDGE", 0x40050120, 2, 256, 1, 4, fun _ i _ => [AF_EDGE_J i, AF_EDGE_LANE i, AF_EDGE_DIR i, AF_EDGE_TIME i]⟩,
  ⟨"AF_ENC_CFG", 0x40050124, 2, 256, 1, 4, fun _ i _ => [AF_ENC_CFG_EN i, AF_ENC_CFG_PP i, AF_ENC_CFG_Q i]⟩,
  ⟨"AF_ENC_CNT", 0x40050128, 2, 256, 1, 4, fun _ i _ => [AF_ENC_CNT_COUNT i]⟩,
  ⟨"AF_ENC_BKLG", 0x4005012C, 2, 256, 1, 4, fun _ i _ => [AF_ENC_BKLG_BKLG i]⟩]

/-- Part of the registers of AF. -/
def tabAFb : List RegDef := [
  ⟨"AF_CNT_ILL", 0x40050130, 2, 256, 1, 4, fun _ i _ => [AF_CNT_ILL_COUNT i]⟩,
  ⟨"AF_CNT_LATE", 0x40050134, 2, 256, 1, 4, fun _ i _ => [AF_CNT_LATE_COUNT i]⟩,
  ⟨"AF_CNT_LOSS", 0x40050138, 2, 256, 1, 4, fun _ i _ => [AF_CNT_LOSS_COUNT i]⟩,
  ⟨"AF_CNT_SETLOST", 0x4005013C, 2, 256, 1, 4, fun _ i _ => [AF_CNT_SETLOST_COUNT i]⟩,
  ⟨"AF_ECAL", 0x40050140, 2, 256, 18, 4, fun _ i j => [AF_ECAL_CAL i j]⟩,
  ⟨"AF_SENT_CFG", 0x40050400, 2, 64, 1, 4, fun _ i _ => [AF_SENT_CFG_EN i, AF_SENT_CFG_PAUSE i, AF_SENT_CFG_CRC_LEGACY i, AF_SENT_CFG_NIB i, AF_SENT_CFG_TICK i, AF_SENT_CFG_TMO i, AF_SENT_CFG_SMASK i]⟩,
  ⟨"AF_SENT_STAT", 0x40050404, 2, 64, 1, 4, fun _ i _ => [AF_SENT_STAT_VALID i, AF_SENT_STAT_IMPL i, AF_SENT_STAT_FRAMES i]⟩,
  ⟨"AF_SENT_FAST", 0x40050408, 2, 64, 1, 4, fun _ i _ => [AF_SENT_FAST_STATUS i, AF_SENT_FAST_DATA i]⟩,
  ⟨"AF_SENT_SLOW", 0x4005040C, 2, 64, 1, 4, fun _ i _ => [AF_SENT_SLOW_NEW i, AF_SENT_SLOW_WIDE i, AF_SENT_SLOW_ID i, AF_SENT_SLOW_DATA i]⟩,
  ⟨"AF_SENT_CNT", 0x40050410, 2, 64, 1, 4, fun _ i _ => [AF_SENT_CNT_CRC_ERR i, AF_SENT_CNT_FRM_ERR i]⟩,
  ⟨"AF_AN_CFG", 0x40050500, 4, 4, 1, 4, fun _ i _ => [AF_AN_CFG_HI i, AF_AN_CFG_LO i]⟩,
  ⟨"AF_AN_VAL", 0x40050520, 4, 4, 1, 4, fun _ i _ => [AF_AN_VAL_IMPL i, AF_AN_VAL_VALUE i]⟩]

/-- The registers of AF. -/
def tabAF : List RegDef := tabAFa ++ tabAFb

/-! ### GD (07_gate_drive.md Table 7.10; 07_gate_drive.md Table 7.11; 07_gate_drive.md Table 7.12; 07_gate_drive.md Table 7.13; 07_gate_drive.md Table 7.14; 07_gate_drive.md Table 7.8; 07_gate_drive.md Table 7.9) -/

def GD_CTRL_LOCK : Fld := ⟨0x40060000, 31, 1, .w1s, 0, some 0, .any⟩
def GD_CTRL_DT_MIN : Fld := ⟨0x40060000, 0, 6, .rwl, 10, some 10, .clamp 2 63⟩
def GD_STAT_EN : Fld := ⟨0x40060004, 31, 1, .ro, 0, none, .any⟩
def GD_STAT_TOFF : Fld := ⟨0x40060004, 30, 1, .ro, 0, some 0, .any⟩
def GD_STAT_LINK : Fld := ⟨0x40060004, 29, 1, .ro, 0, none, .any⟩
def GD_STAT_VGD_UV : Fld := ⟨0x40060004, 28, 1, .ro, 0, some 0, .any⟩
def GD_STAT_FLT : Fld := ⟨0x40060004, 0, 2, .ro, 0, none, .any⟩
def GD_PROF_PRE_I (b : Nat) (e : Nat) : Fld := ⟨0x40060100 + 64 * b + 4 * e, 28, 4, .rw, 15, some 15, .any⟩
def GD_PROF_SLOPE_I (b : Nat) (e : Nat) : Fld := ⟨0x40060100 + 64 * b + 4 * e, 24, 4, .rw, 4, some 4, .any⟩
def GD_PROF_HOLD_I (b : Nat) (e : Nat) : Fld := ⟨0x40060100 + 64 * b + 4 * e, 20, 4, .rw, 15, some 15, .any⟩
def GD_PROF_SLOPE_T (b : Nat) (e : Nat) : Fld := ⟨0x40060100 + 64 * b + 4 * e, 10, 7, .rw, 20, some 20, .any⟩
def GD_PROF_PRE_T (b : Nat) (e : Nat) : Fld := ⟨0x40060100 + 64 * b + 4 * e, 0, 6, .rw, 5, some 5, .any⟩
def GD_DESAT_VTH (b : Nat) : Fld := ⟨0x40060108 + 64 * b, 8, 4, .rwl, 5, some 5, .any⟩
def GD_DESAT_BLANK (b : Nat) : Fld := ⟨0x40060108 + 64 * b, 0, 6, .rwl, 9, some 9, .any⟩
def GD_SHORT_HS_TH (b : Nat) : Fld := ⟨0x4006010C + 64 * b, 24, 8, .rwl, 100, some 100, .clamp 10 255⟩
def GD_SHORT_SOFT_I (b : Nat) : Fld := ⟨0x4006010C + 64 * b, 20, 4, .rwl, 2, some 2, .any⟩
def GD_SHORT_SOFT_T (b : Nat) : Fld := ⟨0x4006010C + 64 * b, 14, 6, .rwl, 50, some 50, .clamp 1 63⟩
def GD_SHORT_STAGGER (b : Nat) : Fld := ⟨0x4006010C + 64 * b, 9, 5, .rwl, 20, some 20, .any⟩
def GD_DIRECT_HS (b : Nat) : Fld := ⟨0x40060110 + 64 * b, 3, 3, .rw, 0, some 0, .any⟩
def GD_DIRECT_LS (b : Nat) : Fld := ⟨0x40060110 + 64 * b, 0, 3, .rw, 0, some 0, .any⟩
def GD_FLT_SHORT (b : Nat) : Fld := ⟨0x40060114 + 64 * b, 31, 1, .ro, 0, none, .any⟩
def GD_FLT_TWO_LEG (b : Nat) : Fld := ⟨0x40060114 + 64 * b, 30, 1, .ro, 0, none, .any⟩
def GD_FLT_DESAT_H (b : Nat) : Fld := ⟨0x40060114 + 64 * b, 26, 3, .ro, 0, none, .any⟩
def GD_FLT_DESAT_L (b : Nat) : Fld := ⟨0x40060114 + 64 * b, 23, 3, .ro, 0, none, .any⟩
def GD_FLT_HSHORT (b : Nat) : Fld := ⟨0x40060114 + 64 * b, 20, 3, .ro, 0, none, .any⟩
def GD_FLT_BSUV (b : Nat) : Fld := ⟨0x40060114 + 64 * b, 13, 3, .ro, 0, some 0, .any⟩
def GD_CNT_SHORT_COUNT (b : Nat) : Fld := ⟨0x40060118 + 64 * b, 0, 32, .ro, 0, none, .any⟩
def GD_CNT_XLOCK_COUNT (b : Nat) : Fld := ⟨0x4006011C + 64 * b, 0, 32, .ro, 0, none, .any⟩
def GD_CNT_BSUV_COUNT (b : Nat) : Fld := ⟨0x40060120 + 64 * b, 0, 32, .ro, 0, none, .any⟩

/-- The registers of GD. -/
def tabGD : List RegDef := [
  ⟨"GD_CTRL", 0x40060000, 1, 4, 1, 4, fun _ _ _ => [GD_CTRL_LOCK, GD_CTRL_DT_MIN]⟩,
  ⟨"GD_STAT", 0x40060004, 1, 4, 1, 4, fun _ _ _ => [GD_STAT_EN, GD_STAT_TOFF, GD_STAT_LINK, GD_STAT_VGD_UV, GD_STAT_FLT]⟩,
  ⟨"GD_PROF", 0x40060100, 2, 64, 2, 4, fun _ i j => [GD_PROF_PRE_I i j, GD_PROF_SLOPE_I i j, GD_PROF_HOLD_I i j, GD_PROF_SLOPE_T i j, GD_PROF_PRE_T i j]⟩,
  ⟨"GD_DESAT", 0x40060108, 2, 64, 1, 4, fun _ i _ => [GD_DESAT_VTH i, GD_DESAT_BLANK i]⟩,
  ⟨"GD_SHORT", 0x4006010C, 2, 64, 1, 4, fun _ i _ => [GD_SHORT_HS_TH i, GD_SHORT_SOFT_I i, GD_SHORT_SOFT_T i, GD_SHORT_STAGGER i]⟩,
  ⟨"GD_DIRECT", 0x40060110, 2, 64, 1, 4, fun _ i _ => [GD_DIRECT_HS i, GD_DIRECT_LS i]⟩,
  ⟨"GD_FLT", 0x40060114, 2, 64, 1, 4, fun _ i _ => [GD_FLT_SHORT i, GD_FLT_TWO_LEG i, GD_FLT_DESAT_H i, GD_FLT_DESAT_L i, GD_FLT_HSHORT i, GD_FLT_BSUV i]⟩,
  ⟨"GD_CNT_SHORT", 0x40060118, 2, 64, 1, 4, fun _ i _ => [GD_CNT_SHORT_COUNT i]⟩,
  ⟨"GD_CNT_XLOCK", 0x4006011C, 2, 64, 1, 4, fun _ i _ => [GD_CNT_XLOCK_COUNT i]⟩,
  ⟨"GD_CNT_BSUV", 0x40060120, 2, 64, 1, 4, fun _ i _ => [GD_CNT_BSUV_COUNT i]⟩]

/-! ### AM (05_field_control.md Table 5.18; 05_field_control.md Table 5.19; 05_field_control.md Table 5.20) -/

def AM_CTRL_CAL : Fld := ⟨0x40070000, 31, 1, .w1s, 0, some 0, .any⟩
def AM_CTRL_CSA1 : Fld := ⟨0x40070000, 2, 2, .rw, 1, some 1, .any⟩
def AM_CTRL_CSA0 : Fld := ⟨0x40070000, 0, 2, .rw, 1, some 1, .any⟩
def AM_STAT_CAL_REFUSED : Fld := ⟨0x40070004, 31, 1, .w1c, 0, some 0, .any⟩
def AM_STAT_RANGE : Fld := ⟨0x40070004, 0, 8, .w1c, 0, some 0, .any⟩
def AM_CAL_OFFSET (ch : Nat) : Fld := ⟨0x40070100 + 4 * ch, 16, 12, .rw, (if ch = 3 ∨ ch = 7 then 0 else 0x800), none, .any⟩
def AM_CAL_GAIN (ch : Nat) : Fld := ⟨0x40070100 + 4 * ch, 0, 16, .rw, 16384, none, .any⟩
def AM_RAW_INSTANT (ch : Nat) : Fld := ⟨0x40070200 + 4 * ch, 16, 16, .ro, 0, some 0, .any⟩
def AM_RAW_CODE (ch : Nat) : Fld := ⟨0x40070200 + 4 * ch, 0, 12, .ro, 0, some 0, .any⟩

/-- The registers of AM. -/
def tabAM : List RegDef := [
  ⟨"AM_CTRL", 0x40070000, 1, 4, 1, 4, fun _ _ _ => [AM_CTRL_CAL, AM_CTRL_CSA1, AM_CTRL_CSA0]⟩,
  ⟨"AM_STAT", 0x40070004, 1, 4, 1, 4, fun _ _ _ => [AM_STAT_CAL_REFUSED, AM_STAT_RANGE]⟩,
  ⟨"AM_CAL", 0x40070100, 8, 4, 1, 4, fun _ i _ => [AM_CAL_OFFSET i, AM_CAL_GAIN i]⟩,
  ⟨"AM_RAW", 0x40070200, 8, 4, 1, 4, fun _ i _ => [AM_RAW_INSTANT i, AM_RAW_CODE i]⟩]

/-! ### XF (01_triplex.md Table 1.11; 01_triplex.md Table 1.12; 01_triplex.md Table 1.13; 01_triplex.md Table 1.14; 01_triplex.md Table 1.15; 01_triplex.md Table 1.16; 01_triplex.md Table 1.17; 01_triplex.md Table 1.18; 01_triplex.md Table 1.19; 01_triplex.md Table 1.20; 10_ferry.md Table 10.14; 10_ferry.md Table 10.15; 10_ferry.md Table 10.16; 10_ferry.md Table 10.17) -/

def XF_CTRL_LOCK : Fld := ⟨0x40080000, 31, 1, .w1s, 0, some 0, .any⟩
def XF_CTRL_WIN : Fld := ⟨0x40080000, 4, 8, .rwl, 4, some 4, .clamp 1 255⟩
def XF_CTRL_LAUNCH : Fld := ⟨0x40080000, 1, 1, .rw, 1, some 1, .any⟩
def XF_CTRL_EN : Fld := ⟨0x40080000, 0, 1, .rw, 0, some 0, .any⟩
def XF_STAT_HM : Fld := ⟨0x40080004, 30, 2, .ro, 3, some 3, .any⟩
def XF_STAT_SYNC : Fld := ⟨0x40080004, 29, 1, .ro, 0, some 0, .any⟩
def XF_STAT_LINKS : Fld := ⟨0x40080004, 26, 3, .ro, 0, some 0, .any⟩
def XF_STAT_WRAP0 : Fld := ⟨0x40080004, 25, 1, .ro, 0, some 0, .any⟩
def XF_STAT_WRAP1 : Fld := ⟨0x40080004, 24, 1, .ro, 0, some 0, .any⟩
def XF_STAT_RELIEF : Fld := ⟨0x40080004, 23, 1, .ro, 0, some 0, .any⟩
def XF_STAT_LAUNCHING : Fld := ⟨0x40080004, 22, 1, .ro, 0, some 0, .any⟩
def XF_STAT_READONLY : Fld := ⟨0x40080004, 21, 1, .ro, 0, some 0, .any⟩
def XF_LAND_SAILING : Fld := ⟨0x40080008, 0, 32, .ro, 0, some 0, .any⟩
def XF_ARR_ERR1 : Fld := ⟨0x4008000C, 16, 16, .ro, 0, some 0, .any⟩
def XF_ARR_ERR0 : Fld := ⟨0x4008000C, 0, 16, .ro, 0, some 0, .any⟩
def XF_MAN_VALID : Fld := ⟨0x40080010, 31, 1, .ro, 0, some 0, .any⟩
def XF_MAN_REASON : Fld := ⟨0x40080010, 8, 3, .ro, 0, some 0, .any⟩
def XF_MAN_ELEMS : Fld := ⟨0x40080010, 0, 8, .ro, 0, some 0, .any⟩
def XF_MAN_CRC_CRC : Fld := ⟨0x40080014, 0, 32, .ro, 0, some 0, .any⟩
def XF_COMMIT_IMPL : Fld := ⟨0x40080018, 8, 1, .wo, 0, some 0, .any⟩
def XF_COMMIT_ELEM : Fld := ⟨0x40080018, 0, 7, .wo, 0, some 0, .any⟩
def XF_CNT_LATE_COUNT : Fld := ⟨0x40080020, 0, 32, .ro, 0, none, .any⟩
def XF_CNT_ABSENT_COUNT : Fld := ⟨0x40080024, 0, 32, .ro, 0, none, .any⟩
def XF_CNT_CHECK_COUNT : Fld := ⟨0x40080028, 0, 32, .ro, 0, none, .any⟩
def XF_CNT_RELIEF_COUNT : Fld := ⟨0x4008002C, 0, 32, .ro, 0, none, .any⟩
def XF_CNT_WRAP_COUNT : Fld := ⟨0x40080030, 0, 32, .ro, 0, none, .any⟩
def XF_CNT_MANIF_COUNT : Fld := ⟨0x40080034, 0, 32, .ro, 0, none, .any⟩
def XF_MANIFEST_WORD (i : Nat) : Fld := ⟨0x40081000 + 4 * i, 0, 32, .rw, 0, some 0, .any⟩
def XF_EXP_WORD (w : Nat) : Fld := ⟨0x40082000 + 4 * w, 0, 32, .rw, 0, some 0, .any⟩
def XF_IMP_WORD (l : Nat) (w : Nat) : Fld := ⟨0x40082400 + 512 * l + 4 * w, 0, 32, .ro, 0, some 0, .any⟩
def XF_IMPS_IMPL (l : Nat) (e : Nat) : Fld := ⟨0x40083000 + 512 * l + 4 * e, 10, 1, .ro, 0, some 0, .any⟩
def XF_IMPS_DECODED (l : Nat) (e : Nat) : Fld := ⟨0x40083000 + 512 * l + 4 * e, 9, 1, .ro, 0, some 0, .any⟩
def XF_IMPS_PRESENT (l : Nat) (e : Nat) : Fld := ⟨0x40083000 + 512 * l + 4 * e, 8, 1, .ro, 0, some 0, .any⟩
def XF_IMPS_AGE (l : Nat) (e : Nat) : Fld := ⟨0x40083000 + 512 * l + 4 * e, 0, 8, .ro, 255, some 255, .any⟩
def XF_VCTRL_LOCK : Fld := ⟨0x40084000, 31, 1, .w1s, 0, some 0, .any⟩
def XF_VCTRL_REVERT : Fld := ⟨0x40084000, 8, 1, .rwl, 1, some 1, .any⟩
def XF_VCTRL_THIRD : Fld := ⟨0x40084000, 4, 2, .rwl, 2, some 2, .any⟩
def XF_VCTRL_SECOND : Fld := ⟨0x40084000, 2, 2, .rwl, 1, some 1, .any⟩
def XF_VCTRL_FIRST : Fld := ⟨0x40084000, 0, 2, .rwl, 0, some 0, .any⟩
def XF_VSTAT_CMD_LANE : Fld := ⟨0x40084004, 30, 2, .ro, 3, some 3, .any⟩
def XF_VSTAT_SELF_CMD : Fld := ⟨0x40084004, 29, 1, .ro, 0, some 0, .any⟩
def XF_VSTAT_CLAIM_CONFLICT : Fld := ⟨0x40084004, 28, 1, .ro, 0, some 0, .any⟩
def XF_VSTAT_QUAL_SET : Fld := ⟨0x40084004, 25, 3, .ro, 0, some 0, .any⟩
def XF_VSTAT_REACH_SET : Fld := ⟨0x40084004, 22, 3, .ro, 0, some 0, .any⟩
def XF_VSTAT_ALIVE_SET : Fld := ⟨0x40084004, 19, 3, .ro, 0, some 0, .any⟩
def XF_VSTAT_DRIVE_SET1 : Fld := ⟨0x40084004, 16, 3, .ro, 0, some 0, .any⟩
def XF_VSTAT_DRIVE_SET0 : Fld := ⟨0x40084004, 13, 3, .ro, 0, some 0, .any⟩
def XF_VSTAT_IN_STEP : Fld := ⟨0x40084004, 12, 1, .ro, 0, some 0, .any⟩
def XF_VSTAT_QUALIFIED : Fld := ⟨0x40084004, 11, 1, .ro, 0, some 0, .any⟩
def XF_VSTAT_ADVISORY : Fld := ⟨0x40084004, 10, 1, .ro, 0, some 0, .any⟩
def XF_VSTAT_UNRESOLVED : Fld := ⟨0x40084004, 9, 1, .ro, 0, some 0, .any⟩
def XF_VSTAT_ISOLATED : Fld := ⟨0x40084004, 8, 1, .ro, 0, some 0, .any⟩
def XF_REJOIN_ACTIVE : Fld := ⟨0x40084008, 31, 1, .ro, 0, some 1, .any⟩
def XF_REJOIN_STAGE : Fld := ⟨0x40084008, 28, 3, .ro, 0, some 1, .any⟩
def XF_REJOIN_COUNT : Fld := ⟨0x40084008, 0, 12, .ro, 0, some 0, .any⟩
def XF_SHARE_W_W_C : Fld := ⟨0x4008400C, 16, 8, .rwl, 1, some 1, .any⟩
def XF_SHARE_W_W_B : Fld := ⟨0x4008400C, 8, 8, .rwl, 1, some 1, .any⟩
def XF_SHARE_W_W_A : Fld := ⟨0x4008400C, 0, 8, .rwl, 1, some 1, .any⟩
def XF_SHARE_OUT_SHARE (b : Nat) : Fld := ⟨0x40084010 + 4 * b, 0, 32, .ro, 0, some 0, .any⟩
def XF_BOOST_ACTIVE1 : Fld := ⟨0x40084018, 31, 1, .ro, 0, some 0, .any⟩
def XF_BOOST_BUDGET1 : Fld := ⟨0x40084018, 16, 11, .ro, 2000, some 2000, .any⟩
def XF_BOOST_ACTIVE0 : Fld := ⟨0x40084018, 15, 1, .ro, 0, some 0, .any⟩
def XF_BOOST_BUDGET0 : Fld := ⟨0x40084018, 0, 11, .ro, 2000, some 2000, .any⟩
def XF_DIGEST_DIGEST : Fld := ⟨0x4008401C, 0, 32, .ro, 0, some 0, .any⟩
def XF_AGR_CFG_PERSIST : Fld := ⟨0x40084020, 16, 8, .rwl, 8, some 8, .clamp 1 255⟩
def XF_AGR_CFG_N_IN : Fld := ⟨0x40084020, 0, 5, .rwl, 0, some 0, .clamp 0 16⟩
def XF_AGR_TOL_TOL (i : Nat) : Fld := ⟨0x40084040 + 4 * i, 0, 32, .rwl, 0, some 0, .any⟩
def XF_CNT_SWITCH_COUNT : Fld := ⟨0x40084080, 0, 32, .ro, 0, none, .any⟩
def XF_CNT_OUTVOTE_COUNT : Fld := ⟨0x40084084, 0, 32, .ro, 0, none, .any⟩
def XF_CNT_SPLIT_COUNT : Fld := ⟨0x40084088, 0, 32, .ro, 0, none, .any⟩
def XF_CNT_EXCL_COUNT : Fld := ⟨0x4008408C, 0, 32, .ro, 0, none, .any⟩
def XF_IMPORT_EN (i : Nat) : Fld := ⟨0x40084090 + 4 * i, 31, 1, .rwl, 0, some 0, .any⟩
def XF_IMPORT_COUNT (i : Nat) : Fld := ⟨0x40084090 + 4 * i, 12, 7, .rwl, 0, some 0, .any⟩
def XF_IMPORT_BASE (i : Nat) : Fld := ⟨0x40084090 + 4 * i, 0, 12, .rwl, 0, some 0, .any⟩

/-- Part of the registers of XF. -/
def tabXFa : List RegDef := [
  ⟨"XF_CTRL", 0x40080000, 1, 4, 1, 4, fun _ _ _ => [XF_CTRL_LOCK, XF_CTRL_WIN, XF_CTRL_LAUNCH, XF_CTRL_EN]⟩,
  ⟨"XF_STAT", 0x40080004, 1, 4, 1, 4, fun _ _ _ => [XF_STAT_HM, XF_STAT_SYNC, XF_STAT_LINKS, XF_STAT_WRAP0, XF_STAT_WRAP1, XF_STAT_RELIEF, XF_STAT_LAUNCHING, XF_STAT_READONLY]⟩,
  ⟨"XF_LAND", 0x40080008, 1, 4, 1, 4, fun _ _ _ => [XF_LAND_SAILING]⟩,
  ⟨"XF_ARR", 0x4008000C, 1, 4, 1, 4, fun _ _ _ => [XF_ARR_ERR1, XF_ARR_ERR0]⟩,
  ⟨"XF_MAN", 0x40080010, 1, 4, 1, 4, fun _ _ _ => [XF_MAN_VALID, XF_MAN_REASON, XF_MAN_ELEMS]⟩,
  ⟨"XF_MAN_CRC", 0x40080014, 1, 4, 1, 4, fun _ _ _ => [XF_MAN_CRC_CRC]⟩,
  ⟨"XF_COMMIT", 0x40080018, 1, 4, 1, 4, fun _ _ _ => [XF_COMMIT_IMPL, XF_COMMIT_ELEM]⟩,
  ⟨"XF_CNT_LATE", 0x40080020, 1, 4, 1, 4, fun _ _ _ => [XF_CNT_LATE_COUNT]⟩,
  ⟨"XF_CNT_ABSENT", 0x40080024, 1, 4, 1, 4, fun _ _ _ => [XF_CNT_ABSENT_COUNT]⟩,
  ⟨"XF_CNT_CHECK", 0x40080028, 1, 4, 1, 4, fun _ _ _ => [XF_CNT_CHECK_COUNT]⟩,
  ⟨"XF_CNT_RELIEF", 0x4008002C, 1, 4, 1, 4, fun _ _ _ => [XF_CNT_RELIEF_COUNT]⟩,
  ⟨"XF_CNT_WRAP", 0x40080030, 1, 4, 1, 4, fun _ _ _ => [XF_CNT_WRAP_COUNT]⟩]

/-- Part of the registers of XF. -/
def tabXFb : List RegDef := [
  ⟨"XF_CNT_MANIF", 0x40080034, 1, 4, 1, 4, fun _ _ _ => [XF_CNT_MANIF_COUNT]⟩,
  ⟨"XF_MANIFEST", 0x40081000, 256, 4, 1, 4, fun _ i _ => [XF_MANIFEST_WORD i]⟩,
  ⟨"XF_EXP", 0x40082000, 128, 4, 1, 4, fun _ i _ => [XF_EXP_WORD i]⟩,
  ⟨"XF_IMP", 0x40082400, 3, 512, 128, 4, fun _ i j => [XF_IMP_WORD i j]⟩,
  ⟨"XF_IMPS", 0x40083000, 3, 512, 128, 4, fun _ i j => [XF_IMPS_IMPL i j, XF_IMPS_DECODED i j, XF_IMPS_PRESENT i j, XF_IMPS_AGE i j]⟩,
  ⟨"XF_VCTRL", 0x40084000, 1, 4, 1, 4, fun _ _ _ => [XF_VCTRL_LOCK, XF_VCTRL_REVERT, XF_VCTRL_THIRD, XF_VCTRL_SECOND, XF_VCTRL_FIRST]⟩,
  ⟨"XF_VSTAT", 0x40084004, 1, 4, 1, 4, fun _ _ _ => [XF_VSTAT_CMD_LANE, XF_VSTAT_SELF_CMD, XF_VSTAT_CLAIM_CONFLICT, XF_VSTAT_QUAL_SET, XF_VSTAT_REACH_SET, XF_VSTAT_ALIVE_SET, XF_VSTAT_DRIVE_SET1, XF_VSTAT_DRIVE_SET0, XF_VSTAT_IN_STEP, XF_VSTAT_QUALIFIED, XF_VSTAT_ADVISORY, XF_VSTAT_UNRESOLVED, XF_VSTAT_ISOLATED]⟩,
  ⟨"XF_REJOIN", 0x40084008, 1, 4, 1, 4, fun _ _ _ => [XF_REJOIN_ACTIVE, XF_REJOIN_STAGE, XF_REJOIN_COUNT]⟩,
  ⟨"XF_SHARE_W", 0x4008400C, 1, 4, 1, 4, fun _ _ _ => [XF_SHARE_W_W_C, XF_SHARE_W_W_B, XF_SHARE_W_W_A]⟩,
  ⟨"XF_SHARE_OUT", 0x40084010, 2, 4, 1, 4, fun _ i _ => [XF_SHARE_OUT_SHARE i]⟩,
  ⟨"XF_BOOST", 0x40084018, 1, 4, 1, 4, fun _ _ _ => [XF_BOOST_ACTIVE1, XF_BOOST_BUDGET1, XF_BOOST_ACTIVE0, XF_BOOST_BUDGET0]⟩,
  ⟨"XF_DIGEST", 0x4008401C, 1, 4, 1, 4, fun _ _ _ => [XF_DIGEST_DIGEST]⟩]

/-- Part of the registers of XF. -/
def tabXFc : List RegDef := [
  ⟨"XF_AGR_CFG", 0x40084020, 1, 4, 1, 4, fun _ _ _ => [XF_AGR_CFG_PERSIST, XF_AGR_CFG_N_IN]⟩,
  ⟨"XF_AGR_TOL", 0x40084040, 16, 4, 1, 4, fun _ i _ => [XF_AGR_TOL_TOL i]⟩,
  ⟨"XF_CNT_SWITCH", 0x40084080, 1, 4, 1, 4, fun _ _ _ => [XF_CNT_SWITCH_COUNT]⟩,
  ⟨"XF_CNT_OUTVOTE", 0x40084084, 1, 4, 1, 4, fun _ _ _ => [XF_CNT_OUTVOTE_COUNT]⟩,
  ⟨"XF_CNT_SPLIT", 0x40084088, 1, 4, 1, 4, fun _ _ _ => [XF_CNT_SPLIT_COUNT]⟩,
  ⟨"XF_CNT_EXCL", 0x4008408C, 1, 4, 1, 4, fun _ _ _ => [XF_CNT_EXCL_COUNT]⟩,
  ⟨"XF_IMPORT", 0x40084090, 8, 4, 1, 4, fun _ i _ => [XF_IMPORT_EN i, XF_IMPORT_COUNT i, XF_IMPORT_BASE i]⟩]

/-- The registers of XF. -/
def tabXF : List RegDef := tabXFa ++ tabXFb ++ tabXFc

/-! ### VF (10_ferry.md Table 10.17; 10_ferry.md Table 10.18; 10_ferry.md Table 10.19; 10_ferry.md Table 10.20; 10_ferry.md Table 10.21) -/

def VF_CTRL_LOCK : Fld := ⟨0x40090000, 31, 1, .w1s, 0, some 0, .any⟩
def VF_CTRL_EN : Fld := ⟨0x40090000, 30, 1, .rw, 0, some 0, .any⟩
def VF_CTRL_LAUNCH : Fld := ⟨0x40090000, 29, 1, .rw, 1, some 1, .any⟩
def VF_CTRL_MCAST : Fld := ⟨0x40090000, 28, 1, .rw, 0, some 0, .any⟩
def VF_CTRL_NODE : Fld := ⟨0x40090000, 24, 4, .rwl, 0, some 0, .any⟩
def VF_CTRL_LTMO : Fld := ⟨0x40090000, 20, 4, .rwl, 4, some 4, .clamp 2 15⟩
def VF_CTRL_WIN : Fld := ⟨0x40090000, 12, 8, .rwl, 100, some 100, .clamp 1 255⟩
def VF_STAT_HM : Fld := ⟨0x40090004, 28, 4, .ro, 0, some 0, .any⟩
def VF_STAT_HM_VALID : Fld := ⟨0x40090004, 27, 1, .ro, 0, some 0, .any⟩
def VF_STAT_SELF_HM : Fld := ⟨0x40090004, 26, 1, .ro, 0, some 0, .any⟩
def VF_STAT_LINK1 : Fld := ⟨0x40090004, 25, 1, .ro, 0, some 0, .any⟩
def VF_STAT_LINK0 : Fld := ⟨0x40090004, 24, 1, .ro, 0, some 0, .any⟩
def VF_STAT_READONLY : Fld := ⟨0x40090004, 23, 1, .ro, 0, some 0, .any⟩
def VF_STAT_ERR : Fld := ⟨0x40090004, 0, 16, .ro, 0, some 0, .any⟩
def VF_DA_HI_DA : Fld := ⟨0x40090008, 0, 16, .rwl, 768, some 768, .any⟩
def VF_DA_LO_DA : Fld := ⟨0x4009000C, 0, 32, .rwl, 1525678080, some 1525678080, .any⟩
def VF_MAC_HI_MAC : Fld := ⟨0x40090010, 0, 16, .rwl, 0, some 0, .any⟩
def VF_MAC_LO_MAC : Fld := ⟨0x40090014, 0, 32, .rwl, 0, some 0, .any⟩
def VF_GUARD_GUARD : Fld := ⟨0x40090018, 0, 16, .rwl, 1300, some 1300, .clamp 1250 65535⟩
def VF_LAND_SAILING : Fld := ⟨0x4009001C, 0, 32, .ro, 0, some 0, .any⟩
def VF_MAN_VALID : Fld := ⟨0x40090020, 31, 1, .ro, 0, some 0, .any⟩
def VF_MAN_REASON : Fld := ⟨0x40090020, 8, 3, .ro, 0, some 0, .any⟩
def VF_MAN_ELEMS : Fld := ⟨0x40090020, 0, 8, .ro, 0, some 0, .any⟩
def VF_MAN_CRC_CRC : Fld := ⟨0x40090024, 0, 32, .ro, 0, some 0, .any⟩
def VF_COMMIT_IMPL : Fld := ⟨0x40090028, 8, 1, .wo, 0, some 0, .any⟩
def VF_COMMIT_ELEM : Fld := ⟨0x40090028, 0, 7, .wo, 0, some 0, .any⟩
def VF_RXB_BASE (p : Nat) : Fld := ⟨0x40090040 + 16 * p, 12, 20, .rw, 0, some 0, .any⟩
def VF_RXB_SIZE (p : Nat) : Fld := ⟨0x40090040 + 16 * p, 0, 4, .rw, 0, some 0, .clamp 0 6⟩
def VF_RXW_WR (p : Nat) : Fld := ⟨0x40090044 + 16 * p, 0, 18, .ro, 0, some 0, .any⟩
def VF_RXR_RD (p : Nat) : Fld := ⟨0x40090048 + 16 * p, 0, 18, .rw, 0, some 0, .any⟩
def VF_TXC_ADDR (p : Nat) : Fld := ⟨0x4009004C + 16 * p, 11, 21, .wo, 0, some 0, .any⟩
def VF_TXC_LEN (p : Nat) : Fld := ⟨0x4009004C + 16 * p, 0, 11, .wo, 0, some 0, .any⟩
def VF_CNT_LATE_COUNT : Fld := ⟨0x40090080, 0, 32, .ro, 0, none, .any⟩
def VF_CNT_ABSENT_COUNT : Fld := ⟨0x40090084, 0, 32, .ro, 0, none, .any⟩
def VF_CNT_CHECK_COUNT : Fld := ⟨0x40090088, 0, 32, .ro, 0, none, .any⟩
def VF_CNT_LAUNCH_COUNT : Fld := ⟨0x4009008C, 0, 32, .ro, 0, none, .any⟩
def VF_CNT_DROP_COUNT : Fld := ⟨0x40090090, 0, 32, .ro, 0, none, .any⟩
def VF_CNT_DELAY_COUNT : Fld := ⟨0x40090094, 0, 32, .ro, 0, none, .any⟩
def VF_CNT_MANIF_COUNT : Fld := ⟨0x40090098, 0, 32, .ro, 0, none, .any⟩
def VF_MANIFEST_WORD (i : Nat) : Fld := ⟨0x40091000 + 4 * i, 0, 32, .rw, 0, some 0, .any⟩
def VF_EXP_WORD (w : Nat) : Fld := ⟨0x40092000 + 4 * w, 0, 32, .rw, 0, some 0, .any⟩
def VF_IMP_WORD (w : Nat) : Fld := ⟨0x40094000 + 4 * w, 0, 32, .ro, 0, some 0, .any⟩
def VF_IMPS_IMPL (e : Nat) : Fld := ⟨0x40095000 + 4 * e, 10, 1, .ro, 0, some 0, .any⟩
def VF_IMPS_DECODED (e : Nat) : Fld := ⟨0x40095000 + 4 * e, 9, 1, .ro, 0, some 0, .any⟩
def VF_IMPS_PRESENT (e : Nat) : Fld := ⟨0x40095000 + 4 * e, 8, 1, .ro, 0, some 0, .any⟩
def VF_IMPS_AGE (e : Nat) : Fld := ⟨0x40095000 + 4 * e, 0, 8, .ro, 255, some 255, .any⟩

/-- Part of the registers of VF. -/
def tabVFa : List RegDef := [
  ⟨"VF_CTRL", 0x40090000, 1, 4, 1, 4, fun _ _ _ => [VF_CTRL_LOCK, VF_CTRL_EN, VF_CTRL_LAUNCH, VF_CTRL_MCAST, VF_CTRL_NODE, VF_CTRL_LTMO, VF_CTRL_WIN]⟩,
  ⟨"VF_STAT", 0x40090004, 1, 4, 1, 4, fun _ _ _ => [VF_STAT_HM, VF_STAT_HM_VALID, VF_STAT_SELF_HM, VF_STAT_LINK1, VF_STAT_LINK0, VF_STAT_READONLY, VF_STAT_ERR]⟩,
  ⟨"VF_DA_HI", 0x40090008, 1, 4, 1, 4, fun _ _ _ => [VF_DA_HI_DA]⟩,
  ⟨"VF_DA_LO", 0x4009000C, 1, 4, 1, 4, fun _ _ _ => [VF_DA_LO_DA]⟩,
  ⟨"VF_MAC_HI", 0x40090010, 1, 4, 1, 4, fun _ _ _ => [VF_MAC_HI_MAC]⟩,
  ⟨"VF_MAC_LO", 0x40090014, 1, 4, 1, 4, fun _ _ _ => [VF_MAC_LO_MAC]⟩,
  ⟨"VF_GUARD", 0x40090018, 1, 4, 1, 4, fun _ _ _ => [VF_GUARD_GUARD]⟩,
  ⟨"VF_LAND", 0x4009001C, 1, 4, 1, 4, fun _ _ _ => [VF_LAND_SAILING]⟩,
  ⟨"VF_MAN", 0x40090020, 1, 4, 1, 4, fun _ _ _ => [VF_MAN_VALID, VF_MAN_REASON, VF_MAN_ELEMS]⟩,
  ⟨"VF_MAN_CRC", 0x40090024, 1, 4, 1, 4, fun _ _ _ => [VF_MAN_CRC_CRC]⟩,
  ⟨"VF_COMMIT", 0x40090028, 1, 4, 1, 4, fun _ _ _ => [VF_COMMIT_IMPL, VF_COMMIT_ELEM]⟩,
  ⟨"VF_RXB", 0x40090040, 2, 16, 1, 4, fun _ i _ => [VF_RXB_BASE i, VF_RXB_SIZE i]⟩]

/-- Part of the registers of VF. -/
def tabVFb : List RegDef := [
  ⟨"VF_RXW", 0x40090044, 2, 16, 1, 4, fun _ i _ => [VF_RXW_WR i]⟩,
  ⟨"VF_RXR", 0x40090048, 2, 16, 1, 4, fun _ i _ => [VF_RXR_RD i]⟩,
  ⟨"VF_TXC", 0x4009004C, 2, 16, 1, 4, fun _ i _ => [VF_TXC_ADDR i, VF_TXC_LEN i]⟩,
  ⟨"VF_CNT_LATE", 0x40090080, 1, 4, 1, 4, fun _ _ _ => [VF_CNT_LATE_COUNT]⟩,
  ⟨"VF_CNT_ABSENT", 0x40090084, 1, 4, 1, 4, fun _ _ _ => [VF_CNT_ABSENT_COUNT]⟩,
  ⟨"VF_CNT_CHECK", 0x40090088, 1, 4, 1, 4, fun _ _ _ => [VF_CNT_CHECK_COUNT]⟩,
  ⟨"VF_CNT_LAUNCH", 0x4009008C, 1, 4, 1, 4, fun _ _ _ => [VF_CNT_LAUNCH_COUNT]⟩,
  ⟨"VF_CNT_DROP", 0x40090090, 1, 4, 1, 4, fun _ _ _ => [VF_CNT_DROP_COUNT]⟩,
  ⟨"VF_CNT_DELAY", 0x40090094, 1, 4, 1, 4, fun _ _ _ => [VF_CNT_DELAY_COUNT]⟩,
  ⟨"VF_CNT_MANIF", 0x40090098, 1, 4, 1, 4, fun _ _ _ => [VF_CNT_MANIF_COUNT]⟩,
  ⟨"VF_MANIFEST", 0x40091000, 1024, 4, 1, 4, fun _ i _ => [VF_MANIFEST_WORD i]⟩,
  ⟨"VF_EXP", 0x40092000, 128, 4, 1, 4, fun _ i _ => [VF_EXP_WORD i]⟩]

/-- Part of the registers of VF. -/
def tabVFc : List RegDef := [
  ⟨"VF_IMP", 0x40094000, 768, 4, 1, 4, fun _ i _ => [VF_IMP_WORD i]⟩,
  ⟨"VF_IMPS", 0x40095000, 128, 4, 1, 4, fun _ i _ => [VF_IMPS_IMPL i, VF_IMPS_DECODED i, VF_IMPS_PRESENT i, VF_IMPS_AGE i]⟩]

/-- The registers of VF. -/
def tabVF : List RegDef := tabVFa ++ tabVFb ++ tabVFc

/-! ### TB (11_network_time.md Table 11.4; 11_network_time.md Table 11.5; 11_network_time.md Table 11.6; 11_network_time.md Table 11.7; 11_network_time.md Table 11.8; 11_network_time.md Table 11.9) -/

def TB_CTRL_LOCK : Fld := ⟨0x400A0000, 31, 1, .w1s, 0, some 0, .any⟩
def TB_CTRL_RESYNC : Fld := ⟨0x400A0000, 30, 1, .w1s, 0, some 0, .any⟩
def TB_CTRL_REVERT : Fld := ⟨0x400A0000, 16, 1, .rwl, 1, some 1, .any⟩
def TB_CTRL_PRI : Fld := ⟨0x400A0000, 15, 1, .rwl, 0, some 0, .any⟩
def TB_CTRL_SLEW : Fld := ⟨0x400A0000, 8, 7, .rwl, 50, some 50, .clamp 1 50⟩
def TB_CTRL_QUAL : Fld := ⟨0x400A0000, 0, 8, .rwl, 10, some 10, .clamp 1 255⟩
def TB_STAT_VALID : Fld := ⟨0x400A0004, 31, 1, .ro, 0, some 0, .any⟩
def TB_STAT_SRC : Fld := ⟨0x400A0004, 30, 1, .ro, 0, some 0, .any⟩
def TB_STAT_HOLD : Fld := ⟨0x400A0004, 29, 1, .ro, 0, some 0, .any⟩
def TB_STAT_SLEWING : Fld := ⟨0x400A0004, 28, 1, .ro, 0, some 0, .any⟩
def TB_STAT_D1_STATE : Fld := ⟨0x400A0004, 26, 2, .ro, 0, some 0, .any⟩
def TB_STAT_D0_STATE : Fld := ⟨0x400A0004, 24, 2, .ro, 0, some 0, .any⟩
def TB_LOCAL_LO_WORD : Fld := ⟨0x400A0008, 0, 32, .ro, 0, some 0, .any⟩
def TB_LOCAL_HI_WORD : Fld := ⟨0x400A000C, 0, 32, .ro, 0, some 0, .any⟩
def TB_FERRY_LO_WORD : Fld := ⟨0x400A0010, 0, 32, .ro, 0, some 0, .any⟩
def TB_FERRY_HI_WORD : Fld := ⟨0x400A0014, 0, 32, .ro, 0, some 0, .any⟩
def TB_VEH_LO_WORD : Fld := ⟨0x400A0018, 0, 32, .ro, 0, some 0, .any⟩
def TB_VEH_HI_WORD : Fld := ⟨0x400A001C, 0, 32, .ro, 0, some 0, .any⟩
def TB_SNAP_GO : Fld := ⟨0x400A0020, 31, 1, .w1s, 0, some 0, .any⟩
def TB_SNAP_VAL_WORD (i : Nat) : Fld := ⟨0x400A0028 + 4 * i, 0, 32, .ro, 0, some 0, .any⟩
def TB_CNT_SWITCH_COUNT : Fld := ⟨0x400A0060, 0, 32, .ro, 0, none, .any⟩
def TB_CNT_STEP_COUNT : Fld := ⟨0x400A0064, 0, 32, .ro, 0, none, .any⟩
def TB_CNT_DISC_COUNT : Fld := ⟨0x400A0068, 0, 32, .ro, 0, none, .any⟩
def TB_DOM_CFG_EN (d : Nat) : Fld := ⟨0x400A0100 + 32 * d, 31, 1, .rwl, 1, some 1, .any⟩
def TB_DOM_CFG_EXT (d : Nat) : Fld := ⟨0x400A0100 + 32 * d, 30, 1, .rwl, 0, some 0, .any⟩
def TB_DOM_CFG_SLAVE (d : Nat) : Fld := ⟨0x400A0100 + 32 * d, 29, 1, .rwl, 0, some 0, .any⟩
def TB_DOM_CFG_LOGSYNC (d : Nat) : Fld := ⟨0x400A0100 + 32 * d, 24, 4, .rwl, 13, some 13, .any⟩
def TB_DOM_CFG_SRTO (d : Nat) : Fld := ⟨0x400A0100 + 32 * d, 20, 4, .rwl, 3, some 3, .clamp 2 15⟩
def TB_DOM_CFG_STEP_TH (d : Nat) : Fld := ⟨0x400A0100 + 32 * d, 8, 12, .rwl, 10, some 10, .clamp 1 4095⟩
def TB_DOM_CFG_DOMAIN (d : Nat) : Fld := ⟨0x400A0100 + 32 * d, 0, 7, .rwl, (if d = 0 then 0 else 20), some (if d = 0 then 0 else 20), .any⟩
def TB_DOM_STAT_STATE (d : Nat) : Fld := ⟨0x400A0104 + 32 * d, 30, 2, .ro, 0, some 0, .any⟩
def TB_DOM_STAT_GMCHG (d : Nat) : Fld := ⟨0x400A0104 + 32 * d, 29, 1, .w1c, 0, some 0, .any⟩
def TB_DOM_STAT_SLAVE_PORT (d : Nat) : Fld := ⟨0x400A0104 + 32 * d, 28, 1, .ro, 0, some 0, .any⟩
def TB_DOM_STAT_HOPS (d : Nat) : Fld := ⟨0x400A0104 + 32 * d, 0, 8, .ro, 0, some 0, .any⟩
def TB_DOM_GM_HI_GM (d : Nat) : Fld := ⟨0x400A0108 + 32 * d, 0, 32, .ro, 0, some 0, .any⟩
def TB_DOM_GM_LO_GM (d : Nat) : Fld := ⟨0x400A010C + 32 * d, 0, 32, .ro, 0, some 0, .any⟩
def TB_DOM_OFS_OFS (d : Nat) : Fld := ⟨0x400A0110 + 32 * d, 0, 32, .ro, 0, some 0, .any⟩
def TB_DOM_RR_RR (d : Nat) : Fld := ⟨0x400A0114 + 32 * d, 0, 32, .ro, 0, some 0, .any⟩
def TB_PORT_CFG_TXDLY (p : Nat) : Fld := ⟨0x400A0200 + 16 * p, 16, 16, .rwl, 0, some 0, .any⟩
def TB_PORT_CFG_RXDLY (p : Nat) : Fld := ⟨0x400A0200 + 16 * p, 0, 16, .rwl, 0, some 0, .any⟩
def TB_PORT_ASYM_LOGPDELAY (p : Nat) : Fld := ⟨0x400A0204 + 16 * p, 28, 4, .rwl, 0, some 0, .any⟩
def TB_PORT_ASYM_THRESH (p : Nat) : Fld := ⟨0x400A0204 + 16 * p, 16, 8, .rwl, 80, some 80, .clamp 1 255⟩
def TB_PORT_ASYM_ASYM (p : Nat) : Fld := ⟨0x400A0204 + 16 * p, 0, 16, .rwl, 0, some 0, .any⟩
def TB_PORT_STAT_ASCAP (p : Nat) : Fld := ⟨0x400A0208 + 16 * p, 31, 1, .ro, 0, some 0, .any⟩
def TB_PORT_STAT_MLD (p : Nat) : Fld := ⟨0x400A0208 + 16 * p, 0, 24, .ro, 0, some 0, .any⟩
def TB_PORT_NRR_NRR (p : Nat) : Fld := ⟨0x400A020C + 16 * p, 0, 32, .ro, 0, some 0, .any⟩
def TB_CMP_CFG_EN (c : Nat) : Fld := ⟨0x400A0400 + 16 * c, 31, 1, .rw, 0, some 0, .any⟩
def TB_CMP_CFG_BASE (c : Nat) : Fld := ⟨0x400A0400 + 16 * c, 28, 3, .rw, 0, some 0, .any⟩
def TB_CMP_CFG_MISSED (c : Nat) : Fld := ⟨0x400A0400 + 16 * c, 0, 16, .ro, 0, some 0, .any⟩
def TB_CMP_LO_TIME (c : Nat) : Fld := ⟨0x400A0404 + 16 * c, 0, 32, .rw, 0, some 0, .any⟩
def TB_CMP_HI_TIME (c : Nat) : Fld := ⟨0x400A0408 + 16 * c, 0, 32, .rw, 0, some 0, .any⟩
def TB_CMP_PER_PERIOD (c : Nat) : Fld := ⟨0x400A040C + 16 * c, 0, 32, .rw, 0, some 0, .any⟩

/-- Part of the registers of TB. -/
def tabTBa : List RegDef := [
  ⟨"TB_CTRL", 0x400A0000, 1, 4, 1, 4, fun _ _ _ => [TB_CTRL_LOCK, TB_CTRL_RESYNC, TB_CTRL_REVERT, TB_CTRL_PRI, TB_CTRL_SLEW, TB_CTRL_QUAL]⟩,
  ⟨"TB_STAT", 0x400A0004, 1, 4, 1, 4, fun _ _ _ => [TB_STAT_VALID, TB_STAT_SRC, TB_STAT_HOLD, TB_STAT_SLEWING, TB_STAT_D1_STATE, TB_STAT_D0_STATE]⟩,
  ⟨"TB_LOCAL_LO", 0x400A0008, 1, 4, 1, 4, fun _ _ _ => [TB_LOCAL_LO_WORD]⟩,
  ⟨"TB_LOCAL_HI", 0x400A000C, 1, 4, 1, 4, fun _ _ _ => [TB_LOCAL_HI_WORD]⟩,
  ⟨"TB_FERRY_LO", 0x400A0010, 1, 4, 1, 4, fun _ _ _ => [TB_FERRY_LO_WORD]⟩,
  ⟨"TB_FERRY_HI", 0x400A0014, 1, 4, 1, 4, fun _ _ _ => [TB_FERRY_HI_WORD]⟩,
  ⟨"TB_VEH_LO", 0x400A0018, 1, 4, 1, 4, fun _ _ _ => [TB_VEH_LO_WORD]⟩,
  ⟨"TB_VEH_HI", 0x400A001C, 1, 4, 1, 4, fun _ _ _ => [TB_VEH_HI_WORD]⟩,
  ⟨"TB_SNAP", 0x400A0020, 1, 4, 1, 4, fun _ _ _ => [TB_SNAP_GO]⟩,
  ⟨"TB_SNAP_VAL", 0x400A0028, 10, 4, 1, 4, fun _ i _ => [TB_SNAP_VAL_WORD i]⟩,
  ⟨"TB_CNT_SWITCH", 0x400A0060, 1, 4, 1, 4, fun _ _ _ => [TB_CNT_SWITCH_COUNT]⟩,
  ⟨"TB_CNT_STEP", 0x400A0064, 1, 4, 1, 4, fun _ _ _ => [TB_CNT_STEP_COUNT]⟩]

/-- Part of the registers of TB. -/
def tabTBb : List RegDef := [
  ⟨"TB_CNT_DISC", 0x400A0068, 1, 4, 1, 4, fun _ _ _ => [TB_CNT_DISC_COUNT]⟩,
  ⟨"TB_DOM_CFG", 0x400A0100, 2, 32, 1, 4, fun _ i _ => [TB_DOM_CFG_EN i, TB_DOM_CFG_EXT i, TB_DOM_CFG_SLAVE i, TB_DOM_CFG_LOGSYNC i, TB_DOM_CFG_SRTO i, TB_DOM_CFG_STEP_TH i, TB_DOM_CFG_DOMAIN i]⟩,
  ⟨"TB_DOM_STAT", 0x400A0104, 2, 32, 1, 4, fun _ i _ => [TB_DOM_STAT_STATE i, TB_DOM_STAT_GMCHG i, TB_DOM_STAT_SLAVE_PORT i, TB_DOM_STAT_HOPS i]⟩,
  ⟨"TB_DOM_GM_HI", 0x400A0108, 2, 32, 1, 4, fun _ i _ => [TB_DOM_GM_HI_GM i]⟩,
  ⟨"TB_DOM_GM_LO", 0x400A010C, 2, 32, 1, 4, fun _ i _ => [TB_DOM_GM_LO_GM i]⟩,
  ⟨"TB_DOM_OFS", 0x400A0110, 2, 32, 1, 4, fun _ i _ => [TB_DOM_OFS_OFS i]⟩,
  ⟨"TB_DOM_RR", 0x400A0114, 2, 32, 1, 4, fun _ i _ => [TB_DOM_RR_RR i]⟩,
  ⟨"TB_PORT_CFG", 0x400A0200, 2, 16, 1, 4, fun _ i _ => [TB_PORT_CFG_TXDLY i, TB_PORT_CFG_RXDLY i]⟩,
  ⟨"TB_PORT_ASYM", 0x400A0204, 2, 16, 1, 4, fun _ i _ => [TB_PORT_ASYM_LOGPDELAY i, TB_PORT_ASYM_THRESH i, TB_PORT_ASYM_ASYM i]⟩,
  ⟨"TB_PORT_STAT", 0x400A0208, 2, 16, 1, 4, fun _ i _ => [TB_PORT_STAT_ASCAP i, TB_PORT_STAT_MLD i]⟩,
  ⟨"TB_PORT_NRR", 0x400A020C, 2, 16, 1, 4, fun _ i _ => [TB_PORT_NRR_NRR i]⟩,
  ⟨"TB_CMP_CFG", 0x400A0400, 16, 16, 1, 4, fun _ i _ => [TB_CMP_CFG_EN i, TB_CMP_CFG_BASE i, TB_CMP_CFG_MISSED i]⟩]

/-- Part of the registers of TB. -/
def tabTBc : List RegDef := [
  ⟨"TB_CMP_LO", 0x400A0404, 16, 16, 1, 4, fun _ i _ => [TB_CMP_LO_TIME i]⟩,
  ⟨"TB_CMP_HI", 0x400A0408, 16, 16, 1, 4, fun _ i _ => [TB_CMP_HI_TIME i]⟩,
  ⟨"TB_CMP_PER", 0x400A040C, 16, 16, 1, 4, fun _ i _ => [TB_CMP_PER_PERIOD i]⟩]

/-- The registers of TB. -/
def tabTB : List RegDef := tabTBa ++ tabTBb ++ tabTBc

/-! ### SM (12_safety.md Table 12.10; 12_safety.md Table 12.11; 12_safety.md Table 12.12; 12_safety.md Table 12.9) -/

def SM_CTRL_LOCK : Fld := ⟨0x400B0000, 31, 1, .w1s, 0, some 0, .any⟩
def SM_STAT_TOFF : Fld := ⟨0x400B0004, 31, 1, .ro, 0, some 0, .any⟩
def SM_STAT_INTFLT : Fld := ⟨0x400B0004, 30, 1, .ro, 0, some 0, .any⟩
def SM_STAT_FUSED : Fld := ⟨0x400B0004, 29, 1, .ro, 0, some 0, .any⟩
def SM_STAT_VIOL : Fld := ⟨0x400B0004, 23, 6, .ro, 0, some 0, .any⟩
def SM_STAT_RESTR : Fld := ⟨0x400B0004, 19, 4, .ro, 0, some 0, .any⟩
def SM_CMD_STOP : Fld := ⟨0x400B0008, 31, 1, .w1s, 0, some 0, .any⟩
def SM_CMD_TOFF : Fld := ⟨0x400B0008, 30, 1, .w1s, 0, some 0, .any⟩
def SM_CMD_RELEASE : Fld := ⟨0x400B0008, 29, 1, .w1s, 0, some 0, .any⟩
def SM_CMD_ABORT : Fld := ⟨0x400B0008, 28, 1, .w1s, 0, some 0, .any⟩
def SM_CMD_RESULT : Fld := ⟨0x400B0008, 0, 8, .ro, 0, some 0, .any⟩
def SM_SI_CFG_EN (i : Nat) : Fld := ⟨0x400B0100 + 4 * i, 31, 1, .rwl, 0, some 0, .any⟩
def SM_SI_CFG_START (i : Nat) : Fld := ⟨0x400B0100 + 4 * i, 30, 1, .rwl, 0, some 0, .any⟩
def SM_SI_CFG_SAFE (i : Nat) : Fld := ⟨0x400B0100 + 4 * i, 29, 1, .rwl, 0, some 0, .any⟩
def SM_SI_CFG_TP (i : Nat) : Fld := ⟨0x400B0100 + 4 * i, 26, 3, .rwl, 0, some 0, .zeroAbove 4⟩
def SM_SI_CFG_FILT (i : Nat) : Fld := ⟨0x400B0100 + 4 * i, 8, 8, .rwl, 5, some 5, .clamp 1 255⟩
def SM_SI_STAT_FAULT : Fld := ⟨0x400B0120, 24, 8, .w1c, 0, some 0, .any⟩
def SM_SI_STAT_STATE : Fld := ⟨0x400B0120, 0, 8, .ro, 0, some 0, .any⟩
def SM_TP_CFG_PERIOD : Fld := ⟨0x400B0124, 16, 8, .rwl, 10, some 10, .clamp 4 255⟩
def SM_TP_CFG_WIDTH : Fld := ⟨0x400B0124, 8, 8, .rwl, 100, some 100, .clamp 50 250⟩
def SM_TP_CFG_EN : Fld := ⟨0x400B0124, 0, 4, .rwl, 0, some 0, .any⟩
def SM_RATE_EN (b : Nat) : Fld := ⟨0x400B0200 + 4 * b, 31, 1, .rwl, 0, some 0, .any⟩
def SM_RATE_LIMIT (b : Nat) : Fld := ⟨0x400B0200 + 4 * b, 0, 16, .rwl, 65535, some 65535, .any⟩
def SM_TRAVEL_HI (b : Nat) : Fld := ⟨0x400B0208 + 4 * b, 16, 16, .rwl, 32767, some 32767, .any⟩
def SM_TRAVEL_LO (b : Nat) : Fld := ⟨0x400B0208 + 4 * b, 0, 16, .rwl, 32768, some 32768, .any⟩
def SM_ONEWAY_EN (b : Nat) : Fld := ⟨0x400B0210 + 4 * b, 31, 1, .rwl, 0, some 0, .any⟩
def SM_ONEWAY_DIR (b : Nat) : Fld := ⟨0x400B0210 + 4 * b, 30, 1, .rwl, 0, some 0, .any⟩
def SM_ONEWAY_SET (b : Nat) : Fld := ⟨0x400B0210 + 4 * b, 29, 1, .rw, 0, some 0, .any⟩
def SM_ONEWAY_LATCH_EN (b : Nat) : Fld := ⟨0x400B0210 + 4 * b, 28, 1, .rwl, 0, some 0, .any⟩
def SM_ONEWAY_ACT (b : Nat) : Fld := ⟨0x400B0210 + 4 * b, 27, 1, .rwl, 1, some 1, .any⟩
def SM_ONEWAY_LATCH_SI (b : Nat) : Fld := ⟨0x400B0210 + 4 * b, 24, 3, .rwl, 0, some 0, .any⟩
def SM_REACT_REACT : Fld := ⟨0x400B0220, 0, 2, .rwl, 0, some 0, .zeroAbove 2⟩
def SM_STOP_CFG_DECEL : Fld := ⟨0x400B0224, 16, 16, .rwl, 20, some 20, .clamp 1 65535⟩
def SM_STOP_CFG_TOL : Fld := ⟨0x400B0224, 0, 16, .rwl, 200, some 200, .any⟩
def SM_STOP_CFG2_HOLD : Fld := ⟨0x400B0228, 24, 8, .rwl, 50, some 50, .clamp 1 255⟩
def SM_STOP_CFG2_GRACE : Fld := ⟨0x400B0228, 16, 8, .rwl, 5, some 5, .clamp 1 255⟩
def SM_STOP_CFG2_ELEM : Fld := ⟨0x400B0228, 0, 7, .rwl, 0, some 0, .any⟩
def SM_STOP_STAT_STATE : Fld := ⟨0x400B022C, 29, 3, .ro, 0, some 0, .any⟩
def SM_STOP_STAT_T : Fld := ⟨0x400B022C, 0, 16, .ro, 0, some 0, .any⟩
def SM_POS_POS (b : Nat) : Fld := ⟨0x400B0230 + 4 * b, 0, 32, .rw, 0, some 0, .any⟩
def SM_SPD_SPD (b : Nat) : Fld := ⟨0x400B0238 + 4 * b, 0, 32, .ro, 0, some 0, .any⟩
def SM_CNT_VIOL_COUNT : Fld := ⟨0x400B0280, 0, 32, .ro, 0, none, .any⟩
def SM_CNT_TOFF_COUNT : Fld := ⟨0x400B0284, 0, 32, .ro, 0, none, .any⟩
def SM_CNT_SIFLT_COUNT : Fld := ⟨0x400B0288, 0, 32, .ro, 0, none, .any⟩
def SM_CNT_STOP_COUNT : Fld := ⟨0x400B028C, 0, 32, .ro, 0, none, .any⟩

/-- Part of the registers of SM. -/
def tabSMa : List RegDef := [
  ⟨"SM_CTRL", 0x400B0000, 1, 4, 1, 4, fun _ _ _ => [SM_CTRL_LOCK]⟩,
  ⟨"SM_STAT", 0x400B0004, 1, 4, 1, 4, fun _ _ _ => [SM_STAT_TOFF, SM_STAT_INTFLT, SM_STAT_FUSED, SM_STAT_VIOL, SM_STAT_RESTR]⟩,
  ⟨"SM_CMD", 0x400B0008, 1, 4, 1, 4, fun _ _ _ => [SM_CMD_STOP, SM_CMD_TOFF, SM_CMD_RELEASE, SM_CMD_ABORT, SM_CMD_RESULT]⟩,
  ⟨"SM_SI_CFG", 0x400B0100, 8, 4, 1, 4, fun _ i _ => [SM_SI_CFG_EN i, SM_SI_CFG_START i, SM_SI_CFG_SAFE i, SM_SI_CFG_TP i, SM_SI_CFG_FILT i]⟩,
  ⟨"SM_SI_STAT", 0x400B0120, 1, 4, 1, 4, fun _ _ _ => [SM_SI_STAT_FAULT, SM_SI_STAT_STATE]⟩,
  ⟨"SM_TP_CFG", 0x400B0124, 1, 4, 1, 4, fun _ _ _ => [SM_TP_CFG_PERIOD, SM_TP_CFG_WIDTH, SM_TP_CFG_EN]⟩,
  ⟨"SM_RATE", 0x400B0200, 2, 4, 1, 4, fun _ i _ => [SM_RATE_EN i, SM_RATE_LIMIT i]⟩,
  ⟨"SM_TRAVEL", 0x400B0208, 2, 4, 1, 4, fun _ i _ => [SM_TRAVEL_HI i, SM_TRAVEL_LO i]⟩,
  ⟨"SM_ONEWAY", 0x400B0210, 2, 4, 1, 4, fun _ i _ => [SM_ONEWAY_EN i, SM_ONEWAY_DIR i, SM_ONEWAY_SET i, SM_ONEWAY_LATCH_EN i, SM_ONEWAY_ACT i, SM_ONEWAY_LATCH_SI i]⟩,
  ⟨"SM_REACT", 0x400B0220, 1, 4, 1, 4, fun _ _ _ => [SM_REACT_REACT]⟩,
  ⟨"SM_STOP_CFG", 0x400B0224, 1, 4, 1, 4, fun _ _ _ => [SM_STOP_CFG_DECEL, SM_STOP_CFG_TOL]⟩,
  ⟨"SM_STOP_CFG2", 0x400B0228, 1, 4, 1, 4, fun _ _ _ => [SM_STOP_CFG2_HOLD, SM_STOP_CFG2_GRACE, SM_STOP_CFG2_ELEM]⟩]

/-- Part of the registers of SM. -/
def tabSMb : List RegDef := [
  ⟨"SM_STOP_STAT", 0x400B022C, 1, 4, 1, 4, fun _ _ _ => [SM_STOP_STAT_STATE, SM_STOP_STAT_T]⟩,
  ⟨"SM_POS", 0x400B0230, 2, 4, 1, 4, fun _ i _ => [SM_POS_POS i]⟩,
  ⟨"SM_SPD", 0x400B0238, 2, 4, 1, 4, fun _ i _ => [SM_SPD_SPD i]⟩,
  ⟨"SM_CNT_VIOL", 0x400B0280, 1, 4, 1, 4, fun _ _ _ => [SM_CNT_VIOL_COUNT]⟩,
  ⟨"SM_CNT_TOFF", 0x400B0284, 1, 4, 1, 4, fun _ _ _ => [SM_CNT_TOFF_COUNT]⟩,
  ⟨"SM_CNT_SIFLT", 0x400B0288, 1, 4, 1, 4, fun _ _ _ => [SM_CNT_SIFLT_COUNT]⟩,
  ⟨"SM_CNT_STOP", 0x400B028C, 1, 4, 1, 4, fun _ _ _ => [SM_CNT_STOP_COUNT]⟩]

/-- The registers of SM. -/
def tabSM : List RegDef := tabSMa ++ tabSMb

/-! ### FM (13_faults.md Table 13.10; 13_faults.md Table 13.7; 13_faults.md Table 13.8; 13_faults.md Table 13.9) -/

def FM_CTRL_LOCK : Fld := ⟨0x400C0000, 31, 1, .w1s, 0, some 0, .any⟩
def FM_CTRL_FENABLE : Fld := ⟨0x400C0000, 0, 1, .rwl, 0, some 0, .any⟩
def FM_STAT_ERRS_LOW : Fld := ⟨0x400C0004, 31, 1, .ro, 1, some 1, .any⟩
def FM_STAT_ERRP_LOW : Fld := ⟨0x400C0004, 30, 1, .ro, 0, some 0, .any⟩
def FM_STAT_TRAP_PEND : Fld := ⟨0x400C0004, 29, 1, .ro, 0, some 0, .any⟩
def FM_STAT_LRST_PEND : Fld := ⟨0x400C0004, 28, 1, .ro, 0, some 0, .any⟩
def FM_STAT_UNSAVED : Fld := ⟨0x400C0004, 27, 1, .ro, 0, none, .any⟩
def FM_STAT_FREFUSED : Fld := ⟨0x400C0004, 26, 1, .w1c, 0, some 0, .any⟩
def FM_STAT_SCOUNT : Fld := ⟨0x400C0004, 8, 8, .ro, 0, some 0, .any⟩
def FM_STAT_OCOUNT : Fld := ⟨0x400C0004, 0, 8, .ro, 0, some 0, .any⟩
def FM_BALL_PREL : Fld := ⟨0x400C0008, 31, 1, .w1s, 0, some 0, .any⟩
def FM_BALL_BOOTHOLD : Fld := ⟨0x400C0008, 30, 1, .ro, 1, some 1, .any⟩
def FM_NMT_ACK : Fld := ⟨0x400C000C, 31, 1, .w1s, 0, some 0, .any⟩
def FM_NMT_SRC : Fld := ⟨0x400C000C, 0, 8, .ro, 0, some 0, .any⟩
def FM_HSEQ_SEQ : Fld := ⟨0x400C0010, 0, 32, .ro, 0, none, .any⟩
def FM_HSKIP_SKIP : Fld := ⟨0x400C0014, 0, 32, .ro, 0, none, .any⟩
def FM_STATUS_STATUS (g : Nat) : Fld := ⟨0x400C0020 + 4 * g, 0, 32, .w1c, 0, some 0, .any⟩
def FM_CAUSE_CAUSE (g : Nat) : Fld := ⟨0x400C0040 + 4 * g, 0, 32, .ro, 0, none, .any⟩
def FM_FORCE_FORCE (g : Nat) : Fld := ⟨0x400C0060 + 4 * g, 0, 32, .w1s, 0, some 0, .any⟩
def FM_REACT_CLASS (s : Nat) : Fld := ⟨0x400C0400 + 4 * s, 31, 1, .ro, (if srcIsS s then 1 else 0), none, .any⟩
def FM_REACT_COMPAT (s : Nat) : Fld := ⟨0x400C0400 + 4 * s, 30, 1, .rwl, 0, some 0, .any⟩
def FM_REACT_QUIET (s : Nat) : Fld := ⟨0x400C0400 + 4 * s, 26, 4, .rwl, 0, some 0, .clamp 0 12⟩
def FM_REACT_LINE (s : Nat) : Fld := ⟨0x400C0400 + 4 * s, 16, 5, .rwl, 0, some 0, .any⟩
def FM_REACT_E (s : Nat) : Fld := ⟨0x400C0400 + 4 * s, 4, 1, .rwl, 0, some 0, .any⟩
def FM_REACT_L (s : Nat) : Fld := ⟨0x400C0400 + 4 * s, 3, 1, .rwl, 0, some 0, .any⟩
def FM_REACT_B (s : Nat) : Fld := ⟨0x400C0400 + 4 * s, 2, 1, .rwl, 0, some 0, .any⟩
def FM_REACT_T (s : Nat) : Fld := ⟨0x400C0400 + 4 * s, 1, 1, .rwl, (if srcIsS s then 1 else 0), some (if srcIsS s then 1 else 0), .any⟩
def FM_REACT_I (s : Nat) : Fld := ⟨0x400C0400 + 4 * s, 0, 1, .rwl, (if srcIsS s then 0 else 1), some (if srcIsS s then 0 else 1), .any⟩
def FM_TALLY_TALLY (s : Nat) : Fld := ⟨0x400C0800 + 4 * s, 0, 32, .ro, 0, none, .any⟩
def FM_REC_TWRAP (s : Nat) : Fld := ⟨0x400C0C00 + 4 * s, 8, 1, .w1c, 0, none, .any⟩
def FM_REC_REC (s : Nat) : Fld := ⟨0x400C0C00 + 4 * s, 0, 8, .ro, 0, none, .any⟩
def FM_HIST_WORD (i : Nat) (w : Nat) : Fld := ⟨0x400C1000 + 16 * i + 4 * w, 0, 32, .ro, 0, none, .any⟩

/-- The registers of FM. -/
def tabFM : List RegDef := [
  ⟨"FM_CTRL", 0x400C0000, 1, 4, 1, 4, fun _ _ _ => [FM_CTRL_LOCK, FM_CTRL_FENABLE]⟩,
  ⟨"FM_STAT", 0x400C0004, 1, 4, 1, 4, fun _ _ _ => [FM_STAT_ERRS_LOW, FM_STAT_ERRP_LOW, FM_STAT_TRAP_PEND, FM_STAT_LRST_PEND, FM_STAT_UNSAVED, FM_STAT_FREFUSED, FM_STAT_SCOUNT, FM_STAT_OCOUNT]⟩,
  ⟨"FM_BALL", 0x400C0008, 1, 4, 1, 4, fun _ _ _ => [FM_BALL_PREL, FM_BALL_BOOTHOLD]⟩,
  ⟨"FM_NMT", 0x400C000C, 1, 4, 1, 4, fun _ _ _ => [FM_NMT_ACK, FM_NMT_SRC]⟩,
  ⟨"FM_HSEQ", 0x400C0010, 1, 4, 1, 4, fun _ _ _ => [FM_HSEQ_SEQ]⟩,
  ⟨"FM_HSKIP", 0x400C0014, 1, 4, 1, 4, fun _ _ _ => [FM_HSKIP_SKIP]⟩,
  ⟨"FM_STATUS", 0x400C0020, 6, 4, 1, 4, fun _ i _ => [FM_STATUS_STATUS i]⟩,
  ⟨"FM_CAUSE", 0x400C0040, 6, 4, 1, 4, fun _ i _ => [FM_CAUSE_CAUSE i]⟩,
  ⟨"FM_FORCE", 0x400C0060, 6, 4, 1, 4, fun _ i _ => [FM_FORCE_FORCE i]⟩,
  ⟨"FM_REACT", 0x400C0400, 192, 4, 1, 4, fun _ i _ => [FM_REACT_CLASS i, FM_REACT_COMPAT i, FM_REACT_QUIET i, FM_REACT_LINE i, FM_REACT_E i, FM_REACT_L i, FM_REACT_B i, FM_REACT_T i, FM_REACT_I i]⟩,
  ⟨"FM_TALLY", 0x400C0800, 192, 4, 1, 4, fun _ i _ => [FM_TALLY_TALLY i]⟩,
  ⟨"FM_REC", 0x400C0C00, 192, 4, 1, 4, fun _ i _ => [FM_REC_TWRAP i, FM_REC_REC i]⟩,
  ⟨"FM_HIST", 0x400C1000, 32, 16, 4, 4, fun _ i j => [FM_HIST_WORD i j]⟩]

/-! ### PM (15_power_thermal_test.md Table 15.11) -/

def PM_REQ_GO : Fld := ⟨0x400D0000, 31, 1, .w1s, 0, some 0, .any⟩
def PM_REQ_TARGET : Fld := ⟨0x400D0000, 28, 3, .rw, 0, some 0, .any⟩
def PM_REQ_RESULT : Fld := ⟨0x400D0000, 0, 8, .ro, 0, some 0, .any⟩
def PM_STAT_STATE : Fld := ⟨0x400D0004, 29, 3, .ro, 0, some 0, .any⟩
def PM_STAT_TARGET : Fld := ⟨0x400D0004, 26, 3, .ro, 0, some 0, .any⟩
def PM_STAT_ENTERING : Fld := ⟨0x400D0004, 25, 1, .ro, 0, some 0, .any⟩
def PM_STAT_EXITING : Fld := ⟨0x400D0004, 24, 1, .ro, 0, some 0, .any⟩
def PM_STAT_QVALID : Fld := ⟨0x400D0004, 23, 1, .ro, 0, some 0, .any⟩
def PM_STAT_QUEUED : Fld := ⟨0x400D0004, 20, 3, .ro, 0, some 0, .any⟩
def PM_STAT_ABANDON : Fld := ⟨0x400D0004, 17, 3, .ro, 0, none, .any⟩
def PM_STAT_WAKE : Fld := ⟨0x400D0004, 11, 6, .ro, 0, none, .any⟩
def PM_STAT_PADHOLD : Fld := ⟨0x400D0004, 10, 1, .ro, 0, none, .any⟩
def PM_CFG_LOCK : Fld := ⟨0x400D0008, 31, 1, .w1s, 0, some 0, .any⟩
def PM_CFG_IDLE_EN : Fld := ⟨0x400D0008, 8, 1, .rw, 0, some 0, .any⟩
def PM_CFG_WAKE_EN : Fld := ⟨0x400D0008, 0, 6, .rwl, 3, some 3, .any⟩
def PM_WAKE_TIME_MS : Fld := ⟨0x400D000C, 0, 32, .rw, 0, none, .any⟩
def PM_PADREL_REL : Fld := ⟨0x400D0010, 0, 1, .w1s, 0, some 0, .any⟩

/-- The registers of PM. -/
def tabPM : List RegDef := [
  ⟨"PM_REQ", 0x400D0000, 1, 4, 1, 4, fun _ _ _ => [PM_REQ_GO, PM_REQ_TARGET, PM_REQ_RESULT]⟩,
  ⟨"PM_STAT", 0x400D0004, 1, 4, 1, 4, fun _ _ _ => [PM_STAT_STATE, PM_STAT_TARGET, PM_STAT_ENTERING, PM_STAT_EXITING, PM_STAT_QVALID, PM_STAT_QUEUED, PM_STAT_ABANDON, PM_STAT_WAKE, PM_STAT_PADHOLD]⟩,
  ⟨"PM_CFG", 0x400D0008, 1, 4, 1, 4, fun _ _ _ => [PM_CFG_LOCK, PM_CFG_IDLE_EN, PM_CFG_WAKE_EN]⟩,
  ⟨"PM_WAKE_TIME", 0x400D000C, 1, 4, 1, 4, fun _ _ _ => [PM_WAKE_TIME_MS]⟩,
  ⟨"PM_PADREL", 0x400D0010, 1, 4, 1, 4, fun _ _ _ => [PM_PADREL_REL]⟩]

/-! ### TM (15_power_thermal_test.md Table 15.12) -/

def TM_STAT_TJ : Fld := ⟨0x400E0000, 24, 8, .ro, 0, none, .any⟩
def TM_STAT_LEVEL : Fld := ⟨0x400E0000, 20, 4, .ro, 0, none, .any⟩
def TM_STAT_LAST : Fld := ⟨0x400E0000, 19, 1, .ro, 0, some 0, .any⟩
def TM_STAT_CUTOFF : Fld := ⟨0x400E0000, 18, 1, .ro, 0, some 0, .any⟩
def TM_STAT_NVOPEN : Fld := ⟨0x400E0000, 17, 1, .ro, 0, none, .any⟩
def TM_STAT_WARN : Fld := ⟨0x400E0000, 16, 1, .ro, 0, none, .any⟩
def TM_STAT_EXCL : Fld := ⟨0x400E0000, 8, 8, .ro, 0, some 0, .any⟩
def TM_CFG_LOCK : Fld := ⟨0x400E0004, 31, 1, .w1s, 0, some 0, .any⟩
def TM_CFG_TPRIO : Fld := ⟨0x400E0004, 0, 4, .rwl, 8, some 8, .any⟩
def TM_SENS_VALID (i : Nat) : Fld := ⟨0x400E0010 + 4 * i, 31, 1, .ro, 0, none, .any⟩
def TM_SENS_TEMP (i : Nat) : Fld := ⟨0x400E0010 + 4 * i, 0, 12, .ro, 0, none, .any⟩
def TM_SHUT_PEND : Fld := ⟨0x400E0040, 31, 1, .ro, 0, none, .any⟩
def TM_SHUT_TJ : Fld := ⟨0x400E0040, 16, 8, .ro, 0, none, .any⟩
def TM_SHUT_TIME : Fld := ⟨0x400E0040, 0, 16, .ro, 0, none, .any⟩
def TM_CNT_SHUT_COUNT : Fld := ⟨0x400E0050, 0, 32, .ro, 0, none, .any⟩
def TM_CNT_SENS_COUNT : Fld := ⟨0x400E0054, 0, 32, .ro, 0, none, .any⟩

/-- The registers of TM. -/
def tabTM : List RegDef := [
  ⟨"TM_STAT", 0x400E0000, 1, 4, 1, 4, fun _ _ _ => [TM_STAT_TJ, TM_STAT_LEVEL, TM_STAT_LAST, TM_STAT_CUTOFF, TM_STAT_NVOPEN, TM_STAT_WARN, TM_STAT_EXCL]⟩,
  ⟨"TM_CFG", 0x400E0004, 1, 4, 1, 4, fun _ _ _ => [TM_CFG_LOCK, TM_CFG_TPRIO]⟩,
  ⟨"TM_SENS", 0x400E0010, 8, 4, 1, 4, fun _ i _ => [TM_SENS_VALID i, TM_SENS_TEMP i]⟩,
  ⟨"TM_SHUT", 0x400E0040, 1, 4, 1, 4, fun _ _ _ => [TM_SHUT_PEND, TM_SHUT_TJ, TM_SHUT_TIME]⟩,
  ⟨"TM_CNT_SHUT", 0x400E0050, 1, 4, 1, 4, fun _ _ _ => [TM_CNT_SHUT_COUNT]⟩,
  ⟨"TM_CNT_SENS", 0x400E0054, 1, 4, 1, 4, fun _ _ _ => [TM_CNT_SENS_COUNT]⟩]

/-! ### ST (15_power_thermal_test.md Table 15.13) -/

def ST_CTRL_LOCK : Fld := ⟨0x400F0000, 31, 1, .w1s, 0, some 0, .any⟩
def ST_CTRL_CANARY : Fld := ⟨0x400F0000, 30, 1, .rwl, 1, some 1, .any⟩
def ST_CTRL_INTERVAL : Fld := ⟨0x400F0000, 0, 8, .rwl, 1, some 1, .clamp 1 255⟩
def ST_STAT_SLICE : Fld := ⟨0x400F0004, 21, 11, .ro, 0, some 0, .any⟩
def ST_STAT_BUSY : Fld := ⟨0x400F0004, 20, 1, .ro, 0, some 0, .any⟩
def ST_STAT_LBIST_BUSY : Fld := ⟨0x400F0004, 19, 1, .ro, 0, some 0, .any⟩
def ST_STAT_PASS_OK : Fld := ⟨0x400F0004, 18, 1, .ro, 0, some 0, .any⟩
def ST_LBIST_GO : Fld := ⟨0x400F0008, 31, 1, .w1s, 0, some 0, .any⟩
def ST_LBIST_MATCH : Fld := ⟨0x400F0008, 0, 1, .ro, 0, some 0, .any⟩
def ST_SIG_SIG : Fld := ⟨0x400F000C, 0, 32, .ro, 0, some 0, .any⟩
def ST_FUSE_GO : Fld := ⟨0x400F0010, 31, 1, .w1s, 0, some 0, .any⟩
def ST_FUSE_RESULT : Fld := ⟨0x400F0010, 0, 8, .ro, 0, some 0, .any⟩
def ST_CANARY_FAIL_ADDR : Fld := ⟨0x400F0014, 0, 32, .ro, 0, none, .any⟩
def ST_REPAIR_ROWS (m : Nat) : Fld := ⟨0x400F0020 + 4 * m, 16, 8, .ro, 0, some 0, .any⟩
def ST_REPAIR_COLS (m : Nat) : Fld := ⟨0x400F0020 + 4 * m, 8, 8, .ro, 0, some 0, .any⟩
def ST_REPAIR_FUSED (m : Nat) : Fld := ⟨0x400F0020 + 4 * m, 0, 8, .ro, 0, none, .any⟩
def ST_CNT_SLICE_COUNT : Fld := ⟨0x400F0040, 0, 32, .ro, 0, none, .any⟩
def ST_CNT_FAIL_COUNT : Fld := ⟨0x400F0044, 0, 32, .ro, 0, none, .any⟩

/-- The registers of ST. -/
def tabST : List RegDef := [
  ⟨"ST_CTRL", 0x400F0000, 1, 4, 1, 4, fun _ _ _ => [ST_CTRL_LOCK, ST_CTRL_CANARY, ST_CTRL_INTERVAL]⟩,
  ⟨"ST_STAT", 0x400F0004, 1, 4, 1, 4, fun _ _ _ => [ST_STAT_SLICE, ST_STAT_BUSY, ST_STAT_LBIST_BUSY, ST_STAT_PASS_OK]⟩,
  ⟨"ST_LBIST", 0x400F0008, 1, 4, 1, 4, fun _ _ _ => [ST_LBIST_GO, ST_LBIST_MATCH]⟩,
  ⟨"ST_SIG", 0x400F000C, 1, 4, 1, 4, fun _ _ _ => [ST_SIG_SIG]⟩,
  ⟨"ST_FUSE", 0x400F0010, 1, 4, 1, 4, fun _ _ _ => [ST_FUSE_GO, ST_FUSE_RESULT]⟩,
  ⟨"ST_CANARY_FAIL", 0x400F0014, 1, 4, 1, 4, fun _ _ _ => [ST_CANARY_FAIL_ADDR]⟩,
  ⟨"ST_REPAIR", 0x400F0020, 8, 4, 1, 4, fun _ i _ => [ST_REPAIR_ROWS i, ST_REPAIR_COLS i, ST_REPAIR_FUSED i]⟩,
  ⟨"ST_CNT_SLICE", 0x400F0040, 1, 4, 1, 4, fun _ _ _ => [ST_CNT_SLICE_COUNT]⟩,
  ⟨"ST_CNT_FAIL", 0x400F0044, 1, 4, 1, 4, fun _ _ _ => [ST_CNT_FAIL_COUNT]⟩]

/-! ### RS (15_power_thermal_test.md Table 15.14) -/

def RS_STAT_BUSY : Fld := ⟨0x40100000, 31, 1, .ro, 0, some 0, .any⟩
def RS_STAT_WAITNV : Fld := ⟨0x40100000, 30, 1, .ro, 0, some 0, .any⟩
def RS_STAT_SLOT : Fld := ⟨0x40100000, 24, 6, .ro, 0, some 0, .any⟩
def RS_CMD_GO : Fld := ⟨0x40100004, 31, 1, .w1s, 0, some 0, .any⟩
def RS_CMD_ABORT : Fld := ⟨0x40100004, 30, 1, .w1s, 0, some 0, .any⟩
def RS_CMD_SLOT : Fld := ⟨0x40100004, 8, 6, .rw, 0, some 0, .any⟩
def RS_CMD_RESULT : Fld := ⟨0x40100004, 0, 8, .ro, 0, some 0, .any⟩
def RS_STAGE_ADDR : Fld := ⟨0x40100008, 2, 30, .rw, 0, some 0, .any⟩
def RS_CNT_WRITE_COUNT : Fld := ⟨0x40100020, 0, 32, .ro, 0, none, .any⟩
def RS_CNT_INVALID_COUNT : Fld := ⟨0x40100024, 0, 32, .ro, 0, none, .any⟩
def RS_SLOT_VALID (n : Nat) : Fld := ⟨0x40100100 + 4 * n, 30, 2, .ro, 0, none, .any⟩
def RS_SLOT_CHOSEN (n : Nat) : Fld := ⟨0x40100100 + 4 * n, 29, 1, .ro, 0, none, .any⟩
def RS_SLOT_PEND (n : Nat) : Fld := ⟨0x40100100 + 4 * n, 28, 1, .ro, 0, some 0, .any⟩
def RS_SLOT_SEQ (n : Nat) : Fld := ⟨0x40100100 + 4 * n, 0, 28, .ro, 0, none, .any⟩

/-- The registers of RS. -/
def tabRS : List RegDef := [
  ⟨"RS_STAT", 0x40100000, 1, 4, 1, 4, fun _ _ _ => [RS_STAT_BUSY, RS_STAT_WAITNV, RS_STAT_SLOT]⟩,
  ⟨"RS_CMD", 0x40100004, 1, 4, 1, 4, fun _ _ _ => [RS_CMD_GO, RS_CMD_ABORT, RS_CMD_SLOT, RS_CMD_RESULT]⟩,
  ⟨"RS_STAGE", 0x40100008, 1, 4, 1, 4, fun _ _ _ => [RS_STAGE_ADDR]⟩,
  ⟨"RS_CNT_WRITE", 0x40100020, 1, 4, 1, 4, fun _ _ _ => [RS_CNT_WRITE_COUNT]⟩,
  ⟨"RS_CNT_INVALID", 0x40100024, 1, 4, 1, 4, fun _ _ _ => [RS_CNT_INVALID_COUNT]⟩,
  ⟨"RS_SLOT", 0x40100100, 64, 4, 1, 4, fun _ i _ => [RS_SLOT_VALID i, RS_SLOT_CHOSEN i, RS_SLOT_PEND i, RS_SLOT_SEQ i]⟩]

/-! ### HL (14_host_orders.md Table 14.13; 14_host_orders.md Table 14.14; 14_host_orders.md Table 14.15; 14_host_orders.md Table 14.16) -/

def HL_CTRL_LOCK : Fld := ⟨0x40110000, 31, 1, .w1s, 0, some 0, .any⟩
def HL_CTRL_ROUTE_EN : Fld := ⟨0x40110000, 0, 3, .rwl, 1, some 1, .any⟩
def HL_STAT_SYNC : Fld := ⟨0x40110004, 31, 1, .ro, 0, some 0, .any⟩
def HL_STAT_LINK : Fld := ⟨0x40110004, 30, 1, .ro, 0, some 0, .any⟩
def HL_STAT_CFGREF : Fld := ⟨0x40110004, 29, 1, .w1c, 0, some 0, .any⟩
def HL_STAT_RELAYQ : Fld := ⟨0x40110004, 24, 5, .ro, 0, some 0, .any⟩
def HL_STAT_SCRIPT : Fld := ⟨0x40110004, 22, 2, .ro, 0, some 0, .any⟩
def HL_STAT_SCR_RUN : Fld := ⟨0x40110004, 21, 1, .ro, 0, some 0, .any⟩
def HL_STAT_SELECT : Fld := ⟨0x40110004, 20, 1, .ro, 0, some 0, .any⟩
def HL_ELEM_TELEM : Fld := ⟨0x40110008, 8, 6, .rwl, 0, some 0, .any⟩
def HL_ELEM_EN : Fld := ⟨0x40110008, 7, 1, .rwl, 0, some 0, .any⟩
def HL_ELEM_RELEM : Fld := ⟨0x40110008, 0, 6, .rwl, 0, some 0, .any⟩
def HL_MOTION_CFG_EN : Fld := ⟨0x4011000C, 31, 1, .rwl, 0, some 0, .any⟩
def HL_MOTION_CFG_SPART : Fld := ⟨0x4011000C, 26, 2, .rwl, 0, some 0, .any⟩
def HL_MOTION_CFG_PPART : Fld := ⟨0x4011000C, 24, 2, .rwl, 0, some 0, .any⟩
def HL_MOTION_CFG_SCONN : Fld := ⟨0x4011000C, 8, 6, .rwl, 0, some 0, .any⟩
def HL_MOTION_CFG_PCONN : Fld := ⟨0x4011000C, 0, 6, .rwl, 0, some 0, .any⟩
def HL_CAN_CFG_TXID : Fld := ⟨0x40110010, 16, 11, .rwl, 257, some 257, .any⟩
def HL_CAN_CFG_RXID : Fld := ⟨0x40110010, 0, 11, .rwl, 256, some 256, .any⟩
def HL_PART_CFG_EN (p : Nat) : Fld := ⟨0x40110020 + 4 * p, 31, 1, .rwl, 0, some 0, .any⟩
def HL_PART_CFG_AUTH (p : Nat) : Fld := ⟨0x40110020 + 4 * p, 29, 2, .rwl, 0, some 0, .any⟩
def HL_PART_CFG_ROUTES (p : Nat) : Fld := ⟨0x40110020 + 4 * p, 26, 3, .rwl, 0, some 0, .any⟩
def HL_PART_CFG_NODE (p : Nat) : Fld := ⟨0x40110020 + 4 * p, 16, 4, .rwl, 0, some 0, .any⟩
def HL_PART_STAT_OPS (p : Nat) : Fld := ⟨0x40110030 + 4 * p, 16, 3, .ro, 0, none, .any⟩
def HL_PART_STAT_OUT (p : Nat) : Fld := ⟨0x40110030 + 4 * p, 0, 16, .ro, 0, none, .any⟩
def HL_RPT_CFG_TALLY (r : Nat) : Fld := ⟨0x40110040 + 4 * r, 1, 1, .rw, 0, some 0, .any⟩
def HL_RPT_CFG_FAULT (r : Nat) : Fld := ⟨0x40110040 + 4 * r, 0, 1, .rw, 0, some 0, .any⟩
def HL_CNT_FRAME_COUNT : Fld := ⟨0x40110060, 0, 32, .ro, 0, none, .any⟩
def HL_CNT_CREDIT_COUNT : Fld := ⟨0x40110064, 0, 32, .ro, 0, none, .any⟩
def HL_CNT_RLOST_COUNT : Fld := ⟨0x40110068, 0, 32, .ro, 0, none, .any⟩
def HL_CNT_TAKEOVER_COUNT : Fld := ⟨0x4011006C, 0, 32, .ro, 0, none, .any⟩
def HL_SCRIPT_WORD (i : Nat) (w : Nat) : Fld := ⟨0x40111000 + 1024 * i + 4 * w, 0, 32, .ro, 0, none, .any⟩

/-- The registers of HL. -/
def tabHL : List RegDef := [
  ⟨"HL_CTRL", 0x40110000, 1, 4, 1, 4, fun _ _ _ => [HL_CTRL_LOCK, HL_CTRL_ROUTE_EN]⟩,
  ⟨"HL_STAT", 0x40110004, 1, 4, 1, 4, fun _ _ _ => [HL_STAT_SYNC, HL_STAT_LINK, HL_STAT_CFGREF, HL_STAT_RELAYQ, HL_STAT_SCRIPT, HL_STAT_SCR_RUN, HL_STAT_SELECT]⟩,
  ⟨"HL_ELEM", 0x40110008, 1, 4, 1, 4, fun _ _ _ => [HL_ELEM_TELEM, HL_ELEM_EN, HL_ELEM_RELEM]⟩,
  ⟨"HL_MOTION_CFG", 0x4011000C, 1, 4, 1, 4, fun _ _ _ => [HL_MOTION_CFG_EN, HL_MOTION_CFG_SPART, HL_MOTION_CFG_PPART, HL_MOTION_CFG_SCONN, HL_MOTION_CFG_PCONN]⟩,
  ⟨"HL_CAN_CFG", 0x40110010, 1, 4, 1, 4, fun _ _ _ => [HL_CAN_CFG_TXID, HL_CAN_CFG_RXID]⟩,
  ⟨"HL_PART_CFG", 0x40110020, 4, 4, 1, 4, fun _ i _ => [HL_PART_CFG_EN i, HL_PART_CFG_AUTH i, HL_PART_CFG_ROUTES i, HL_PART_CFG_NODE i]⟩,
  ⟨"HL_PART_STAT", 0x40110030, 4, 4, 1, 4, fun _ i _ => [HL_PART_STAT_OPS i, HL_PART_STAT_OUT i]⟩,
  ⟨"HL_RPT_CFG", 0x40110040, 3, 4, 1, 4, fun _ i _ => [HL_RPT_CFG_TALLY i, HL_RPT_CFG_FAULT i]⟩,
  ⟨"HL_CNT_FRAME", 0x40110060, 1, 4, 1, 4, fun _ _ _ => [HL_CNT_FRAME_COUNT]⟩,
  ⟨"HL_CNT_CREDIT", 0x40110064, 1, 4, 1, 4, fun _ _ _ => [HL_CNT_CREDIT_COUNT]⟩,
  ⟨"HL_CNT_RLOST", 0x40110068, 1, 4, 1, 4, fun _ _ _ => [HL_CNT_RLOST_COUNT]⟩,
  ⟨"HL_CNT_TAKEOVER", 0x4011006C, 1, 4, 1, 4, fun _ _ _ => [HL_CNT_TAKEOVER_COUNT]⟩,
  ⟨"HL_SCRIPT", 0x40111000, 4, 1024, 256, 4, fun _ i j => [HL_SCRIPT_WORD i j]⟩]

/-! ### SX (12_safety.md Table 12.14; 12_safety.md Table 12.15) -/

def SX_CTRL_LOCK : Fld := ⟨0x40130000, 31, 1, .w1s, 0, some 0, .any⟩
def SX_SEND_GO : Fld := ⟨0x40130004, 31, 1, .w1s, 0, some 0, .any⟩
def SX_SEND_LEN : Fld := ⟨0x40130004, 16, 6, .wo, 0, some 0, .any⟩
def SX_SEND_CONN : Fld := ⟨0x40130004, 0, 6, .wo, 0, some 0, .any⟩
def SX_CONN_CFG_EN (c : Nat) : Fld := ⟨0x40130100 + 16 * c, 31, 1, .rwl, 0, some 0, .any⟩
def SX_CONN_CFG_DIR (c : Nat) : Fld := ⟨0x40130100 + 16 * c, 30, 1, .rwl, 0, some 0, .any⟩
def SX_CONN_CFG_ROUTE (c : Nat) : Fld := ⟨0x40130100 + 16 * c, 28, 2, .rwl, 0, some 0, .any⟩
def SX_CONN_CFG_PART (c : Nat) : Fld := ⟨0x40130100 + 16 * c, 26, 2, .rwl, 0, some 0, .any⟩
def SX_CONN_CFG_EXPECT (c : Nat) : Fld := ⟨0x40130100 + 16 * c, 14, 12, .rwl, 400, some 400, .clamp 1 4000⟩
def SX_CONN_CFG_SEQWIN (c : Nat) : Fld := ⟨0x40130100 + 16 * c, 8, 6, .rwl, 16, some 16, .clamp 1 63⟩
def SX_CONN_CFG_SKEW (c : Nat) : Fld := ⟨0x40130100 + 16 * c, 0, 8, .rwl, 20, some 20, .any⟩
def SX_CONN_ID_IDENT (c : Nat) : Fld := ⟨0x40130104 + 16 * c, 0, 32, .rwl, 0, some 0, .any⟩
def SX_CONN_STAT_STATE (c : Nat) : Fld := ⟨0x40130108 + 16 * c, 30, 2, .ro, 0, some 0, .any⟩
def SX_CONN_STAT_NEW (c : Nat) : Fld := ⟨0x40130108 + 16 * c, 29, 1, .w1c, 0, some 0, .any⟩
def SX_CONN_STAT_LEN (c : Nat) : Fld := ⟨0x40130108 + 16 * c, 23, 6, .ro, 0, some 0, .any⟩
def SX_CONN_STAT_LAST_SEQ (c : Nat) : Fld := ⟨0x40130108 + 16 * c, 0, 16, .ro, 0, some 0, .any⟩
def SX_CONN_TS_TSTAMP (c : Nat) : Fld := ⟨0x4013010C + 16 * c, 0, 32, .ro, 0, some 0, .any⟩
def SX_CNT_LOST_COUNT (c : Nat) : Fld := ⟨0x40130800 + 32 * c, 0, 32, .ro, 0, none, .any⟩
def SX_CNT_DUP_COUNT (c : Nat) : Fld := ⟨0x40130804 + 32 * c, 0, 32, .ro, 0, none, .any⟩
def SX_CNT_OLD_COUNT (c : Nat) : Fld := ⟨0x40130808 + 32 * c, 0, 32, .ro, 0, none, .any⟩
def SX_CNT_STALE_COUNT (c : Nat) : Fld := ⟨0x4013080C + 32 * c, 0, 32, .ro, 0, none, .any⟩
def SX_CNT_CHECK_COUNT (c : Nat) : Fld := ⟨0x40130810 + 32 * c, 0, 32, .ro, 0, none, .any⟩
def SX_CNT_EXPIRED_COUNT (c : Nat) : Fld := ⟨0x40130814 + 32 * c, 0, 32, .ro, 0, none, .any⟩
def SX_CNT_OVERRUN_COUNT (c : Nat) : Fld := ⟨0x40130818 + 32 * c, 0, 32, .ro, 0, none, .any⟩
def SX_RX_WORD (c : Nat) (w : Nat) : Fld := ⟨0x40131000 + 64 * c + 4 * w, 0, 32, .ro, 0, some 0, .any⟩
def SX_TX_WORD (c : Nat) (w : Nat) : Fld := ⟨0x40132000 + 64 * c + 4 * w, 0, 32, .rw, 0, some 0, .any⟩

/-- Part of the registers of SX. -/
def tabSXa : List RegDef := [
  ⟨"SX_CTRL", 0x40130000, 1, 4, 1, 4, fun _ _ _ => [SX_CTRL_LOCK]⟩,
  ⟨"SX_SEND", 0x40130004, 1, 4, 1, 4, fun _ _ _ => [SX_SEND_GO, SX_SEND_LEN, SX_SEND_CONN]⟩,
  ⟨"SX_CONN_CFG", 0x40130100, 64, 16, 1, 4, fun _ i _ => [SX_CONN_CFG_EN i, SX_CONN_CFG_DIR i, SX_CONN_CFG_ROUTE i, SX_CONN_CFG_PART i, SX_CONN_CFG_EXPECT i, SX_CONN_CFG_SEQWIN i, SX_CONN_CFG_SKEW i]⟩,
  ⟨"SX_CONN_ID", 0x40130104, 64, 16, 1, 4, fun _ i _ => [SX_CONN_ID_IDENT i]⟩,
  ⟨"SX_CONN_STAT", 0x40130108, 64, 16, 1, 4, fun _ i _ => [SX_CONN_STAT_STATE i, SX_CONN_STAT_NEW i, SX_CONN_STAT_LEN i, SX_CONN_STAT_LAST_SEQ i]⟩,
  ⟨"SX_CONN_TS", 0x4013010C, 64, 16, 1, 4, fun _ i _ => [SX_CONN_TS_TSTAMP i]⟩,
  ⟨"SX_CNT_LOST", 0x40130800, 64, 32, 1, 4, fun _ i _ => [SX_CNT_LOST_COUNT i]⟩,
  ⟨"SX_CNT_DUP", 0x40130804, 64, 32, 1, 4, fun _ i _ => [SX_CNT_DUP_COUNT i]⟩,
  ⟨"SX_CNT_OLD", 0x40130808, 64, 32, 1, 4, fun _ i _ => [SX_CNT_OLD_COUNT i]⟩,
  ⟨"SX_CNT_STALE", 0x4013080C, 64, 32, 1, 4, fun _ i _ => [SX_CNT_STALE_COUNT i]⟩,
  ⟨"SX_CNT_CHECK", 0x40130810, 64, 32, 1, 4, fun _ i _ => [SX_CNT_CHECK_COUNT i]⟩,
  ⟨"SX_CNT_EXPIRED", 0x40130814, 64, 32, 1, 4, fun _ i _ => [SX_CNT_EXPIRED_COUNT i]⟩]

/-- Part of the registers of SX. -/
def tabSXb : List RegDef := [
  ⟨"SX_CNT_OVERRUN", 0x40130818, 64, 32, 1, 4, fun _ i _ => [SX_CNT_OVERRUN_COUNT i]⟩,
  ⟨"SX_RX", 0x40131000, 64, 64, 12, 4, fun _ i j => [SX_RX_WORD i j]⟩,
  ⟨"SX_TX", 0x40132000, 64, 64, 12, 4, fun _ i j => [SX_TX_WORD i j]⟩]

/-- The registers of SX. -/
def tabSX : List RegDef := tabSXa ++ tabSXb

end Reg

/-- The registers whose window holds an address (Table 0.3). -/
def regTableAt (a : Nat) : List RegDef :=
  match a / 0x10000 with
  | 0x4000 => Reg.tabSYS ++ Reg.tabCP
  | 0x4001 => Reg.tabTS
  | 0x4002 => Reg.tabIX
  | 0x4003 => Reg.tabLE
  | 0x4004 => Reg.tabFC
  | 0x4005 => Reg.tabAF
  | 0x4006 => Reg.tabGD
  | 0x4007 => Reg.tabAM
  | 0x4008 => Reg.tabXF
  | 0x4009 => Reg.tabVF
  | 0x400A => Reg.tabTB
  | 0x400B => Reg.tabSM
  | 0x400C => Reg.tabFM
  | 0x400D => Reg.tabPM
  | 0x400E => Reg.tabTM
  | 0x400F => Reg.tabST
  | 0x4010 => Reg.tabRS
  | 0x4011 => Reg.tabHL
  | 0x4013 => Reg.tabSX
  | _ => []

/-- The indices of an address in a register array, if it names one of its registers. -/
def RegDef.index (d : RegDef) (a : Nat) : Option (Nat × Nat) :=
  if a < d.base then none
  else
    let o := a - d.base
    let i := o / d.s1
    let r := o % d.s1
    if i < d.n1 ∧ r % d.s2 = 0 ∧ r / d.s2 < d.n2 then some (i, r / d.s2) else none

/-- The fields of the register at an address in lane `x`; `none` where no table of spec/ places a register. -/
def regFields (x : LaneId) (a : Nat) : Option (List Fld) :=
  (regTableAt a).findSome? fun d => (d.index a).map fun (i, j) => d.flds x i j

/-- The field of lane `x` that a key of `Lane.regs` names. -/
def fldOfKey (x : LaneId) (k : Nat) : Option Fld :=
  (regFields x (k / 32)).bind fun fs => fs.find? fun f => f.key = k

end Sys2Proof.Machine
end

