-- ==== Sys2Proof/Machine/State.lean ====
section
/-! DEFINITION. The machine's state, as plain data: everything spec/ gives the three lanes and the ring between
them, and the queue of waiting commands. Each structure below is the state of one block of Table 0.3 that no
register shows; the registers stand in `Lane.regs`, one entry per field (Sys2Proof/Machine/Regs.lean). -/

namespace Sys2Proof.Machine

/-- A pair indexed by 0 and 1: bridges, actuators, cores, ports, dispatch targets. -/
structure Two (α : Type) where
  zero : α
  one : α
  deriving DecidableEq, Repr

/-- One value per lane. -/
structure Tri (α : Type) where
  a : α
  b : α
  c : α
  deriving DecidableEq, Repr

/-- A table that holds only the entries that differ from its default value, keys rising. -/
abbrev Sparse (α : Type) := List (Nat × α)

/-- Whether a lane's logic runs, and if not, why (R628, R645, R676, R679, R697): no supply, or held in reset. -/
inductive Run where
  | unpowered | held | on | sleep | deep | off
  deriving DecidableEq, Repr

/-! ### TS and IX (09_tasks_arbitration.md) -/

/-- What TS knows of a task beyond its registers: when it became READY (R403: twice the LOCAL tick, and 1 more where a yield put it at the
tail of its priority, R408), whether it was pre-empted since its
last dispatch (R397), and whether a disable waits for its next dispatch out (Table 9.13). -/
structure TaskX where
  order : Nat := 0
  preempted : Bool := false
  disable : Bool := false
  deriving DecidableEq, Repr

/-- A dispatch target (R402 to R409): whether its dispatch interrupt is raised, the outgoing and incoming task fixed at the
read of TS_DISP, whether the running task has yielded (and with END), whether it is being emptied for a rejoin, and whether the trap of
the present dispatch interrupt has been taken (R368). -/
structure Target where
  irq : Bool := false
  fixed : Option (Option Nat × Option Nat) := none
  yielding : Option Bool := none
  drain : Bool := false
  taken : Bool := false
  deriving DecidableEq, Repr

/-- An outstanding ticket of a flow (R417, R419): its number, its holder, its completion (dropped, result), and the LOCAL tick at which its
holder's fault completed it (R421, Table 9.6). -/
structure Ticket where
  id : Nat
  holder : Nat
  done : Option (Bool × Nat)
  faultAt : Option Nat := none
  deriving DecidableEq, Repr

/-- A push held at a full queue (R415): whether a core made it and as which requester, its data, and the LOCAL tick it came at. -/
structure HeldPush where
  core : Bool
  who : Nat
  data : Nat
  at_ : Nat
  deriving DecidableEq, Repr

/-- TS beyond its registers: queues oldest entry first, the pushes held at a full queue (R415), the outstanding tickets of each flow, oldest
first, the flags (task, flag) that events set at LOCAL tick `evAt`, and the queues found empty by a pop at LOCAL tick `popAt`, each with the
requester of the pop (Table 9.6). -/
structure Ts where
  tasks : Sparse TaskX := []
  target : Two Target := ⟨{}, {}⟩
  queues : Sparse (List Nat) := []
  held : Sparse (List HeldPush) := []
  flows : Sparse (List Ticket) := []
  evAt : Nat := 0
  evSet : List (Nat × Nat) := []
  popAt : Nat := 0
  popped : List (Nat × Nat) := []
  deriving DecidableEq, Repr

/-- IX beyond its registers: the requester granted last without tally at each target (R424), and, per target and requester
(key 16 t + r), the tally given at the renewal and the cost served since (R428), the tick of the last renewal, whether the throttle pause of
the present period is over (R644), and the tick of the last write of each weight with the weight before that tick's writes (Table 9.6). -/
structure Ix where
  last : Sparse Nat := []
  given : Sparse Nat := []
  served : Sparse Nat := []
  renewed : Option Nat := none
  throttleEnd : Bool := false
  wrote : Sparse (Option (Nat × Nat)) := []
  deriving DecidableEq, Repr

/-! ### FM (13_faults.md) -/

/-- FM beyond its registers: the sources whose trap-pending bit is set, the set of the trap taken (R561), the time of the
latest event with E and whether PREL was written after it (R557), the entries written in the present tick as (source, SEQ)
(R568), the outer cycles for which SELF_OK stays clear (R555), the tick after the one in which each source's event or held cause was
last seen (R565; 0: never), the sources whose tallies changed since the last snapshot, whether a
recovery counter did (R570), the sources that changed in the snapshot being committed (R619), and the sources that their blocks raised at
LOCAL tick `raisedAt` (R552). -/
structure Fm where
  trapBits : List Nat := []
  trapSet : Option (List Nat) := none
  lastE : Option Nat := none
  prel : Bool := false
  tick : Nat := 0
  tickSrc : List (Nat × Nat) := []
  selfHold : Nat := 0
  busyAt : Sparse Nat := []
  changed : List Nat := []
  talliedAt : Nat := 0
  tallied : List Nat := []
  recChanged : Bool := false
  recovered : Option (Nat × List (Nat × Nat)) := none
  blockUntil : Sparse (Option Nat) := []
  reported : List Nat := []
  raisedAt : Nat := 0
  raised : List Nat := []
  deriving DecidableEq, Repr

/-! ### GD (07_gate_drive.md) -/

/-- The profile a gate output follows: none since reset, or a turn-on, turn-off or soft turn-off, by phase (Table 7.2,
R349). -/
inductive Edge where
  | on | off | soft
  deriving DecidableEq, Repr

/-- One switch of a bridge: its control input, the edge it follows, the phase of the profile (1, 2 or 3), the profile word
taken at the start of the edge (R333), the tick at which the edge began, whether a turn-on waits for the dead time, and when the latest
turn-on began. Before the first edge the output holds with the reset profile (log entry 170). -/
structure Sw where
  inp : Bool := false
  edge : Edge := .off
  phase : Nat := 3
  prof : Nat := 0xF4F05005
  start : Nat := 0
  waiting : Bool := false
  onAt : Nat := 0
  deriving DecidableEq, Repr

/-- A short sequence in progress (R347, R348): the time it is anchored at, whether it is the two-leg case, the legs
detected, and the stages of Table 7.4 already taken; of the sample at t_d also the high sides, low sides and hard-short phases it detected
and the switches as they stood before it, for a detection that still joins that sample (R347). -/
structure ShortSeq where
  at_ : Nat
  twoLeg : Bool
  legs : BitVec 3
  stage : Nat
  sample : Nat × Nat × Nat
  was : List (Nat × Sw)
  deriving DecidableEq, Repr

/-- GD beyond its registers: the twelve switches (key 6 b + 2 phase + (1 for the high side)), the short sequence of each
bridge, and the LOCAL tick at which EN_x fell (below 0: before the present count). -/
structure Gd where
  sw : Sparse Sw := []
  short : Two (Option ShortSeq) := ⟨none, none⟩
  enLow : Option Int := none
  deriving DecidableEq, Repr

/-! ### FC and AM (05_field_control.md) -/

/-- A phase's pulse in one interval (R228): its start and length in subticks of 625 ps. -/
structure Pulse where
  start : Nat := 0
  len : Nat := 0
  deriving DecidableEq, Repr

/-- A bridge as FC runs it: the duties committed that wait for a loading point, latest first, with their ticks (R234), the duties of the interval that runs and of the one before
it, their pulses, those of the interval before, the predicted sets in succession and the phases chosen for a forced window (R247) with its stage, the
previous sample set (R244: VDC, ANG and the three currents), the count of sampling instants, the ZERO periods left and
whether the preload exceeded LIMIT (R256, R258), the ramp's start, when the lock timer started (R267), and the received share. -/
structure FcBr where
  commits : List (Nat × List Int) := []
  duty : List Int := []
  dutyPrev : List Int := []
  pulse : List Pulse := []
  pulsePrev : List Pulse := []
  nPred : Nat := 0
  forcing : Nat := 0
  chosen : List Nat := []
  prevVdc : Int := 0
  prevAng : Nat := 0
  prevI : List Int := []
  instant : Nat := 0
  sampled : List Int := []
  status : Nat := 0
  zeroLeft : Nat := 0
  aboveLimit : Bool := false
  aboveClamp : Bool := false
  base : List Int := []
  rampAt : Option Nat := none
  lockAt : Option Nat := none
  received : Int := 0
  measureAt : Nat := 0
  waitSince : Nat := 0
  ceil : Bool := false
  deriving DecidableEq, Repr

/-- FC and AM beyond their registers: a carrier change that waits for the next valley (R224), the alignment errors out of
bounds in succession (R117), the latest error in subticks of 625 ps (R116), the sums of an offset calibration and the sampling instants of
each bridge that it still takes (R275), whether the latest instant was a peak, its tick, and the latest valley of the carrier and the next
one, in subticks of LOCAL (R115). -/
structure Fc where
  br : Two FcBr := ⟨{}, {}⟩
  carNext : Option (Nat × Nat) := none
  misaligned : Nat := 0
  alignErr : Int := 0
  calSum : List Nat := []
  calLeft : Two Nat := ⟨0, 0⟩
  lastPeak : Bool := false
  instAt : Option Nat := none
  valley : Option Int := none
  nextValley : Int := 0
  deriving DecidableEq, Repr

/-! ### CP (08_core_pair.md) -/

/-- What a core was answered (R365): read data, and whether the access ended with a bus error response. -/
structure Answer where
  data : Word := 0
  error : Bool := false
  deriving DecidableEq, Repr

/-- The core pair beyond its registers: the programmer-visible registers of each core at its last gate boundary, PMP regions and privilege
mode among them (R361), the answer it got there (R365), the value its last read of R362 or R363 returned, the mcause of the interrupt it took last (R404, R560), LOCAL at the last lane reset
(Table 8.1), the current snapshot of each core (R372), the journal as (address, mask, old
word), newest first, each core's input log, oldest first, the cause of the last checkpoint (Table 8.2), a split (its lead) or debug
halts (their cores, in order of request) that wait for the next checkpoint, whether PM asks for a checkpoint (R631), the events since the last checkpoint, newest first (0 or 1: a timeout with that
core late; 2: any other; R380), the LOCAL tick at which DRAIN expires, whether QUALIFIED awaits the departure after a rejoin (R388),
whether both cores stand in WFI, whether FM's trap waits for a boundary (R560), the shared windows in force (R375), whether a
disagreement or a clear IN_STEP was seen since the split, whether a debug session is open, an internal fault since lane reset, and
the cores that debug steps. -/
structure Cp where
  regs : Two CoreRegs := ⟨⟨0, [], [], []⟩, ⟨0, [], [], []⟩⟩
  machine : Two Bool := ⟨true, true⟩
  answer : Two Answer := ⟨{}, {}⟩
  csr : Two Word := ⟨0, 0⟩
  mcause : Two (Option Word) := ⟨none, none⟩
  resetAt : Nat := 0
  snap : Two CoreRegs := ⟨⟨0, [], [], []⟩, ⟨0, [], [], []⟩⟩
  journal : List (Nat × BitVec 4 × Word) := []
  inlog : Two (List (Nat × Word)) := ⟨[], []⟩
  cause : Nat := 0
  splitReq : Option Nat := none
  haltReq : List Nat := []
  pmReq : Bool := false
  events : List Nat := []
  drainAt : Option Nat := none
  afterRejoin : Bool := false
  wfi : Bool := false
  trap : Bool := false
  shared : List Nat := []
  sawDisagree : Bool := false
  lostStep : Bool := false
  debugOpen : Bool := false
  fault : Bool := false
  stepping : Two Bool := ⟨false, false⟩
  deriving DecidableEq, Repr

/-! ### SM and SX (12_safety.md) -/

/-- The deputy's measurement of an actuator (R513 to R515): the hall code and whether one was seen since reset, the time and
direction of the last legal edge, the magnitude that edge gave, whether the fused feedback is in use and the fused position the
count was last advanced at, and since when the speed has exceeded the envelope of a stop (R524). -/
structure SmAct where
  known : Bool := false
  code : Nat := 0
  last : Option Nat := none
  dir : Int := 1
  mag : Nat := 0
  fused : Bool := false
  fusedPos : Int := 0
  exceeded : Option Nat := none
  deriving DecidableEq, Repr

/-- A safety input (R531 to R534): the level of the last counted sample and since when it has held, the level just before
the test pulse in progress, and the pulses passed in succession. -/
structure SmIn where
  level : Bool := false
  since : Option Nat := none
  before : Bool := false
  passed : Nat := 0
  deriving DecidableEq, Repr

/-- A test pulse (R532): when it started and ends, and whether its inputs have been tested (R533). -/
structure SmPulse where
  start : Nat
  until_ : Nat
  tested : Bool
  deriving DecidableEq, Repr

/-- The deputy beyond its registers: the two measurements, the inputs, the time and levels of the last sample and the levels of the one before,
the last decision to assert the torque-off line (Table 12.7), the last pulse of each test output, and the running stop (R522): its start, the speeds recorded, its operation, since when both speeds have been at
or below SPEED_MAX (R525), and the tick up to which its conditions are watched. -/
structure Sm where
  act : Two SmAct := ⟨{}, {}⟩
  inp : Sparse SmIn := []
  sampledAt : Option Nat := none
  raw : Nat := 0
  was : Nat := 0
  toffAt : Option Nat := none
  pulses : Sparse (Option SmPulse) := []
  v0 : Two Nat := ⟨0, 0⟩
  stopAt : Nat := 0
  stopOp : Option Nat := none
  slow : Option Nat := none
  watchedAt : Nat := 0
  deriving DecidableEq, Repr

/-- A safety connection beyond its registers: whether a unit was sent or accepted since EN was set, and when the last was
accepted (R540, R542, R544). -/
structure SxConn where
  begun : Bool := false
  lastAt : Nat := 0
  deriving DecidableEq, Repr

/-- SX beyond its registers: the connections, and the units handed to their routes, oldest first (R540). -/
structure Sx where
  conn : Sparse SxConn := []
  out : List (Nat × List Byte) := []
  deriving DecidableEq, Repr

/-! ### HL (14_host_orders.md) -/

/-- Where an order came from, and so where its answer goes: a host route, the running script, another lane's relay
request, or a firmware mode request. -/
inductive Origin where
  | host (route part tag : Nat)
  | script
  | relay (lane : LaneId) (part tag : Nat)
  | firmware
  | relayFw (lane : LaneId)
  deriving DecidableEq, Repr

/-- A mode request that waits for a watch evaluation (R98 to R100): its rank (2 SUPERVISOR, 3 SERVICE, 1 firmware), its
partition, its target, and who is to be answered. -/
structure ModeReq where
  rank : Nat
  part : Nat
  target : Nat
  origin : Origin
  deriving DecidableEq, Repr

/-- What an abortable operation is. -/
inductive OpKind where
  | stop | ramp | power | script | record (slot : Nat) | bist
  deriving DecidableEq, Repr

/-- An open operation (R600, R612, R617). -/
structure Op where
  id : Nat
  part : Fin 4
  route : Nat
  kind : OpKind
  committed : Bool
  deriving DecidableEq, Repr

/-- An outstanding order (R589, R594): partition, tag, operation code and route. -/
structure Tag where
  part : Nat
  tag : Nat
  op : Nat
  route : Nat
  deriving DecidableEq, Repr

/-- A message for the relay element (Table 14.4): its eight words. -/
abbrev RelayMsg := List Nat

/-- A relayed order whose results are awaited (R606): partition, tag, header word, addressed lanes, the codes and operation
numbers that came (the lane's own included), and when it is lost (a time for a MODE order, a count of sailings else). -/
structure Await where
  part : Nat
  tag : Nat
  op : Nat
  addressed : List LaneId
  results : List (LaneId × Nat × Nat)
  modeDue : Option Nat
  sailings : Nat
  script : Bool
  deriving DecidableEq, Repr

/-- A loaded script (R621): whether it may run, and the partition that loaded it. -/
structure Script where
  runnable : Bool := false
  part : Nat := 0
  deriving DecidableEq, Repr

/-- The running script (R622): slot, the word its next step is at, the last code (256: not answered yet), the operation its last ORDER started and how it ended
(true: COMPLETED), its own operation number, its partitions, whether its commit point has passed, and the wait it is in (true: WAIT_OP). -/
structure ScriptRun where
  slot : Nat
  pc : Nat
  code : Nat
  op : Option Nat
  opDone : Option Bool
  opid : Nat
  part : Nat
  committed : Bool
  waiting : Option (Bool × Nat)
  deriving DecidableEq, Repr

/-- A RAMP in progress (R611): the target word, start, final and step, its first sailing, its operation, and whether its
commit point has passed. -/
structure Ramp where
  word : Nat
  start : Int
  final : Int
  step : Int
  sailing : Nat
  opid : Option Nat
  committed : Bool
  deriving DecidableEq, Repr

/-- A report that waits in a route's queue: its header word (with RSEQ) and arguments. -/
structure Report where
  hdr : Nat
  args : List Nat
  deriving DecidableEq, Repr

/-- A response that waits in a partition's queue: its route, header word and arguments. -/
structure Response where
  route : Nat
  hdr : Nat
  args : List Nat
  deriving DecidableEq, Repr

/-- A frame that a lane sent: its route, its identifier (TXID on CAN FD, R586), and its symbols; on the command link they end with the first of
the K28.5 that the line shows until the next frame (R583). -/
structure HostFrame where
  route : Nat
  canId : Nat
  syms : List Sym
  deriving DecidableEq, Repr

/-- HL beyond its registers: outstanding tags, the response queue of each partition, the report queue and RSEQ of each route, the relay
queue, the relayed orders that wait for results, the open operations, the scripts, the ramps, the routes whose LINK_UP is still to show
FRESH (R595), the words of the last unit accepted from the selected motion host, and the frames that landed in host berths and wait to be taken, as (node,
words), oldest first (R585), and when the command link lost its sync last (Table 14.11). `sent` lists what has left, oldest first. -/
structure Hl where
  tags : List Tag := []
  resp : Sparse (List Response) := []
  reports : Sparse (List Report) := []
  rseq : Sparse Nat := []
  relayQ : List RelayMsg := []
  await : List Await := []
  ops : List Op := []
  nextOp : Nat := 0
  scripts : Sparse Script := []
  run : Option ScriptRun := none
  ramps : List Ramp := []
  fresh : BitVec 3 := 7
  canState : CanState := .active
  linkUp : BitVec 3 := 0
  target : List Nat := []
  inbox : List (Nat × List Nat) := []
  lostAt : Option Nat := none
  sent : List HostFrame := []
  deriving DecidableEq, Repr

/-! ### PM, TM, ST and RS (15_power_thermal_test.md) -/

/-- PM beyond its registers: the operations of the change in progress (requests merged with it add theirs) and of the queued request,
the abort points the entry has passed (R631), the wakes pending (bits of Table 15.1), when the entry passed AP4, when a state was entered,
whether an abort was accepted (R633) or a request for RUN or IDLE came (R637), the levels of the held balls (R638), the raised core
supply (R684), and since when PHYCLK_x has run with PHYRST_x_N low (R683). -/
structure Pm where
  ops : List Nat := []
  qop : Option Nat := none
  passed : Nat := 0
  wakes : Nat := 0
  ap4At : Nat := 0
  enteredAt : Nat := 0
  abort : Bool := false
  recalledBy : Bool := false
  pads : List Nat := []
  vcoreHigh : Bool := false
  phyClk : Option Nat := some 0
  phyUp : Bool := false
  deriving DecidableEq, Repr

/-- TM beyond its registers: the tick of the last sample, the samples in succession in which each die sensor deviated (R642), TJ in
units of 0.125 °C, whether a thermal shutdown holds the lane in reset (R645), and since when the conditions for opening the NV
window have held (R649). -/
structure Tm where
  sampledAt : Option Nat := none
  deviant : Sparse Nat := []
  tj : Int := 0
  hold : Bool := false
  nvSince : Option Nat := none
  deriving DecidableEq, Repr

/-- A BIST order in progress (R656): its operation, the macros, the slices still to test (the first one under test), the
failing slices so far, and whether an abort was accepted. -/
structure Bist where
  opid : Option Nat
  slices : List Nat
  fails : Nat
  abort : Bool
  deriving DecidableEq, Repr

/-- ST beyond its registers: the start of the canary slice under test, when the last began, whether a slice of the present pass
failed, the BIST order, the failing addresses in the repair map (R655), the conditions of sources 152, 153 and 155, the logic
self-test's core, and the fuse burn in progress with the entries it burns. -/
structure St where
  slice : Bool := false
  sliceAt : Option Nat := none
  passFail : Bool := false
  next : Nat := 0
  bist : Option Bist := none
  repair : List Nat := []
  sigFail : Bool := false
  memFail : Bool := false
  exhausted : Bool := false
  lbist : Option Nat := none
  burn : Option (List Nat) := none
  deriving DecidableEq, Repr

/-- A record write in progress (R662): first slot, target bank, the record's words, whether it is being repeated, and its
operation. -/
structure RsWrite where
  slot : Nat
  bank : Nat
  image : List Nat
  repeated : Bool
  op : Option Nat
  deriving DecidableEq, Repr

/-- A record write that waits (R664): header and payload words as requested, and its operation. -/
structure RsPend where
  image : List Nat
  op : Option Nat
  deriving DecidableEq, Repr

/-- The record store: its MRAM by word, from 0x103C_0000 (R659), the writes that wait by first slot, and the write in
progress. -/
structure Rs where
  store : Sparse Nat := []
  pend : Sparse (Option RsPend) := []
  writing : Option RsWrite := none
  deriving DecidableEq, Repr

/-! ### Modes and balls (02_modes.md, 16_pins_electrical.md) -/

/-- A mode change that this lane, as command lane, publishes (R94): target, origin, and the outer cycle at which it takes effect
(`none` until the departure that first carries it). -/
structure Publish where
  target : Nat
  origin : Nat
  cycle : Option Nat
  deriving DecidableEq, Repr

/-- The mode manager beyond its registers: refuge (R102), a lane reset due after the next departure, due now, and whether the berth latched last shows that REFUGE (R39, R560), the requests
that wait for a watch evaluation (R98), the change being published, the change to be adopted with its origin and full cycle
number (R95); the LOCAL tick from which both speeds have been within the limit at every outer tick (R106) and the one at which the
agreed targets were last fresh; the recovery faults of R108 (the split's 100 ms, cycles without an input) and whether one was
reported as deferred (R129); the failed boots in succession and whether the last retry failed (R113), whether the start-test of R125 is pending; whether the firmware
request of SYS_MODE_REQ waits for a result and since when (R111), the time of the last START_TEST_PENDING report (R128), the start of
the last watch, and what the lane's own evaluation found while no lane is eligible (R103). -/
structure Md where
  refuge : Bool := false
  resetNext : Bool := false
  resetReady : Bool := false
  resetShown : Bool := false
  reqs : List ModeReq := []
  publish : Option Publish := none
  pending : Option (Nat × Nat × Nat) := none
  stillSince : Option Nat := none
  targetAt : Option Nat := none
  splitHeld : Bool := false
  inputLost : Nat := 0
  deferred : Bool := false
  bootFails : Nat := 0
  bootStop : Bool := false
  startPend : Bool := false
  fwAt : Option Nat := none
  testReportAt : Nat := 0
  watchAt : Option Nat := none
  localMode : Option (Nat × Nat) := none
  deriving DecidableEq, Repr

/-- The balls a lane reads: straps (R90), fuse codes and their parity (R91), supply in mV, EN_x, the safety inputs, the hall
lines, and whether the crystal is good (R697). -/
structure Pins where
  strap : BitVec 2 := 0
  lFuse : BitVec 2 := 0
  pFuse : BitVec 2 := 0
  parityOk : Bool := true
  vsup : Nat := 13500
  en : Bool := false
  hall : Two Nat := ⟨0, 0⟩
  crystal : Bool := true
  crack : Bool := false
  deriving DecidableEq, Repr

/-! ### XF and the lane ferry (01_triplex.md, 10_ferry.md) -/

/-- An own export element (R460, R461): the words of its front buffer, the age it is sent with, whether it was refreshed
since the last latch point, and its implausible mark. -/
structure Elem where
  words : List Nat := []
  age : Nat := 255
  fresh : Bool := false
  impl : Bool := false
  deriving DecidableEq, Repr

/-- A landed copy of an input element (R439): its value, its tag, and whether it counts (AGE 0, not implausible). -/
structure InCopy where
  value : Int := 0
  tag : Nat := 0
  ok : Bool := false
  deriving DecidableEq, Repr

/-- The exclusion state of one lane's element of one input (R30, R31). -/
structure Excl where
  out : Bool := false
  count : Nat := 0
  deriving DecidableEq, Repr

/-- What a lane keeps of another lane: whether it has declared the link down and whether the link counts as up (R442), the sailings judged without its berth in succession (R60), its health
word as last judged, when its alive line toggled last and that tick while it is less than 75 µs old (R60), whether an outer tick
asks for a fresh DEMAND of it and the sailings in succession without its berth or that DEMAND (R51), and the out-vote of R707 with whether QUALIFIED has been seen clear since. -/
structure Peer where
  down : Bool := false
  up : Bool := false
  missing : Nat := 0
  health : Option Nat := none
  toggled : Option Nat := none
  aliveAt : Option Nat := none
  due : Bool := false
  stale : Nat := 0
  outvoted : Bool := false
  seenClear : Bool := false
  deriving DecidableEq, Repr

/-- A result as it landed fresh (R38): outer cycle, lane, and DEMAND[0], DEMAND[1] and SIGNATURE. -/
structure VoteResult where
  cycle : Nat
  lane : LaneId
  words : List Nat
  deriving DecidableEq, Repr

/-- An agreed set (R439): the cycle number and AGR[0..15]. -/
structure AgrSet where
  cycle : Nat
  agr : List Nat
  deriving DecidableEq, Repr

/-- A state snapshot that a command lane sends, or an importing lane gathers (R72): the first sailing of the series, the lane it comes
from, the cycle j, and the words. -/
structure Series where
  first : Nat
  lane : LaneId
  cycle : Nat
  words : List Nat
  deriving DecidableEq, Repr

/-- XF beyond its registers.
Time and sailings: the offset of ferry time to LOCAL, its last changes (LOCAL tick, offset before), newest first, and whether ferry time was adopted (R434, R435); the sailing that departs next and
whether its latch point has passed; the sailing under way in this lane, whether it has been judged, its relief delay in ticks, whether it
is a relief sailing; the sailing this lane relieved last (R448), whether the last frame's manifest differed from its own (R449), whether it reads only until
the next departure; the time of the last valid frame (R473) and the end of a launch hold (R474).
Berths: the own elements, the SLEW8 values sent and held (R466, R468; received: key 128 lane + element), the own berth of the coming or
present sailing, the berths received, and, as (path, originator), the frames of the sailing whose head came, was accepted, and showed the
lane's manifest. When the latest sailing landed, as a LOCAL tick (R437).
Agreement and vote: what is kept of the other lanes; the input copies and exclusions (key 16 lane + input; R30, R439), the latest agreed
set, whether an input was single-source (R28), the outer cycle of the last tick and the cycles at the last two latch points; the lanes
whose last result differed, the results that landed last (R38), the lanes of an unresolved split (a mask), since when, the equal results
since and the cycle of the last of them (R43); whether QUALIFIED was just set (R77), whether it is clear for SELF_OK (R79, K5), whether the own berth of the judged sailing
showed CLAIM (R47), the sailings in succession in which an isolated lane would have met the quorum (R61), the
command lane declared last.
Shares: the demands commanded (R62) and the milliseconds toward the next rise of each boost budget (R68), and the cycles in succession
in which the command lane's shares disregarded the deputy (R518).
Rejoin and formation: the copy of R709, the series sent and received, whether a lane asked for one before this sailing (R72), the recorded agreed sets, the replayed cycle and whether T2 is
released, and from which outer tick (R705), the sailings aligned and whether a valley of this sailing was not, whether an import waits for a
matching digest (R76), when DRIVE_OK was first set, the bridges that have set it since stage 3 began (R708), the formation cycle,
whether this lane leads or is to publish, and the formation cycle from which its digest excluded it (R118 to R122). -/
structure Xf where
  off : Int := 0
  offPast : List (Nat × Int) := []
  adopted : Bool := false
  next : Nat := 0
  latched : Bool := false
  cur : Option Nat := none
  judged : Bool := false
  delay : Nat := 0
  relief : Bool := false
  relieved : Option Nat := none
  mismatch : Bool := false
  readOnly : Bool := false
  frameAt : Nat := 0
  hold : Nat := 0
  elems : Sparse Elem := []
  slewTx : Sparse (Option Int) := []
  slewRx : Sparse (Option Int) := []
  berth : List Byte := []
  got : Tri (Option (List Byte)) := ⟨none, none, none⟩
  head : List (Nat × LaneId) := []
  accepted : List (Nat × LaneId) := []
  matched : List (Nat × LaneId) := []
  landedAt : Option Nat := none
  peer : Tri Peer := ⟨{}, {}, {}⟩
  copies : Sparse InCopy := []
  excl : Sparse Excl := []
  set : AgrSet := ⟨0, []⟩
  single : Bool := false
  tick : Option Nat := none
  latchTicks : Option Nat × Option Nat := (none, none)
  disagree : Nat := 0
  voted : Option Nat := none
  results : List VoteResult := []
  split : Nat := 0
  unresolvedAt : Option Nat := none
  equalRun : Nat := 0
  justQual : Bool := false
  unqual : Bool := false
  ownClaim : Bool := false
  isoRun : Nat := 0
  cmdWas : Option LaneId := none
  torque : Two Int := ⟨0, 0⟩
  boostMs : Two Nat := ⟨0, 0⟩
  boostAt : Nat := 0
  disregard : Two Nat := ⟨0, 0⟩
  kept : AgrSet := ⟨0, []⟩
  series : Option Series := none
  asked : Bool := false
  gather : Option Series := none
  record : List AgrSet := []
  replay : Option Nat := none
  replayRun : Bool := false
  release : Option Nat := none
  alignRun : Nat := 0
  valleyBad : Bool := false
  waitDigest : Bool := false
  driveAt : Option Nat := none
  okSeen : Two Bool := ⟨false, false⟩
  formF : Option Nat := none
  formLead : Bool := false
  formPub : Bool := false
  formOut : Option Nat := none
  deriving DecidableEq, Repr

/-! ### VF (10_ferry.md) -/

/-- A frame held in a port's transmit buffer (R482). -/
abbrev TxFrame := VFrame

/-- A frame that has left by a port, or waits for it: whether it is a ferry frame, its bytes without the FCS (Table 10.4), and whether its FCS
holds (R452). -/
structure VfOut where
  port : Nat
  ferry : Bool
  bytes : List Byte
  fcsOk : Bool
  deriving DecidableEq, Repr

/-- VF beyond its registers: the own elements and SLEW8 states (received: key 128 node-table index + element), the own berth as latched
for a sailing, the bytes of the unloading pass with its sailing and originator; whether the last frame's manifest differed (R449),
whether the node reads only until the next departure (Table 10.12), the sailing that departed last (R478), the time of the last valid frame
and the end of a launch hold (R473, R474), whether a launch of its own is under way, the cycles in succession without a landing and the
LOCAL tick of the last one; per port the transmit buffer, the LOCAL tick at which the port is free, and the ferry passes that wait
for it, oldest first (R483); and the frames that left, oldest first. -/
structure Vf where
  elems : Sparse Elem := []
  slewTx : Sparse (Option Int) := []
  slewRx : Sparse (Option Int) := []
  berth : Option (Nat × List Byte) := none
  unloading : Option (Nat × Nat × List Byte) := none
  mismatch : Bool := false
  readOnly : Bool := false
  departed : Option Nat := none
  frameAt : Nat := 0
  hold : Nat := 0
  launching : Bool := false
  idle : Nat := 0
  landedAt : Option Nat := none
  tx : Two (List TxFrame) := ⟨[], []⟩
  busy : Two Nat := ⟨0, 0⟩
  waiting : Two (List VfOut) := ⟨[], []⟩
  out : List VfOut := []
  deriving DecidableEq, Repr

/-! ### TB (11_network_time.md) -/

/-- A network time base (R490): its value in 2^-16 ns at a LOCAL tick, and its rate as an offset from LOCAL's in 2^-41
units. -/
structure NetBase where
  at_ : Nat := 0
  val : Int := 0
  rate : Int := 0
  deriving DecidableEq, Repr

/-- A domain beyond its registers: its base, whether it was set since lane reset (R492), a two-step Sync that waits for its
Follow_Up, the Sync that waits to depart and its local time of arrival (R497), when it became SYNCED (R502), whether it was SYNCED since lane reset, the origin
time and correction of the Sync that departed last, and the LOCAL ticks of the latest Sync applied and of the latest Announce, with the
interval that this one names in ticks (R499). -/
structure Dom where
  base : NetBase := {}
  set : Bool := false
  waiting : Option SyncMsg := none
  relay : Option SyncMsg := none
  syncedAt : Nat := 0
  wasSynced : Bool := false
  sent : Option (Nat × Int × Int) := none
  relayAt : Nat := 0
  syncAt : Nat := 0
  annAt : Nat := 0
  annTicks : Nat := 0
  deriving DecidableEq, Repr

/-- A port beyond its registers (R495), times in 2^-16 ns: when its last request left (LOCAL) and whether an answer is awaited, when the
neighbour received it and when the answer arrived, and the last pair of times the neighbour rate ratio was formed from. -/
structure TbPort where
  t1 : Option Nat := none
  t2 : Nat := 0
  t4 : Nat := 0
  prev : Option (Nat × Nat) := none
  reqOut : Bool := false
  deriving DecidableEq, Repr

/-- A gPTP message that has left by a port (R495, R497): a Sync of a domain with its origin time, correction and rate ratio; an Announce with
its grandmaster, stepsRemoved and path trace; a peer-delay request; the answer to a neighbour's request and its follow-up, with the times
t2 and t3. -/
inductive GptpOut where
  | sync (d port origin : Nat) (corr rr : Int)
  | announce (d port gm hops : Nat) (path : List Nat)
  | pdelayReq (port : Nat)
  | pdelayResp (port : Nat) (t2 : Int)
  | pdelayRespFollowUp (port : Nat) (t3 : Int)
  deriving DecidableEq, Repr

/-- What a RESYNC changed, with its LOCAL tick: VALID, SRC, HOLD and SLEWING, vehicle time and the comparators (Table 11.3). -/
structure Resync where
  at_ : Nat
  valid : Nat
  src : Nat
  hold : Nat
  slewing : Nat
  veh : NetBase
  fired : Sparse Bool
  deriving DecidableEq, Repr

/-- TB beyond its registers: LOCAL, the domains, vehicle time, the ports, the HI words latched by a read of LO (R506; key
16 r + base, or 16 r + 8 + pair of TB_SNAP_VAL), whether each comparator has fired since its TIME was set, the tick at which vehicle time left holdover,
a RESYNC that VF_CTRL.EN written in the same tick refuses, and the gPTP messages that left, oldest first. -/
structure Tb where
  local_ : Nat := 0
  dom : Two Dom := ⟨{}, {}⟩
  veh : NetBase := {}
  port : Two TbPort := ⟨{}, {}⟩
  hi : Sparse (Option Nat) := []
  fired : Sparse Bool := []
  resumedAt : Option Nat := none
  resync : Option Resync := none
  out : List GptpOut := []
  deriving DecidableEq, Repr

/-! ### LE (03_loop_engine.md, 04_compensators.md) -/

/-- Words an OUT has staged (R161): port, element K, words. -/
structure Staged where
  port : Nat
  elem : Nat
  words : List Nat
  deriving DecidableEq, Repr

/-- A dispatched program (R143): its trigger, its firing tick, where the next instruction is, the accumulator in units of
2^-60 with its saturation state, the flags, whether S was ever set, what is staged, the events seen since dispatch (R159),
the tick at which a WAIT in progress began, the C22 and C33 steps of this run by record (R197: the y1 word, `none` where the
step did not count), whether it is a replay run, and the cycle of the agreed set it runs on (R709). -/
structure LeRun where
  trig : Nat
  fired : Nat
  deadline : Nat
  pc : Nat
  acc : Int
  accSat : Bool
  n : Bool
  z : Bool
  s : Bool
  t : Bool
  satur : Bool
  staged : List Staged
  seen : BitVec 4
  wait : Option Nat
  steps : Sparse (Option Nat)
  replay : Bool
  cycle : Nat
  deriving DecidableEq, Repr

/-- A firing that waits for dispatch (R141): trigger, firing tick, deadline tick. -/
structure Firing where
  trig : Nat
  fired : Nat
  deadline : Nat
  deriving DecidableEq, Repr

/-- A program swap that has passed its scan (R177). -/
structure Swap where
  trig : Nat
  entry : Nat
  limit : Nat
  cycle : Option Nat
  deriving DecidableEq, Repr

/-- LE beyond its registers: the three stores (Table 3.1), the pending low half (R136), the running program (first) and the
pre-empted ones below it, the pending firings, the scans in progress (a scan for an enable, or for a swap), the swap, the
records being copied (R206), the words frozen for the digest (R215), the slow PACE readings in succession (R164), XF's initial-state buffer
(R192), and the tick after the last firing of each trigger (R142; 0: none). -/
structure Le where
  prog : Sparse Nat := []
  low : Option (Nat × Nat) := none
  sig : Sparse Nat := []
  coef : Sparse Nat := []
  runs : List LeRun := []
  pending : List Firing := []
  scans : Sparse (Option Swap) := []
  swap : Option Swap := none
  copying : List Nat := []
  frozen : Sparse (List Nat) := []
  pace : Nat := 0
  initBlock : List Nat := []
  firedAt : Sparse Nat := []
  deriving DecidableEq, Repr

/-! ### AF (06_angle_speed.md) -/

/-- An entry of the observer's record: a legal fused edge (R282), with its set's lane, its index j, its timestamp in ferry ticks and whether it
is backward; or, with an index from 18 on, another happening that the observer takes in time order (`ObsCfg.apply`), a settled angle with
its fused sector. `fusion` holds the sets in fusion when the entry came (R290). -/
structure FEdge where
  lane : LaneId
  j : Nat
  time : Int
  back : Bool
  fusion : List LaneId := []
  sec : Nat × Nat := (0, 0)
  deriving DecidableEq, Repr

/-- An edge a lane publishes (Table 6.2): line, level, timestamp. -/
structure HEdge where
  line : Nat
  level : Nat
  time : Int
  deriving DecidableEq, Repr

/-- The observer's state (R291 to R305): the unwrapped angle set at the last edge and the edge's time, the speed estimate
in 2^-32 ecounts per tick, the edges in the same direction (unwrapped angle, time), newest first, the qualifiers, the clean
edges counted toward R299, the index of the last edge and the count of edges, the sets in fusion at the last edge (Table 6.6), and the
unwrapped angle of the latest edge of each set, from which its next one is expected (R296). -/
structure Obs where
  theta : Int := 0
  last : Option Int := none
  lastJ : Nat := 0
  lastLane : LaneId := .A
  omega : Int := 0
  window : List (Int × Int) := []
  back : Bool := false
  squal : Bool := false
  still : Bool := false
  loss : Bool := false
  avalid : Bool := false
  clean : Nat := 0
  edges : Nat := 0
  lost : Nat := 0
  fusion : List LaneId := []
  seen : Tri Int := ⟨0, 0, 0⟩
  deriving DecidableEq, Repr

/-- A hall set as a receiving lane sees it (R288 to R290): whether a code was seen since reset, whether the set is in fusion, its code,
its legal edges in succession within and beyond 10° of the prediction, the sailings without a fresh element, whether this
sailing's element was taken, and the last change of a full element (lines and levels, time), which the next element may continue (R280, R285). -/
structure HallSet where
  known : Bool := false
  fusion : Bool := false
  code : Nat := 0
  good : Nat := 0
  bad : Nat := 0
  missing : Nat := 0
  taken : Bool := false
  cut : Option (List (Nat × Nat) × Int) := none
  deriving DecidableEq, Repr

/-- AF's state for one actuator: the three sets, the observer before the replay horizon and now, the same observer without the edges of each
set (R289), the entries within the horizon in order (R291), the observer as it stood before the edges of this tick came with their tick
and the timestamps of the edges since then (Table 6.6), the sets in fusion at the last sampling instant (R290), the own edges that wait to be published (R285), the own set's loss conditions (R307), the encoder (R310 to
R314) and the present output levels. -/
structure AfAct where
  sets : Tri HallSet := ⟨{}, {}, {}⟩
  base : Obs := {}
  without : Tri Obs := ⟨{}, {}, {}⟩
  recent : List FEdge := []
  obs : Obs := {}
  late : Bool := false
  before : Option (Nat × Obs × Bool) := none
  tickEdges : List Int := []
  instantSets : Nat := 0
  out : List HEdge := []
  ownLost : Bool := false
  ownCount : Nat := 0
  ownBack : Bool := false
  codeAt : Nat := 0
  illegal : List Nat := []
  others : Nat := 0
  p0 : Int := 0
  t0 : Int := 0
  pHold : Int := 0
  encDrain : Bool := false
  encAt : Nat := 0
  above : Bool := false
  lastInstant : Int := 0
  ab : BitVec 2 := 0
  z : Bool := false
  deriving DecidableEq, Repr

/-- A SENT channel beyond its registers (R316 to R318). -/
structure SentCh where
  prevCal : Option Nat := none
  bits : List (Bool × Bool) := []
  lastAt : Nat := 0
  words : List Nat := []
  deriving DecidableEq, Repr

/-- AF beyond its registers; `codes` holds the analog codes converted since the previous departure (R319). -/
structure Af where
  act : Two AfAct := ⟨{}, {}⟩
  sent : Two SentCh := ⟨{}, {}⟩
  codes : Sparse (List Nat) := []
  deriving DecidableEq, Repr

/-! ### A lane, the ring and the machine -/

/-- One lane. `regs` holds every register field that differs from its value after power-on reset, by `Fld.key`. -/
structure Lane where
  me : LaneId
  run : Run := .on
  regs : Sparse Nat := []
  free : Nat := 0
  md : Md := {}
  le : Le := {}
  fc : Fc := {}
  af : Af := {}
  gd : Gd := {}
  cp : Cp := {}
  ts : Ts := {}
  ix : Ix := {}
  xf : Xf := {}
  vf : Vf := {}
  tb : Tb := {}
  sm : Sm := {}
  sx : Sx := {}
  fm : Fm := {}
  hl : Hl := {}
  pm : Pm := {}
  tm : Tm := {}
  st : St := {}
  rs : Rs := {}
  pins : Pins := {}
  deriving DecidableEq, Repr

/-- A frame of the lane ferry on the ring (R440, R450): the lane that sent it, its path, its kind (1 main frame, 2 tail, 3 launch), the lane a
launch left last, the directions of the links that carried valid line code when it was sent, and its bytes: the header of Table 10.3, then
the berths of A, B and C, or one berth. -/
structure RingFrame where
  orig : LaneId
  path : Nat
  kind : Nat
  place : LaneId
  rx : List (LaneId × LaneId)
  bytes : List Byte
  deriving DecidableEq, Repr

/-- The lane ferry between the lanes: the frames on it, and the directions of its links that count as valid, as (receiver, sender). A
receiver that has declared its link down sends the link-down code on the other direction, so that the link counts as up only with both
(R442). -/
structure Net where
  frames : List RingFrame := []
  rx : List (LaneId × LaneId) := []
  deriving DecidableEq, Repr

/-- A lane's memory (Table 0.4): (address, byte) pairs, addresses rising, none equal to what an unlisted address reads
as. -/
abbrev Mem := List Host.Cell

/-- The machine: the commands that wait (first in, first out), the three lanes, their memories, and the ring. -/
structure State where
  pending : List Instr
  lanes : Tri Lane
  mem : Tri Mem
  net : Net
  deriving DecidableEq, Repr

/-- Why the machine stops with a fault. No meaning of this model does: every effect of spec/ is a next state. -/
inductive Fault where
  /-- An access to an address that Table 0.4 does not have, made past the bus that answers it with an error (R10). Nobody
  raises it: the bus answers every access. Safe. -/
  | noSuchAddress
  deriving DecidableEq, Repr

/-- Why a command has no meaning. -/
inductive Refusal where
  /-- The command's meaning has not been written. Raised by the dispatcher's arm. Safe. -/
  | notModelled (mnemonic : String)
  deriving DecidableEq, Repr

/-- The code of a lane: A 0, B 1, C 2 (R90; the node number of R453). -/
def laneNum : LaneId → Nat
  | .A => 0
  | .B => 1
  | .C => 2

/-- A lane right after its power-on reset is released: every register at its power-on value, the fuse codes and the straps those
of its position (R90 to R92), EN_x low by its pull-down (Table 16.3). -/
def Lane.atPowerOn (x : LaneId) : Lane :=
  { me := x
    regs :=
      if x = .A then [(Reg.SYS_LANE_ID_MATCH.key, 1)]
      else [(Reg.SYS_LANE_ID_STRAP.key, laneNum x), (Reg.SYS_LANE_ID_LDIE_FUSE.key, laneNum x),
        (Reg.SYS_LANE_ID_PDIE_FUSE.key, laneNum x), (Reg.SYS_LANE_ID_MATCH.key, 1)]
    gd := { enLow := some 0 }
    pins := { strap := BitVec.ofNat 2 (laneNum x), lFuse := BitVec.ofNat 2 (laneNum x), pFuse := BitVec.ofNat 2 (laneNum x) } }

/-- The machine right after reset: all three lanes released from power-on reset and in BOOT, nothing waiting, no memory
listed, no sailing under way (log entries 1 and 2). -/
def State.reset : State :=
  { pending := []
    lanes := ⟨Lane.atPowerOn .A, Lane.atPowerOn .B, Lane.atPowerOn .C⟩
    mem := ⟨[], [], []⟩
    net := {} }

end Sys2Proof.Machine
end

