-- ==== Sys2Proof/Machine/Ops.lean ====
section
/-! DEFINITION. The named operations every meaning is written with: tables in canonical form, registers by field,
free values, the module's clock, and the shapes of a command's effect (on a running lane, at the instant it is due). -/

namespace Sys2Proof.Machine

/-! ### Tables -/

/-- The value a table gives a key; `d` where the key is not listed. -/
def spGet (d : α) (k : Nat) : Sparse α → α
  | [] => d
  | (j, v) :: t => if k = j then v else spGet d k t

/-- A table without a key. -/
def spDel (k : Nat) : Sparse α → Sparse α
  | [] => []
  | (j, v) :: t => if k = j then spDel k t else (j, v) :: spDel k t

/-- A table with a key's value entered, keys rising. -/
def spIns (k : Nat) (v : α) : Sparse α → Sparse α
  | [] => [(k, v)]
  | (j, w) :: t => if k < j then (k, v) :: (j, w) :: t else if k = j then (k, v) :: t else (j, w) :: spIns k v t

/-- A table with a key's value set; the default value is not listed, so that equal tables are equal data. -/
def spSet [DecidableEq α] (d : α) (k : Nat) (v : α) (l : Sparse α) : Sparse α :=
  if v = d then spDel k l else spIns k v l

/-- Whether a table is in canonical form: keys rising, no entry equal to the default. -/
def spWf [DecidableEq α] (d : α) : Sparse α → Bool
  | [] => true
  | [(_, v)] => decide (v ≠ d)
  | (j, v) :: (k, w) :: t => decide (j < k) && decide (v ≠ d) && spWf d ((k, w) :: t)

def Two.get (p : Two α) (i : Nat) : α := if i = 0 then p.zero else p.one
def Two.set (p : Two α) (i : Nat) (v : α) : Two α := if i = 0 then { p with zero := v } else { p with one := v }
def Two.all (p : Two α) (q : α → Bool) : Bool := q p.zero && q p.one

def Tri.get (p : Tri α) : LaneId → α
  | .A => p.a
  | .B => p.b
  | .C => p.c

def Tri.set (p : Tri α) (x : LaneId) (v : α) : Tri α :=
  match x with
  | .A => { p with a := v }
  | .B => { p with b := v }
  | .C => { p with c := v }

/-- The three lanes, in the order A, B, C. -/
def allLanes : List LaneId := [.A, .B, .C]

/-- The lane of a code; code 3 names none. -/
def laneOf : Nat → Option LaneId
  | 0 => some .A
  | 1 => some .B
  | 2 => some .C
  | _ => none

/-- The two other lanes, in the order A, B, C. -/
def others (x : LaneId) : List LaneId := allLanes.filter (· ≠ x)

/-- The lane after `x` in the order A, B, C, A (R440). -/
def nextLane : LaneId → LaneId
  | .A => .B
  | .B => .C
  | .C => .A

/-! ### Bits and numbers -/

/-- Bits `hi` down to `lo` of a number. -/
def bitsOf (v hi lo : Nat) : Nat := v / 2 ^ lo % 2 ^ (hi + 1 - lo)

/-- Bit `i` of a number. -/
def bitAt (v i : Nat) : Bool := v / 2 ^ i % 2 = 1

/-- A number with bit `i` set, and with it cleared. -/
def setBit (v i : Nat) : Nat := if bitAt v i then v else v + 2 ^ i
def clrBit (v i : Nat) : Nat := if bitAt v i then v - 2 ^ i else v
def putBit (v i : Nat) (b : Bool) : Nat := if b then setBit v i else clrBit v i

/-- One bit as a number. -/
def b2n (b : Bool) : Nat := if b then 1 else 0

/-- The bits of a number below `w` that are set, in ascending order. -/
def bitList (v w : Nat) : List Nat := (List.range w).filter (bitAt v)

/-- A `w`-bit number read as signed, and an integer written in `w` bits. -/
def sgn (w v : Nat) : Int := if v % 2 ^ w < 2 ^ (w - 1) then (v % 2 ^ w : Nat) else (v % 2 ^ w : Nat) - (2 ^ w : Nat)
def uns (w : Nat) (i : Int) : Nat := (i % (2 ^ w : Nat)).toNat

/-- A number held between two limits; the upper one prevails. -/
def clampI (lo hi i : Int) : Int := if hi < max i lo then hi else max i lo

/-! ### Registers -/

/-- A register field as it stands, in the bits it has. -/
def Lane.get (L : Lane) (f : Fld) : Nat := spGet f.por f.key L.regs % 2 ^ f.width

/-- A register field set by hardware: the value is cut to the field's width. -/
def Lane.set (L : Lane) (f : Fld) (v : Nat) : Lane :=
  { L with regs := spSet f.por f.key (v % 2 ^ f.width) L.regs }

/-- A one-bit field read and set. -/
def Lane.bit (L : Lane) (f : Fld) : Bool := L.get f ≠ 0
def Lane.setBool (L : Lane) (f : Fld) (b : Bool) : Lane := L.set f (b2n b)

/-- Bit `i` of a field read and set. -/
def Lane.bitOf (L : Lane) (f : Fld) (i : Nat) : Bool := bitAt (L.get f) i
def Lane.putBitOf (L : Lane) (f : Fld) (i : Nat) (b : Bool) : Lane := L.set f (putBit (L.get f) i b)

/-- A field read as signed, and set from an integer. -/
def Lane.getI (L : Lane) (f : Fld) : Int := sgn f.width (L.get f)
def Lane.setI (L : Lane) (f : Fld) (i : Int) : Lane := L.set f (uns f.width i)

/-- A diagnostic counter: it stops at its largest value. -/
def Lane.count (L : Lane) (f : Fld) : Lane :=
  if L.get f + 1 < 2 ^ f.width then L.set f (L.get f + 1) else L.set f (2 ^ f.width - 1)

/-- A counter raised by `n` that stops at its largest value. -/
def Lane.countBy (L : Lane) (f : Fld) (n : Nat) : Lane := L.set f (min (L.get f + n) (2 ^ f.width - 1))

/-- A counter that wraps. -/
def Lane.wrap (L : Lane) (f : Fld) : Lane := L.set f (L.get f + 1)

/-- The part of a written word that falls on a field. -/
def Fld.of (f : Fld) (v : Nat) : Nat := v / 2 ^ f.lo % 2 ^ f.width

/-! ### Free values -/

/-- The lane's next free value (a value spec/ leaves open), and the lane with that value used up. -/
def Lane.takeFree (L : Lane) : Nat × Lane :=
  ((Config.freeWord L.free).toNat, { L with free := L.free + 1 })

/-- The lane's next free choice. -/
def Lane.takeBit (L : Lane) : Bool × Lane :=
  (Config.freeBit L.free, { L with free := L.free + 1 })

/-! ### Time -/

/-- LOCAL, in ticks of 10 ns (R490). -/
def Lane.now (L : Lane) : Nat := L.tb.local_

/-- Ferry time at a LOCAL tick, in ticks: with the offset that was in force then, as far back as its last eight changes (R434, R435). -/
def Lane.ferryAt (L : Lane) (t : Int) : Int := t + L.xf.offPast.foldl (fun o p => if t < p.1 then p.2 else o) L.xf.off

/-- The offset of ferry time from LOCAL changed from now on. -/
def Lane.setOff (L : Lane) (off : Int) : Lane :=
  { L with xf := { L.xf with off := off, offPast := ((L.now, L.xf.off) :: L.xf.offPast).take 8 } }

/-- FERRY: the 64-bit count of ferry time in ticks, 0 until the lane has adopted it and before it reaches 0 (R434, Table 11.5). -/
def Lane.ferry (L : Lane) : Nat := if L.xf.adopted then (L.now + L.xf.off).toNat % 2 ^ 64 else 0

/-- LOCAL at a given ferry time. -/
def Lane.localOf (L : Lane) (ferry : Nat) : Nat := ((ferry : Int) - L.xf.off).toNat

/-- Ticks per µs and per ms. -/
def usTicks : Nat := 100
def msTicks : Nat := 100000

/-- The lane `n` ticks later. LOCAL runs in every state but OFF and without supply (Table 15.1; in DEEP log entry 9). -/
def Lane.advance (n : Nat) (L : Lane) : Lane :=
  match L.run with
  | .unpowered | .off => L
  | _ => { L with tb := { L.tb with local_ := (L.tb.local_ + n) % 2 ^ 64 } }

/-- The module `n` ticks later. -/
def State.advance (n : Nat) (s : State) : State :=
  { s with lanes := ⟨s.lanes.a.advance n, s.lanes.b.advance n, s.lanes.c.advance n⟩ }

/-! ### The shapes of a command's effect -/

/-- A lane of the module, and the module with a lane replaced. -/
def State.lane (s : State) (x : LaneId) : Lane := s.lanes.get x
def State.setLane (s : State) (x : LaneId) (L : Lane) : State := { s with lanes := s.lanes.set x L }

/-- The outcome of a command. -/
abbrev Out := Host.Outcome State Fault Refusal

/-- Whether a lane's fast plane runs: powered, out of reset, and in RUN or IDLE (Table 0.6). -/
def Lane.up (L : Lane) : Bool := L.run = .on

/-- Whether the blocks that also run in SLEEP do (Table 15.1): deputy, FM, TM, the HL receiver, CN. -/
def Lane.awake (L : Lane) : Bool := L.run = .on || L.run = .sleep

/-- A lane's memory: reading and writing one byte. A byte nothing has written reads 0 (log entry 5). -/
def Mem.byte (m : Mem) (a : Nat) : Byte := spGet 0 a m
def Mem.setByte (m : Mem) (a : Nat) (v : Byte) : Mem := spSet 0 a v m

/-- A memory in canonical form: addresses rising, no entry equal to what an unlisted address reads as. -/
def Memory.wf (m : Mem) : Bool := spWf (0 : Byte) m

/-- A word of memory, least significant byte at the lowest address (log entry 6). -/
def Mem.word (m : Mem) (a : Nat) : Nat :=
  (m.byte a).toNat + (m.byte (a + 1)).toNat * 2 ^ 8 + (m.byte (a + 2)).toNat * 2 ^ 16 + (m.byte (a + 3)).toNat * 2 ^ 24

/-- Bytes stored from an address upward. -/
def Mem.store (m : Mem) (a : Nat) : List Byte → Mem
  | [] => m
  | v :: t => Mem.store (m.setByte a v) (a + 1) t

/-- The bytes of a word selected by a mask, bit `i` of which selects byte `i`, stored. -/
def Mem.setMasked (m : Mem) (a : Nat) (mask : Nat) (v : Nat) : Mem :=
  let put (i : Nat) (m : Mem) : Mem := if bitAt mask i then m.setByte (a + i) (BitVec.ofNat 8 (v / 2 ^ (8 * i))) else m
  put 3 (put 2 (put 1 (put 0 m)))

/-- Bytes read from an address upward. -/
def Mem.load (m : Mem) (a : Nat) : Nat → List Byte
  | 0 => []
  | n + 1 => m.byte a :: Mem.load m (a + 1) n

/-- A lane's memory in the machine, and the machine with it replaced. -/
def State.memOf (s : State) (x : LaneId) : Mem := s.mem.get x
def State.setMem (s : State) (x : LaneId) (m : Mem) : State := { s with mem := s.mem.set x m }

/-- The number of list entries that satisfy a test. -/
def countIf (p : α → Bool) : List α → Nat
  | [] => 0
  | a :: t => b2n (p a) + countIf p t

/-- Entry `i` of a list of numbers, 0 beyond its end. -/
def nth (l : List Nat) (i : Nat) : Nat := l.getD i 0

/-- A list with entry `i` replaced, lengthened with `d` where it is shorter. -/
def listPut (d : α) (v : α) : Nat → List α → List α
  | 0, [] => [v]
  | 0, _ :: t => v :: t
  | i + 1, [] => d :: listPut d v i []
  | i + 1, a :: t => a :: listPut d v i t

/-- A function applied to a lane in turn for each entry of a list. -/
def Lane.forEach (L : Lane) (l : List α) (f : α → Lane → Lane) : Lane := l.foldl (fun L a => f a L) L

/-- A lane changed only where a condition holds. -/
def Lane.when (L : Lane) (c : Bool) (f : Lane → Lane) : Lane := if c then f L else L

end Sys2Proof.Machine
end

