-- ==== Sys2Proof/Machine/Flags.lean ====
section
/-! DEFINITION. The fixed-point arithmetic, the rounding and saturation flags, and the check codes that the blocks
share: rounding to nearest with ties to even, saturation with its flag, truncation, the accumulator of the LE, CRC-32C. -/

namespace Sys2Proof.Machine

/-- `n / d` rounded to nearest, ties to even (`d` positive). -/
def roundDiv (n : Int) (d : Nat) : Int :=
  let q := n / (d : Int)
  let r := n % (d : Int)
  if 2 * r < d then q else if (d : Int) < 2 * r then q + 1 else if q % 2 = 0 then q else q + 1

/-- `n / d` truncated toward zero. -/
def truncDiv (n d : Int) : Int := Int.tdiv n d

/-- A value saturated to a signed `w`-bit range, and whether that changed it. -/
def satW (w : Nat) (i : Int) : Int :=
  if i < -((2 ^ (w - 1) : Nat) : Int) then -((2 ^ (w - 1) : Nat) : Int)
  else if ((2 ^ (w - 1) : Nat) : Int) ≤ i then ((2 ^ (w - 1) : Nat) : Int) - 1 else i

def satHit (w : Nat) (i : Int) : Bool := satW w i ≠ i

/-- 1.0 in Q1.30, and 1.0 in Q1.14. -/
def one30 : Int := 1073741824
def one14 : Int := 16384

/-- A Q1.30 value at an interface (R21): shifted right by 16, rounded to nearest with ties to even, 32,768 held at 32,767. -/
def toQ14 (v : Int) : Int :=
  let r := roundDiv v 65536
  if r = 32768 then 32767 else r

/-- The accumulator's range (R148): 72 bits with 60 fraction bits. -/
def accLim : Int := 2361183241434822606848

/-- A sum held at the nearer limit of the accumulator, with its saturation state (R148). -/
def accAdd (acc : Int × Bool) (p : Int) : Int × Bool :=
  let v := acc.1 + p
  if v < -accLim then (-accLim, true)
  else if accLim - 1 < v then (accLim - 1, true)
  else (v, acc.2)

/-- Products added one after another (R149). -/
def accSum (acc : Int × Bool) : List Int → Int × Bool
  | [] => acc
  | p :: t => accSum (accAdd acc p) t

/-- The accumulator rounded once into Q1.30 or Q4.27 (R150): the 32-bit result and flag S. -/
def accRound (acc : Int × Bool) (q27 : Bool) : Int × Bool :=
  let r := roundDiv acc.1 (if q27 then 2 ^ 33 else 2 ^ 30)
  (satW 32 r, satHit 32 r || acc.2)

/-- One bit of a CRC-32C, least significant bit first (polynomial 0x1EDC6F41 reflected; log entry 12). -/
def crcBit (c : Nat) : Nat := if c % 2 = 1 then Nat.xor (c / 2) 0x82F63B78 else c / 2

/-- One byte of a CRC-32C. -/
def crcByte (c : Nat) (b : Byte) : Nat :=
  crcBit (crcBit (crcBit (crcBit (crcBit (crcBit (crcBit (crcBit (Nat.xor c b.toNat))))))))

def crcRun : Nat → List Byte → Nat
  | c, [] => c
  | c, b :: t => crcRun (crcByte c b) t

/-- CRC-32C of a list of bytes. -/
def crc32c (l : List Byte) : Nat := Nat.xor (crcRun 0xFFFFFFFF l) 0xFFFFFFFF

/-- The `n` bytes of a number, most significant first (the order of both ferries and of every frame). -/
def beBytes : Nat → Nat → List Byte
  | 0, _ => []
  | n + 1, v => BitVec.ofNat 8 (v / 2 ^ (8 * n)) :: beBytes n v

/-- A number from its bytes, most significant first. -/
def ofBe : List Byte → Nat
  | l => l.foldl (fun a b => a * 256 + b.toNat) 0

/-- The bytes of a list of words, each most significant byte first. -/
def wordBytes (l : List Nat) : List Byte := l.flatMap (beBytes 4)

/-- The middle of three numbers (R26). -/
def median3 (a b c : Int) : Int := max (min a b) (min (max a b) c)

/-- The mean of two numbers, rounded to nearest with ties to even (R27). -/
def mean2 (a b : Int) : Int := roundDiv (a + b) 2

end Sys2Proof.Machine
end

