-- ==== Sys2Proof/Machine/Operands.lean ====
section
/-! DEFINITION. Operand forms: how a register's word is composed of its fields and how a written word is taken apart,
by the access types of 00_scope.md (R22, R704); and the fields of an LE instruction word (R156). -/

namespace Sys2Proof.Machine

/-- The word of a register, from its fields as they stand (R22: reserved bits read 0). -/
def Lane.word (L : Lane) (fs : List Fld) : Nat :=
  fs.foldl (fun a f => a + L.get f * 2 ^ f.lo) 0

/-- What a write of `v` makes of a field by its access type: W1C clears the bits written 1, W1S sets them, RO and WO keep. -/
def Lane.written (L : Lane) (v : Nat) (f : Fld) : Nat :=
  match f.acc with
  | .rw | .rwl => f.store (f.of v)
  | .w1c => Nat.land (L.get f) (Nat.xor (f.of v) (2 ^ f.width - 1))
  | .w1s => Nat.lor (L.get f) (f.of v)
  | .ro | .wo => L.get f

/-- A write of `v` to the fields of a register. -/
def Lane.writeFlds (L : Lane) (fs : List Fld) (v : Nat) : Lane :=
  fs.foldl (fun M f => M.set f (L.written v f)) L

/-- Whether a write of `v` would change a locked (RWL) field (R704). -/
def Lane.changesLocked (L : Lane) (fs : List Fld) (v : Nat) : Bool :=
  fs.any fun f => f.acc = .rwl && L.written v f ≠ L.get f

/-- Whether a write of `v` would change any of the fields given. -/
def Lane.changes (L : Lane) (fs : List Fld) (v : Nat) : Bool := fs.any fun f => L.written v f ≠ L.get f

/-- The fields of an LE instruction word (Table 3.6). -/
def opOf (w : Nat) : Nat := bitsOf w 63 58
def modOf (w : Nat) : Nat := bitsOf w 57 54
def dOf (w : Nat) : Nat := bitsOf w 51 40
def aOf (w : Nat) : Nat := bitsOf w 39 28
def bOf (w : Nat) : Nat := bitsOf w 27 16
def nOf (w : Nat) : Nat := bitsOf w 15 10
def kOf (w : Nat) : Nat := bitsOf w 9 0

/-- The contents of Table 0.4 that an address falls into. -/
inductive Place where
  | rom | mram | records | sram | retention | registers | nothing
  deriving DecidableEq, Repr

/-- Offsets 0x2000 to 0x3FFF of LE's window answer as an address outside the table does (R133). -/
def placeOf (a : Nat) : Place :=
  if a < 0x10000 then .rom
  else if a < 0x10000000 then .nothing
  else if a < 0x103C0000 then .mram
  else if a < 0x10400000 then .records
  else if a < 0x20000000 then .nothing
  else if a < 0x20800000 then .sram
  else if a < 0x2F000000 then .nothing
  else if a < 0x2F010000 then .retention
  else if a < 0x40000000 then .nothing
  else if 0x40032000 ≤ a && a < 0x40034000 then .nothing
  else if a < 0x40150000 then .registers
  else .nothing

end Sys2Proof.Machine
end

