-- ==== Sys2Proof/Machine/Events.lean ====
section
/-! DEFINITION. What every block reaches for when something happens: TS events and task states (R396 to R404), reports
(R618, R620), the ways a bridge stops (R252, R352), refuge, the deputy's torque-off line (R527), and the raising of a fault
source with its counting and reactions (R551 to R568). -/

namespace Sys2Proof.Machine

/-! ### Modes -/

/-- The mode in force (health word encoding, Table 1.2): 0 BOOT, 1 STARTUP, 2 SERVICE, 3 DEGRADED, 4 LAST-LANE, 5 RECOVERY,
6 WORKSHOP, 7 PARK. -/
def Lane.mode (L : Lane) : Nat := L.get Reg.SYS_MODE_MODE

/-- Whether a mode is of the service class (Table 0.5). -/
def isService (m : Nat) : Bool := m = 2 || m = 3 || m = 4

/-- Whether the core pair is in lockstep (CP_STAT.STATE 0 to 2). -/
def Lane.lockstep (L : Lane) : Bool := L.get Reg.CP_STAT_STATE < 3

/-! ### Task states and events (09_tasks_arbitration.md) -/

def Lane.task (L : Lane) (n : Nat) : TaskX := spGet {} n L.ts.tasks
def Lane.setTask (L : Lane) (n : Nat) (t : TaskX) : Lane := { L with ts := { L.ts with tasks := spSet {} n t L.ts.tasks } }
def Lane.target (L : Lane) (t : Nat) : Target := L.ts.target.get t
def Lane.setTarget (L : Lane) (t : Nat) (g : Target) : Lane := { L with ts := { L.ts with target := L.ts.target.set t g } }

/-- FLAGS AND MASK of a task is not zero (R397). -/
def Lane.wanted (L : Lane) (n : Nat) : Bool := Nat.land (L.get (Reg.TS_TASK_FLAGS_FLAGS n)) (L.get (Reg.TS_TASK_MASK_MASK n)) ≠ 0

/-- The task that runs on a target, if one does. -/
def Lane.running (L : Lane) (t : Nat) : Option Nat :=
  if t = 0 then if L.bit Reg.TS_STAT_VALID0 then some (L.get Reg.TS_STAT_RUN0) else none
  else if L.bit Reg.TS_STAT_VALID1 then some (L.get Reg.TS_STAT_RUN1) else none

/-- Shows the task that runs on a target in TS_STAT. -/
def Lane.setRunning (L : Lane) (t : Nat) (n : Option Nat) : Lane :=
  if t = 0 then (L.set Reg.TS_STAT_RUN0 (n.getD 0)).setBool Reg.TS_STAT_VALID0 n.isSome
  else (L.set Reg.TS_STAT_RUN1 (n.getD 0)).setBool Reg.TS_STAT_VALID1 n.isSome

/-- Whether a READY task may run on a target (R402): in lockstep the pair takes every task; in split running no
safety-class task is dispatched and the affinity names the core. A target being drained takes none (R387), nor is a task taken that the
other target's dispatch already fixed as its incoming one (R405). -/
def Lane.mayRun (L : Lane) (t n : Nat) : Bool :=
  L.get (Reg.TS_TASK_STAT_STATE n) = 2 && !(L.target t).drain && !((L.target (1 - t)).fixed.any fun d => d.2 = some n) &&
  (if L.lockstep then t = 0
   else
    let core := if t = 0 then L.get Reg.CP_STAT_LEAD else 1 - L.get Reg.CP_STAT_LEAD
    let aff := L.get (Reg.TS_TASK_CFG_AFF n)
    !L.bit (Reg.TS_TASK_CFG_SAFE n) && (aff = 0 || aff = core + 1) && !L.bitOf Reg.CP_STAT_ISOLATED core)

/-- Whether task `m` goes before task `n` (R403): higher priority, then READY earlier, then lower number. -/
def Lane.before (L : Lane) (m n : Nat) : Bool :=
  let pm := L.get (Reg.TS_TASK_CFG_PRIO m)
  let pn := L.get (Reg.TS_TASK_CFG_PRIO n)
  pm > pn || (pm = pn && ((L.task m).order < (L.task n).order || ((L.task m).order = (L.task n).order && m < n)))

/-- The task TS selects for a target (R403). -/
def Lane.selected (L : Lane) (t : Nat) : Option Nat :=
  ((List.range 256).filter (L.mayRun t)).foldl
    (fun best n => match best with
      | none => some n
      | some m => if L.before n m then some n else some m) none

/-- A TS interrupt or trap becomes pending for the pair; the lane leaves IDLE (R368, R628). -/
def Lane.wakeCores (L : Lane) : Lane :=
  { (L.when (L.get Reg.PM_STAT_STATE = 1) fun L => L.set Reg.PM_STAT_STATE 0) with cp := { L.cp with wfi := false } }

/-- TS raises the dispatch interrupt on a target whose selected task goes before the running one, or that runs none (R404),
unless a dispatch awaits its acknowledgement there (R405). From AP1 of an entry on TS holds dispatches (R631). -/
def Lane.considerTarget (L : Lane) (t : Nat) : Lane :=
  let g := L.target t
  if g.irq || g.fixed.isSome || (L.bit Reg.PM_STAT_ENTERING && L.pm.passed ≠ 0) then L
  else match L.selected t with
    | none => L
    | some n =>
      match L.running t with
      | some m =>
        if L.get (Reg.TS_TASK_CFG_PRIO m) < L.get (Reg.TS_TASK_CFG_PRIO n) then (L.setTarget t { g with irq := true }).wakeCores else L
      | none => (L.setTarget t { g with irq := true }).wakeCores

/-- Dispatch interrupts on both targets (R402 to R404). -/
def Lane.consider (L : Lane) : Lane :=
  if L.lockstep then L.considerTarget 0 else (L.considerTarget 0).considerTarget 1

/-- A task becomes READY now (R403); `tail` puts it after those of its priority that became READY at this instant (R408). -/
def Lane.makeReady (L : Lane) (n : Nat) (tail : Nat := 0) : Lane :=
  (L.setTask n { L.task n with order := 2 * L.now + tail }).set (Reg.TS_TASK_STAT_STATE n) 2

/-- A task's state after its flags or mask changed (R397). -/
def Lane.settleTask (L : Lane) (n : Nat) : Lane :=
  let st := L.get (Reg.TS_TASK_STAT_STATE n)
  if st = 1 && L.wanted n then (L.makeReady n).consider
  else if st = 2 && !L.wanted n && !(L.task n).preempted then L.set (Reg.TS_TASK_STAT_STATE n) 1
  else L

/-- A flag of a task is set (R398). -/
def Lane.setFlag (L : Lane) (n fl : Nat) : Lane :=
  (L.putBitOf (Reg.TS_TASK_FLAGS_FLAGS n) fl true).settleTask n

/-- Whether an event number names a source (Tables 9.2, 9.16, 15.15): reserved events never fire. -/
def eventExists (s : Nat) : Bool :=
  s < 23 || (32 ≤ s && s < 138) || (144 ≤ s && s < 148) || (152 ≤ s && s < 167) || (168 ≤ s && s < 199)

/-- A flag set by an event stays set against a clear at the same instant (Table 9.6). -/
def Lane.noteSet (L : Lane) (n fl : Nat) : Lane :=
  { L with ts := { L.ts with evAt := L.now, evSet := (n, fl) :: (if L.ts.evAt = L.now then L.ts.evSet else []) } }

/-- TS event `s` occurs (R399). -/
def Lane.event (L : Lane) (s : Nat) : Lane :=
  if eventExists s && L.bit (Reg.TS_ROUTE_EN s) then
    let n := L.get (Reg.TS_ROUTE_TASK s)
    let fl := L.get (Reg.TS_ROUTE_FLAG s)
    (L.noteSet n fl).setFlag n fl
  else L

/-! ### Reports (14_host_orders.md) -/

/-- Whether a route carries an enabled partition of the lane (R582, R618). -/
def Lane.routeUsed (L : Lane) (r : Nat) : Bool :=
  L.bitOf Reg.HL_CTRL_ROUTE_EN r &&
  (List.range 4).any fun p => L.bit (Reg.HL_PART_CFG_EN p) && L.bitOf (Reg.HL_PART_CFG_ROUTES p) r

/-- The header word of a report (R587). -/
def reportHdr (lane : Nat) (rid narg rseq : Nat) : Nat :=
  2 ^ 31 + rid * 2 ^ 24 + lane * 2 ^ 22 + narg * 2 ^ 16 + rseq % 2 ^ 16

/-- A report put into the queue of a route (R620). RSEQ advances in every case; a report without a reserved entry that finds the
queue full is not sent and counted. -/
def Lane.reportOn (L : Lane) (r rid : Nat) (args : List Nat) (reserved : Bool) : Lane :=
  let q := spGet [] r L.hl.reports
  let n := spGet 0 r L.hl.rseq
  let hl := { L.hl with rseq := spSet 0 r ((n + 1) % 2 ^ 16) L.hl.rseq }
  if !reserved && 32 ≤ q.length then ({ L with hl := hl }.count Reg.HL_CNT_RLOST_COUNT).event 130
  else { L with hl := { hl with reports := spSet [] r (q ++ [⟨reportHdr (laneNum L.me) rid args.length n, args⟩]) hl.reports } }

/-- A report marked "all" (Table 14.7). -/
def Lane.reportAll (L : Lane) (rid : Nat) (args : List Nat) : Lane :=
  L.forEach ((List.range 3).filter L.routeUsed) fun r L => L.reportOn r rid args false

/-- A report sent on the routes that subscribed to it (R618). -/
def Lane.reportSubscribed (L : Lane) (sub : Nat → Fld) (rid : Nat) (args : List Nat) : Lane :=
  L.forEach ((List.range 3).filter fun r => L.bit (sub r)) fun r L => L.reportOn r rid args false

/-! ### How a bridge stops (05_field_control.md, 07_gate_drive.md) -/

/-- The key of a switch: bridge, phase (0 U, 1 V, 2 W), side. -/
def swKey (b ph : Nat) (high : Bool) : Nat := 6 * b + 2 * ph + b2n high

def Lane.sw (L : Lane) (k : Nat) : Sw := spGet {} k L.gd.sw
def Lane.setSw (L : Lane) (k : Nat) (w : Sw) : Lane := { L with gd := { L.gd with sw := spSet {} k w L.gd.sw } }

/-- The word of GD_PROF[b][e], as a profile takes it at the start of an edge (R332, R333). -/
def Lane.profile (L : Lane) (b e : Nat) : Nat :=
  L.word [Reg.GD_PROF_PRE_I b e, Reg.GD_PROF_SLOPE_I b e, Reg.GD_PROF_HOLD_I b e, Reg.GD_PROF_SLOPE_T b e, Reg.GD_PROF_PRE_T b e]

/-- A switch turned off with the turn-off profile, from phase 1 (R332, R334); one already off or turning off continues. -/
def Lane.swOff (L : Lane) (k : Nat) : Lane :=
  let w := L.sw k
  if w.edge = .on then
    L.setSw k { w with edge := .off, phase := 1, prof := L.profile (k / 6) 1, start := L.now, waiting := false }
  else L.setSw k { w with waiting := false }

/-- Every switch of a bridge turned off, but for those of its short sequence: a switch in soft turn-off continues it, and in the two-leg case
all six belong to it (Table 7.6). -/
def Lane.bridgeOff (L : Lane) (b : Nat) : Lane :=
  match L.gd.short.get b with
  | some q => if q.twoLeg then L else L.forEach (List.range 6) fun i L => L.swOff (6 * b + i)
  | none => L.forEach (List.range 6) fun i L => L.swOff (6 * b + i)

/-- Every control input of a bridge withdrawn. -/
def Lane.dropInputs (L : Lane) (b : Nat) : Lane :=
  L.forEach (List.range 6) fun i L => L.setSw (6 * b + i) { L.sw (6 * b + i) with inp := false, waiting := false }

def Lane.br (L : Lane) (b : Nat) : FcBr := L.fc.br.get b
def Lane.setBr (L : Lane) (b : Nat) (r : FcBr) : Lane := { L with fc := { L.fc with br := L.fc.br.set b r } }

/-- A bridge enters a state of Table 5.4: 0 OFF, 1 MEASURE, 2 ZERO, 3 RUN, 4 DIRECT; TS event 184 + b on a change. -/
def Lane.setBrState (L : Lane) (b st : Nat) : Lane :=
  if L.get (Reg.FC_BR_STAT_STATE b) = st then L
  else (L.set (Reg.FC_BR_STAT_STATE b) st).event (184 + b)

/-- A bridge moves to OFF (R252): DRIVE_OK clears at once, the share in force is 0 (Table 5.4), REQ reads OFF, GD_DIRECT
returns to 0 (R360), its switches turn off. -/
def Lane.toOff (L : Lane) (b : Nat) : Lane :=
  let L1 := (L.set (Reg.FC_BR_STAT_DRIVE_OK b) 0).set (Reg.FC_BR_CTRL_REQ b) 0
  let L2 := (L1.set (Reg.XF_SHARE_OUT_SHARE b) 0).set (Reg.FC_BR_STAT_RAMP b) 0
  let L3 := (L2.set (Reg.GD_DIRECT_HS b) 0).set (Reg.GD_DIRECT_LS b) 0
  let L4 := L3.setBr b { L3.br b with commits := [], pulse := [], pulsePrev := [], nPred := 0, forcing := 0, chosen := [], zeroLeft := 0, rampAt := none }
  ((L4.setBrState b 0).dropInputs b).bridgeOff b

/-- Both bridges move to OFF. -/
def Lane.allOff (L : Lane) : Lane := (L.toOff 0).toOff 1

/-- The deputy asserts its torque-off line (R527, R529): the assertion is counted once, both bridges move to OFF. -/
def Lane.assertToff (L : Lane) : Lane :=
  let L := { L with sm := { L.sm with toffAt := some L.now } }
  if L.bit Reg.SM_STAT_TOFF then L.allOff
  else (((L.set Reg.SM_STAT_TOFF 1).count Reg.SM_CNT_TOFF_COUNT).event 20).allOff

/-- The deputy releases its line (R530). -/
def Lane.releaseToff (L : Lane) : Lane :=
  if L.bit Reg.SM_STAT_TOFF then (L.set Reg.SM_STAT_TOFF 0).event 20 else L

/-- The lane no longer originates the sailings of its vehicle ring (R449, Table 10.19). -/
def Lane.stopOriginating (L : Lane) : Lane :=
  if L.bit Reg.VF_STAT_SELF_HM then (L.set Reg.VF_STAT_SELF_HM 0).event 155 else L

/-- The lane enters refuge (R5, R102, R528): bridges OFF, the line asserted, the claim withdrawn. -/
def Lane.enterRefuge (L : Lane) : Lane :=
  let L1 := L.assertToff
  ({ L1 with md := { L1.md with refuge := true } }.set Reg.XF_VSTAT_SELF_CMD 0).stopOriginating

/-- Refuge followed by a lane reset after the next departure (R39, R560). -/
def Lane.refugeReset (L : Lane) : Lane :=
  let L1 := L.enterRefuge
  { L1 with md := { L1.md with resetNext := true } }

/-! ### FM (13_faults.md) -/

/-- The sources of Table 13.1; the other numbers are reserved (R550). -/
def sourceExists (s : Nat) : Bool :=
  s < 11 || (16 ≤ s && s < 22) || (24 ≤ s && s < 30) || (32 ≤ s && s < 38) || (48 ≤ s && s < 54) || (64 ≤ s && s < 71) ||
  (80 ≤ s && s < 87) || (96 ≤ s && s < 102) || (112 ≤ s && s < 117) || (120 ≤ s && s < 125) || (128 ≤ s && s < 134) ||
  s = 136 || s = 137 || (140 ≤ s && s < 147) || (152 ≤ s && s < 158) || (160 ≤ s && s < 166) || s = 176

/-- The self-check sources (R573). -/
def isSelfCheck (s : Nat) : Bool := [10, 16, 18, 19, 32, 128].contains s

/-- The sources whose lane-reset column shows "—" (Table 13.1). -/
def noLaneReset (s : Nat) : Bool := [0, 6, 7, 19, 96, 99, 122, 123, 124, 129, 130, 131, 136, 144, 145, 163].contains s

/-- The window of the block a B reaction resets (R559, R560), by source: HL, CN, VF, SX, RS, ST, TB, DB. -/
def blockOf (s : Nat) : Option Nat :=
  if 112 ≤ s ∧ s < 117 then some 0x4009
  else if 120 ≤ s ∧ s < 125 then some 0x400A
  else if s = 136 ∨ s = 137 then some 0x4013
  else if s = 146 ∨ s = 156 ∨ s = 157 then some 0x4010
  else if 152 ≤ s ∧ s < 156 then some 0x400F
  else if 160 ≤ s ∧ s < 164 then some 0x4011
  else if s = 164 ∨ s = 165 then some 0x4012
  else if s = 176 then some 0x4014
  else none

/-- A source's status bit read and set. -/
def Lane.status (L : Lane) (s : Nat) : Bool := L.bitOf (Reg.FM_STATUS_STATUS (s / 32)) (s % 32)
def Lane.setStatus (L : Lane) (s : Nat) (b : Bool) : Lane := L.putBitOf (Reg.FM_STATUS_STATUS (s / 32)) (s % 32) b

/-- Whether a source's cause is held ("Cause held" column of Table 13.1, R554). A source marked "tick" is not held past its
event. -/
def Lane.causeHeld (L : Lane) (s : Nat) : Bool :=
  match s with
  | 0 => !L.bit Reg.SYS_LANE_ID_MATCH
  | 1 => L.pins.crack
  | 3 => L.fc.alignErr > 32 || L.fc.alignErr < -32
  | 5 => L.md.startPend
  | 7 => L.bit Reg.XF_VSTAT_UNRESOLVED
  | 20 => L.cp.fault
  | 36 => L.get Reg.LE_STAT_PACE > 1024
  | 52 => L.fc.br.zero.ceil || L.fc.br.one.ceil
  | 53 => L.bit (Reg.FC_BR_STAT_LOCKED 0) || L.bit (Reg.FC_BR_STAT_LOCKED 1)
  | 66 => L.af.act.zero.obs.loss || L.af.act.one.obs.loss
  | 67 => L.af.act.zero.ownLost || L.af.act.one.ownLost
  | 68 => L.af.act.zero.above || L.af.act.one.above
  | 70 => (List.range 4).any fun a => L.bit (Reg.AF_AN_VAL_IMPL a)
  | 80 => L.bit Reg.GD_STAT_LINK
  | 81 => L.bit (Reg.GD_FLT_SHORT 0)
  | 82 => L.bit (Reg.GD_FLT_SHORT 1)
  | 84 => L.get (Reg.GD_FLT_BSUV 0) ≠ 0 || L.get (Reg.GD_FLT_BSUV 1) ≠ 0
  | 85 => L.bit Reg.GD_STAT_VGD_UV
  | 96 => allLanes.any fun y => (L.xf.peer.get y).down
  | 122 => (L.tb.dom.zero.wasSynced && L.get (Reg.TB_DOM_STAT_STATE 0) = 0) || (L.tb.dom.one.wasSynced && L.get (Reg.TB_DOM_STAT_STATE 1) = 0)
  | 123 => L.bit Reg.TB_STAT_HOLD
  | 128 => L.bit Reg.SM_STAT_INTFLT
  | 130 => L.get Reg.SM_SI_STAT_FAULT ≠ 0
  | 132 => L.bit Reg.SM_STAT_FUSED
  | 136 => (List.range 64).any fun c => L.get (Reg.SX_CONN_STAT_STATE c) = 3
  | 140 => L.pins.vsup < 6000
  | 141 => L.pins.vsup > 58000
  | 142 => L.bit Reg.TM_STAT_WARN
  | 143 => L.get Reg.TM_STAT_LEVEL ≠ 0
  | 144 => L.tm.hold
  | 145 => L.bit Reg.TM_STAT_CUTOFF
  | 146 => L.bit Reg.RS_STAT_WAITNV
  | 152 => L.st.sigFail
  | 153 => L.st.memFail
  | 155 => L.st.exhausted
  | 164 => L.hl.canState = .passive
  | 165 => L.hl.canState = .busOff
  | 176 => L.bit Reg.CP_STAT_DEBUG_SPLIT
  | _ => false

/-- SELF_OK of the health word (R555). -/
def Lane.selfOk (L : Lane) : Bool :=
  L.fm.selfHold = 0 && !L.causeHeld 128

/-- The sources of an earlier tick's events join those that changed; the events of the present tick stay apart, since a snapshot taken in it
leaves them out (Table 13.5). -/
def Lane.foldTallied (L : Lane) : Lane :=
  if L.fm.talliedAt = L.now then L
  else { L with fm := { L.fm with
    changed := L.fm.tallied.foldl (fun l s => if l.contains s then l else s :: l) L.fm.changed, talliedAt := L.now, tallied := [] } }

/-- The tally of a source raised by one (R551, R553). -/
def Lane.tally (L : Lane) (s : Nat) : Lane :=
  let L1 := if L.get (Reg.FM_TALLY_TALLY s) = 0xFFFFFFFF then L.set (Reg.FM_REC_TWRAP s) 1 else L
  let L2 := L1.wrap (Reg.FM_TALLY_TALLY s)
  let L3 := L2.foldTallied
  { L3 with fm := { L3.fm with tallied := s :: L3.fm.tallied } }

/-- Words 0, 2 and 3 of the history entry an event leaves (Table 13.3). -/
def Lane.histWord0 (L : Lane) (s detail : Nat) (forced : Bool) : Nat :=
  s * 2 ^ 24 + b2n (srcIsS s) * 2 ^ 23 + b2n forced * 2 ^ 22 + L.get (Reg.FM_REACT_COMPAT s) * 2 ^ 21 + L.mode * 2 ^ 18 +
  b2n L.md.refuge * 2 ^ 17 + detail % 2 ^ 16

/-- A history entry written into slot SEQ mod 32 (R568). -/
def Lane.writeHist (L : Lane) (seq w0 : Nat) : Lane :=
  let i := seq % 32
  (((L.set (Reg.FM_HIST_WORD i 0) w0).set (Reg.FM_HIST_WORD i 1) seq).set (Reg.FM_HIST_WORD i 2) (L.now % 2 ^ 32)).set
    (Reg.FM_HIST_WORD i 3) (L.now / 2 ^ 32)

/-- The FAULT_EVENT report of an event whose entry another one of the tick displaced (R568): as it stands in a queue it is turned into that of a
skipped event; where it has left, one is sent. -/
def Lane.amendReport (L : Lane) (old new : List Nat) : Lane :=
  L.forEach ((List.range 3).filter fun r => L.bit (Reg.HL_RPT_CFG_FAULT r)) fun r L =>
    let q := spGet [] r L.hl.reports
    if q.any (·.args = old) then
      let q' := q.map fun p => if p.args = old then { p with args := new } else p
      { L with hl := { L.hl with reports := spSet [] r q' L.hl.reports } }
    else L.reportOn r 0x0A new false

/-- An S-class event's FAULT_EVENT report (Table 14.7). -/
def Lane.faultReport (L : Lane) (s w0 w1 : Nat) : Lane :=
  if srcIsS s then L.reportSubscribed Reg.HL_RPT_CFG_FAULT 0x0A [w0, w1, L.now % 2 ^ 32, L.now / 2 ^ 32] else L

/-- The entry of the highest source number among those written in the present tick, with the rest. -/
def lastOfTick : List (Nat × Nat) → Option (Nat × Nat)
  | [] => none
  | e :: t => match lastOfTick t with
    | none => some e
    | some g => if g.1 < e.1 then some e else some g

/-- An event's history entry and its report (R568): at most 16 entries in one tick, those of the lowest source numbers; the
others are counted in FM_HSKIP, and an S-class one is still reported with SKIPPED set. -/
def Lane.history (L : Lane) (s detail : Nat) (forced : Bool) : Lane :=
  let w0 := L.histWord0 s detail forced
  let cur := if L.fm.tick = L.now then L.fm.tickSrc else []
  let skip (L : Lane) (s w0 : Nat) : Lane :=
    let L := L.wrap Reg.FM_HSKIP_SKIP
    L.faultReport s (w0 + 2 ^ 16) (L.get Reg.FM_HSKIP_SKIP)
  if cur.length < 16 then
    let seq := L.get Reg.FM_HSEQ_SEQ
    let L1 := (L.writeHist seq w0).wrap Reg.FM_HSEQ_SEQ
    ({ L1 with fm := { L1.fm with tick := L.now, tickSrc := (s, seq) :: cur } }).faultReport s w0 seq
  else match lastOfTick cur with
    | none => skip L s w0
    | some (s', seq) =>
      if s < s' then
        let old := L.get (Reg.FM_HIST_WORD (seq % 32) 0)
        let L1 := L.writeHist seq w0
        let L2 := { L1 with fm := { L1.fm with tickSrc := (s, seq) :: cur.filter (· ≠ (s', seq)) } }
        let L3 := (L2.wrap Reg.FM_HSKIP_SKIP)
        let time := [L.now % 2 ^ 32, L.now / 2 ^ 32]
        (if srcIsS s' then L3.amendReport ([old, seq] ++ time) ([old + 2 ^ 16, L3.get Reg.FM_HSKIP_SKIP] ++ time) else L3).faultReport s w0 seq
      else skip L s w0

/-- Reaction T: the source's trap-pending bit is set, and a trap that is not being served becomes pending for the cores (R560,
R561). -/
def Lane.trapEvent (L : Lane) (s : Nat) : Lane :=
  let L1 := { L with fm := { L.fm with trapBits := if L.fm.trapBits.contains s then L.fm.trapBits else s :: L.fm.trapBits } }
  if L1.fm.trapSet.isSome then L1 else { L1.wakeCores with cp := { L1.wakeCores.cp with trap := true } }

/-- What lane reset makes of one stored field: kept, dropped to its power-on value, or set to its lane-reset value. -/
def resetEntry (x : LaneId) (e : Nat × Nat) : Option (Nat × Nat) :=
  match fldOfKey x e.1 with
  | none => some e
  | some f =>
    match f.lrst with
    | none => some e
    | some r => if r = f.por then none else some (e.1, r)

/-- The lane-reset values of the registers that a test on addresses picks out (R560, tables' "Lane reset" column). -/
def Lane.resetRegs (L : Lane) (p : Nat → Bool) : Lane :=
  { L with regs := L.regs.filterMap (fun e => cond (p (e.1 / 32)) (resetEntry L.me e) (some e)) }

/-! ### Operations that end (R612) -/

/-- HL_PART_STAT of a partition (Table 14.15). -/
def Lane.showPart (L : Lane) (p : Nat) : Lane :=
  (L.set (Reg.HL_PART_STAT_OPS p) (countIf (fun o => o.part = p) L.hl.ops)).set (Reg.HL_PART_STAT_OUT p)
    ((L.hl.tags.filter fun t => t.part = p).foldl (fun a t => setBit a t.tag) 0)

def Lane.findOp (L : Lane) (id : Nat) : Option Op := L.hl.ops.find? fun o => o.id = id

/-- The script that waits for an operation learns how it ended (Table 14.9). -/
def Lane.noteOpEnd (L : Lane) (id : Nat) (completed : Bool) : Lane :=
  match L.hl.run with
  | none => L
  | some r => if r.op = some id then { L with hl := { L.hl with run := some { r with opDone := some completed } } } else L

/-- The arguments of COMPLETED and ABORTED (Table 14.7). A result that no rule states is a free value (log entry 25). -/
def Lane.opReport (L : Lane) (o : Op) (completed : Bool) (cause : Nat) (result : Option Nat) : Lane :=
  if completed then
    match result with
    | some r => L.reportOn o.route 0x04 [o.id + cause * 2 ^ 8, r] true
    | none => L.takeFree.2.reportOn o.route 0x04 [o.id + cause * 2 ^ 8, L.takeFree.1] true
  else L.reportOn o.route 0x05 [o.id + cause * 2 ^ 8] true

/-- An operation ends with its one report, COMPLETED or ABORTED, on the route of its order (R612). -/
def Lane.endOp (L : Lane) (id : Nat) (completed : Bool) (cause : Nat) (result : Option Nat) : Lane :=
  match L.findOp id with
  | none => L
  | some o =>
    let L1 := { L with hl := { L.hl with ops := L.hl.ops.filter fun p => p.id ≠ id } }
    ((L1.opReport o completed cause result).noteOpEnd id completed).showPart o.part

/-- The end of an operation that may have none, as where firmware started what ends. -/
def Lane.endOp? (L : Lane) (id : Option Nat) (completed : Bool) (cause : Nat) (result : Option Nat) : Lane :=
  match id with
  | none => L
  | some i => L.endOp i completed cause result

/-! ### Reactions -/

/-- What a block reset discards of the record store: each waiting write and the one in progress, whose operations end as failed (log entry 221). -/
def Lane.dropWrites (L : Lane) : Lane :=
  let ops := L.rs.pend.filterMap (fun p => p.2.bind (·.op)) ++ (L.rs.writing.bind (·.op)).toList
  Lane.forEach { L with rs := { store := L.rs.store } } ops fun i M => M.endOp i true 3 none

/-- What a block reset discards of the self-test: the slice, the order, whose operation ends as failed (log entry 221), the logic self-test
and the burn. -/
def Lane.dropTests (L : Lane) : Lane :=
  Lane.endOp? { L with st := { L.st with slice := false, bist := none, burn := none, lbist := none } } (L.st.bist.bind (·.opid)) true 3 none

/-- Reaction B: a block returns to its lane-reset register values; what is in transit in it is discarded (R560, Table 15.5). HL keeps its
orders, operations and running script (Table 15.5), and loses its relay queue and its command link (log entry 179). -/
def Lane.blockReset (L : Lane) (blk : Nat) : Lane :=
  let L1 := L.resetRegs fun a => a / 0x10000 = blk
  match blk with
  | 0x4009 =>
    let n := L1.vf.tx.zero.length + L1.vf.tx.one.length
    { L1.countBy Reg.VF_CNT_DROP_COUNT n with vf := { out := L1.vf.out } }
  | 0x400A => { L1 with tb := { local_ := L1.tb.local_, out := L1.tb.out }, xf := { L1.xf with adopted := false } }
  | 0x4013 => { L1 with sx := { out := L1.sx.out } }
  | 0x4010 => L1.dropWrites
  | 0x400F => L1.dropTests
  | 0x4011 =>
    let L2 : Lane := { L1 with hl := { L1.hl with relayQ := [], inbox := [], linkUp := BitVec.ofNat 3 (clrBit L1.hl.linkUp.toNat 0) } }
    match L2.hl.run with
    | none => L2
    | some r => (L2.set Reg.HL_STAT_SCR_RUN 1).set Reg.HL_STAT_SCRIPT r.slot
  | 0x4012 => { L1 with hl := { L1.hl with canState := .active } }
  | _ => L1

/-- Reaction L: refuge, and a lane reset after the next departure (R560); in LAST-LANE it is held back (R562). -/
def Lane.laneResetReaction (L : Lane) : Lane :=
  if L.mode = 4 then L.set Reg.FM_STAT_LRST_PEND 1 else L.refugeReset

/-- Reaction B unless the block's reset is in progress (Table 13.5); it is over within 2 µs, in a time that spec/ leaves open (log entry 3). -/
def Lane.blockReaction (L : Lane) (blk : Nat) : Lane :=
  if (spGet none blk L.fm.blockUntil).any (L.now ≤ ·) then L
  else
    let f := L.takeFree
    let until_ := L.now + min (2 * usTicks) f.1
    Lane.blockReset { f.2 with fm := { f.2.fm with blockUntil := spSet none blk (some until_) f.2.fm.blockUntil } } blk

/-- The reactions of one event, in the order E, I, T, B, L (R560). -/
def Lane.react (L : Lane) (s : Nat) : Lane :=
  let L1 := if !srcIsS s && L.bit (Reg.FM_REACT_E s) then { L with fm := { L.fm with lastE := some L.now, prel := false } } else L
  let L2 := if L.bit (Reg.FM_REACT_I s) then L1.event (96 + L.get (Reg.FM_REACT_LINE s)) else L1
  let L3 := if L.bit (Reg.FM_REACT_T s) then L2.trapEvent s else L2
  let L4 := match blockOf s with
    | some blk => if L.bit (Reg.FM_REACT_B s) then L3.blockReaction blk else L3
    | none => L3
  if L.bit (Reg.FM_REACT_L s) && !noLaneReset s then L4.laneResetReaction else L4

/-- An event in the tick of its source's automatic clearing: there is no recovery, and the counter stands as it did (Table 13.5). -/
def Lane.unrecover (L : Lane) (s : Nat) : Lane :=
  match L.fm.recovered with
  | none => L
  | some (t, l) => match l.find? fun p => p.1 = s with
    | none => L
    | some p => if t = L.now then L.set (Reg.FM_REC_REC s) p.2 else L

/-- One event of a source (R551): tally, status, history, SELF_OK, reactions. -/
def Lane.raiseAs (L : Lane) (s detail : Nat) (forced : Bool) : Lane :=
  let L1 := (((L.unrecover s).tally s).setStatus s true).history s detail forced
  let L2 := { L1 with fm := { L1.fm with busyAt := spSet 0 s (L1.now + 1) L1.fm.busyAt,
                                          selfHold := if isSelfCheck s then 4 else L1.fm.selfHold } }
  if L2.run = .held then
    if !srcIsS s && L2.bit (Reg.FM_REACT_E s) then { L2 with fm := { L2.fm with lastE := some L2.now, prel := false } } else L2
  else L2.react s

/-- Whether a block has already raised a source in the present tick. -/
def Lane.raisedNow (L : Lane) (s : Nat) : Bool := L.fm.raisedAt = L.now && L.fm.raised.contains s

/-- A block raises a source, with the index of the instance that raises it (Table 13.3); two causes in one tick are one event (R552). -/
def Lane.raise (L : Lane) (s : Nat) (detail : Nat := 0) : Lane :=
  if L.raisedNow s then L
  else
    Lane.raiseAs { L with fm := { L.fm with
      raisedAt := L.now, raised := s :: (if L.fm.raisedAt = L.now then L.fm.raised else []) } } s detail false

/-- ERRS_x_N is low (R556). -/
def Lane.errsLow (L : Lane) : Bool :=
  L.run = .unpowered || L.run = .held || L.mode = 0 || L.md.refuge || (List.range 192).any fun s => srcIsS s && L.status s

/-- ERRP_x_N is low (R557): since the latest event with E, until 100 µs have passed and PREL was written after it. -/
def Lane.errpLow (L : Lane) : Bool :=
  match L.fm.lastE with
  | none => false
  | some t => !(L.fm.prel && t + 100 * usTicks ≤ L.now)

/-! ### The shapes of a command's effect on a lane -/

/-- The sources whose quiet period the present instant restarts: those whose status is set and whose cause is held (R565), under compatibility
recovery or not, since COMPAT may be set later. -/
def Lane.heldNow (L : Lane) : List Nat := (List.range 192).filter fun s => L.status s && L.causeHeld s

/-- A held cause is seen at each instant at which a command acts, so that its quiet period starts when it ends (R565). -/
def Lane.noteHeld (L : Lane) : Lane :=
  { L with fm := { L.fm with busyAt := L.heldNow.foldl (fun m s => spSet 0 s (L.now + 1) m) L.fm.busyAt } }

/-- An effect on one lane, whatever its power state. -/
def onLane (x : LaneId) (f : Lane → Lane) (s : State) : Out := .next (s.setLane x (f (s.lane x).noteHeld))

/-- An effect on a lane whose fast plane runs; a command to any other lane changes nothing (log entry 8). -/
def onUp (x : LaneId) (f : Lane → Lane) (s : State) : Out :=
  if (s.lane x).up then onLane x f s else .next s

/-- An effect on a lane that runs or sleeps. -/
def onAwake (x : LaneId) (f : Lane → Lane) (s : State) : Out :=
  if (s.lane x).awake then onLane x f s else .next s

/-- The module brought to LOCAL tick `t` of lane `x`, if that still lies ahead. -/
def State.reach (s : State) (x : LaneId) (t : Nat) : State := s.advance (t - (s.lane x).now)

/-- A timed event of a running lane: `due` tells from the lane's state whether the event is awaited and at which LOCAL tick it
falls. An event that is not awaited changes nothing; else the module is brought to that tick, if it still lies ahead, and the event
takes effect (log entry 7). -/
def atDue (x : LaneId) (due : Lane → Option Nat) (f : Lane → Lane) (s : State) : Out :=
  if (s.lane x).up then
    match due (s.lane x) with
    | none => .next s
    | some t => onLane x f (s.reach x t)
  else .next s

/-- A timed event of a block that also runs in SLEEP. -/
def awakeAtDue (x : LaneId) (due : Lane → Option Nat) (f : Lane → Lane) (s : State) : Out :=
  if (s.lane x).awake then
    match due (s.lane x) with
    | none => .next s
    | some t => onLane x f (s.reach x t)
  else .next s

end Sys2Proof.Machine
end

