-- ==== Sys2Proof/Machine/LeStore.lean ====
section
/-! DEFINITION. The loop engine's stores (R133 to R138), the mapping of the coefficient store (R188), the scan of a
program region (R174, R175), bank swaps (R200 to R207), and the configuration digest (R34, R209, R215). -/

namespace Sys2Proof.Machine

/-! ### Stores -/

/-- Signal word `a`. -/
def Lane.sig (L : Lane) (a : Nat) : Nat := spGet 0 (a % 4096) L.le.sig
def Lane.setSig (L : Lane) (a v : Nat) : Lane := { L with le := { L.le with sig := spSet 0 (a % 4096) (v % 2 ^ 32) L.le.sig } }

/-- Signal word `a` as a signed number. -/
def Lane.sigI (L : Lane) (a : Nat) : Int := sgn 32 (L.sig a)
def Lane.setSigI (L : Lane) (a : Nat) (i : Int) : Lane := L.setSig a (uns 32 i)

/-- Consecutive signal words written. -/
def Lane.setSigs (L : Lane) (a : Nat) : List Nat → Lane
  | [] => L
  | v :: t => Lane.setSigs (L.setSig a v) (a + 1) t

/-- Program word `i`. -/
def Lane.prog (L : Lane) (i : Nat) : Nat := spGet 0 (i % 4096) L.le.prog
def Lane.setProg (L : Lane) (i v : Nat) : Lane := { L with le := { L.le with prog := spSet 0 (i % 4096) (v % 2 ^ 64) L.le.prog } }

/-- The full coefficient configuration (LE_CTRL.CCFG 1, R188). -/
def Lane.full (L : Lane) : Bool := L.bit Reg.LE_CTRL_CCFG

/-- The bank active for record `r` in the banked configuration. -/
def Lane.bank (L : Lane) (r : Nat) : Nat := b2n (L.bitOf Reg.LE_CBANK_BANK (r % 32))

/-- The physical word of coefficient word `K` as programs read it (Table 4.2). -/
def Lane.coefAt (L : Lane) (k : Nat) : Nat :=
  if L.full then k % 1024 else 512 * L.bank (k % 512 / 16) + k % 512

/-- The physical word of the core window's word `k` (Table 4.2). -/
def Lane.windowAt (L : Lane) (k : Nat) : Nat :=
  if L.full then k % 1024
  else if k < 512 then 512 * (1 - L.bank (k / 16)) + k
  else 512 * L.bank ((k - 512) / 16) + (k - 512)

def Lane.phys (L : Lane) (i : Nat) : Nat := spGet 0 i L.le.coef
def Lane.setPhys (L : Lane) (i v : Nat) : Lane := { L with le := { L.le with coef := spSet 0 i (v % 2 ^ 32) L.le.coef } }

/-- c[K]. -/
def Lane.coef (L : Lane) (k : Nat) : Nat := L.phys (L.coefAt k)
def Lane.coefI (L : Lane) (k : Nat) : Int := sgn 32 (L.coef k)

/-- The record a macro names (Table 4.2). -/
def Lane.recordOf (L : Lane) (k : Nat) : Nat := if L.full then k % 64 else k % 32

/-- Word `w` of record `r`. -/
def Lane.recWord (L : Lane) (r w : Nat) : Nat := L.coef (16 * r + w)

/-- Whether HOLD acts on record `r` (R188, R198). -/
def Lane.held (L : Lane) (r : Nat) : Bool := L.bitOf (Reg.LE_HOLD_HOLD (r / 32)) (r % 32)

/-- Whether an address lies in a store of LE (Table 3.1). -/
def inLeStore (a : Nat) : Bool :=
  a / 0x10000 = 0x4003 && (decide (0x4000 ≤ a % 0x10000) || decide (0x1000 ≤ a % 0x10000 && a % 0x10000 < 0x2000))

/-- `k` words of the stores read by a scan, a bank copy, HL or another requester of IX: what the error codes answer is left open. Each
corrected error counts; an uncorrectable one is raised, and makes the second component true (R134; log entry 206). -/
def Lane.readStores (L : Lane) (k : Nat) : Lane × Bool :=
  let f := L.takeFree
  let g := f.2.takeBit
  let L1 := g.2.countBy Reg.LE_CNT_ECC_COUNT (f.1 % (k + 1))
  (if g.1 && k ≠ 0 then L1.raise 10 else L1, g.1 && k ≠ 0)

/-! ### Regions and triggers -/

/-- The region of trigger `n`, first and last word. During rejoin stage 4, trigger 7 runs trigger 2's region (R705). -/
def Lane.entryOf (L : Lane) (n : Nat) : Nat := L.get (Reg.LE_TRIG_CFG_ENTRY n)
def Lane.limitOf (L : Lane) (n : Nat) : Nat := L.get (Reg.LE_TRIG_CFG_LIMIT n)

/-- The rejoin stage (Table 1.4). -/
def Lane.stage (L : Lane) : Nat := L.get Reg.XF_REJOIN_STAGE

/-- Whether program word `i` lies in the region of an enabled trigger or in the new region of a pending swap (R172). -/
def Lane.progLocked (L : Lane) (i : Nat) : Bool :=
  ((List.range 8).any fun n => L.bit (Reg.LE_TRIG_CFG_EN n) && L.entryOf n ≤ i && i ≤ L.limitOf n) ||
  (match L.le.swap with
   | some w => w.entry ≤ i && i ≤ w.limit
   | none => false) ||
  (L.le.scans.any fun e => match e.2 with
   | some w => w.entry ≤ i && i ≤ w.limit
   | none => false)

/-! ### The scan of R174 -/

/-- Slow-corner latency of an instruction, in ns (Table 3.7); `none` for an undefined opcode. -/
def latencyNs (w : Nat) : Option Nat :=
  match opOf w with
  | 0x00 => some 4 | 0x01 => some 4 | 0x02 => some 8 | 0x03 => some 12 | 0x04 => some (12 + 10 * nOf w)
  | 0x05 => some 10 | 0x06 => some 8 | 0x07 => some 8 | 0x08 => some 10 | 0x09 => some 14 | 0x0A => some 12
  | 0x0B => some 10 | 0x0C => some 6 | 0x10 => some 90 | 0x11 => some 130 | 0x12 => some 90 | 0x18 => some 30
  | 0x19 => some 40 | 0x1A => some 40 | 0x1B => some 36 | 0x1C => some 70 | 0x1D => some 60 | 0x1E => some 60
  | 0x30 => some 24 | 0x31 => some (10 + 10 * kOf w) | 0x3F => some 6
  | _ => none

/-- Whether MOD has a defined value for the opcode (Tables 3.7 and 3.8; SVM with MOD[1:0] 3 is reserved). -/
def modDefined (w : Nat) : Bool :=
  let m := modOf w
  match opOf w with
  | 0x03 | 0x04 => m % 2 = 0
  | 0x05 | 0x08 | 0x0A => m = 0 || m = 8
  | 0x0B | 0x0C => m ≤ 8
  | 0x18 => m ≤ 1
  | 0x1C => m < 8 && m % 4 ≠ 3
  | 0x30 => m ≤ 2
  | 0x31 => m ≤ 3
  | _ => m = 0

/-- The highest signal word an instruction reads or writes (Tables 3.7 and 4.3). -/
def topSignal (w : Nat) : Nat :=
  let a := aOf w; let b := bOf w; let d := dOf w; let n := nOf w; let m := modOf w
  match opOf w with
  | 0x02 => a
  | 0x03 => if bitAt m 2 then max a b else a
  | 0x04 => if bitAt m 2 then max (a + n) (b + n) else a + n
  | 0x05 => d
  | 0x06 => max a d
  | 0x07 => d
  | 0x08 | 0x09 | 0x0B => max a (max b d)
  | 0x0A => max a (max (b + 1) d)
  | 0x10 | 0x12 => max a (max (b + 3) d)
  | 0x11 => max a (max (b + 5) d)
  | 0x18 => max (a + 2) (d + 1)
  | 0x19 | 0x1A => max (a + 1) (max (b + 1) (d + 1))
  | 0x1B => max a (d + 1)
  | 0x1C => max (a + 1) (max b (d + 2))
  | 0x1D | 0x1E => max a d
  | 0x30 => a + n
  | _ => 0

/-- Whether the opcode is a compensator macro. -/
def isMacro (w : Nat) : Bool := opOf w = 0x10 || opOf w = 0x11 || opOf w = 0x12

/-- Whether the coefficient words of a MACR lie within the store (R174). -/
def coefFits (full : Bool) (w : Nat) : Bool :=
  if opOf w = 0x04 && !bitAt (modOf w) 2 then
    if full then kOf w + nOf w ≤ 1023 else kOf w % 512 + nOf w ≤ 511
  else true

/-- The first failed check of one word, as a REASON code; 0 where it passes (R174 No. 2). -/
def wordReason (full : Bool) (w : Nat) : Nat :=
  if (latencyNs w).isNone || !modDefined w || bitsOf w 53 52 ≠ 0 || (isMacro w && kOf w / 64 ≠ 0) then 1
  else if 0xFFF < topSignal w then 1
  else if !coefFits full w then 1
  else if opOf w = 0x31 && kOf w = 0 then 4
  else 0

/-- The words of a region up to its first END: the words before END, and whether END was found. -/
def toEnd : List Nat → List Nat × Bool
  | [] => ([], false)
  | w :: t => if opOf w = 0x3F then ([w], true) else let r := toEnd t; (w :: r.1, r.2)

/-- The REASON of the first word that fails, walking up to END. -/
def walkReason (full : Bool) : List Nat → Nat
  | [] => 2
  | w :: t =>
    if wordReason full w ≠ 0 then wordReason full w
    else if opOf w = 0x3F then 0 else walkReason full t

/-- Whether a SKP reaches past the END of the words given (R174 No. 4). -/
def skipsPast : List Nat → Bool
  | [] => false
  | w :: t => (opOf w = 0x0C && t.length < nOf w + 2) || skipsPast t

/-- The words of a region. -/
def Lane.region (L : Lane) (entry limit : Nat) : List Nat :=
  (List.range (limit + 1 - entry)).map fun i => L.prog (entry + i)

/-- The computed time of a region, in ns (R175). -/
def computedNs (ws : List Nat) : Nat := 120 + ws.foldl (fun a w => a + (latencyNs w).getD 0) 0

/-- The scan of R174: the REASON of the first check that fails (0: accepted), and the computed time. -/
def Lane.scan (L : Lane) (src dl entry limit : Nat) : Nat × Nat :=
  let r := toEnd (L.region entry limit)
  let t := computedNs r.1
  let w := walkReason L.full (L.region entry limit)
  (if 8 < src then 5 else if dl = 0 then 4 else if w ≠ 0 then w else if skipsPast r.1 then 1 else if 10 * dl < t then 3 else 0, t)

/-! ### Records T2 uses, and the digest -/

/-- The records an instruction uses (R209): those a macro names and those whose words MAC, MACR or LDC read. -/
def Lane.recordsUsed (L : Lane) (w : Nat) : List Nat :=
  let words := if L.full then 1024 else 512
  match opOf w with
  | 0x10 | 0x11 | 0x12 => [L.recordOf (kOf w)]
  | 0x03 => if bitAt (modOf w) 2 then [] else [kOf w % words / 16]
  | 0x04 => if bitAt (modOf w) 2 then [] else (List.range (nOf w + 1)).map fun i => (kOf w + i) % words / 16
  | 0x07 => [kOf w % words / 16]
  | _ => []

/-- The records T2 uses, in ascending order. -/
def Lane.t2Records (L : Lane) : List Nat :=
  let used := ((toEnd (L.region (L.entryOf 2) (L.limitOf 2))).1).flatMap L.recordsUsed
  (List.range 64).filter fun r => used.contains r

/-- The sixteen words of a record as the digest takes them: as they stood when HOLD took effect (R215), else the words programs
read. -/
def Lane.digestRecord (L : Lane) (r : Nat) : List Nat :=
  match spGet [] r L.le.frozen with
  | [] => (List.range 16).map fun w => L.recWord r w
  | ws => ws

/-- XF_DIGEST (R34): CRC-32C over T2's program words, the records T2 uses, FIRST, SECOND and THIRD, the share weights, and the
agreement and import registers. The order and width of these items is log entry 13. -/
def Lane.digest (L : Lane) : Nat :=
  let prog := ((toEnd (L.region (L.entryOf 2) (L.limitOf 2))).1).flatMap (beBytes 8)
  let recs := wordBytes (L.t2Records.flatMap L.digestRecord)
  let regs := [L.word [Reg.XF_VCTRL_FIRST, Reg.XF_VCTRL_SECOND, Reg.XF_VCTRL_THIRD],
    L.word [Reg.XF_SHARE_W_W_A, Reg.XF_SHARE_W_W_B, Reg.XF_SHARE_W_W_C],
    L.word [Reg.XF_AGR_CFG_PERSIST, Reg.XF_AGR_CFG_N_IN]] ++
    ((List.range 16).map fun i => L.get (Reg.XF_AGR_TOL_TOL i)) ++
    ((List.range 8).map fun i => L.word [Reg.XF_IMPORT_EN i, Reg.XF_IMPORT_COUNT i, Reg.XF_IMPORT_BASE i])
  crc32c (prog ++ recs ++ wordBytes regs)

/-- The import list (R74): the signal words named by the enabled entries, in order. -/
def Lane.importList (L : Lane) : List Nat :=
  (List.range 8).flatMap fun i =>
    if L.bit (Reg.XF_IMPORT_EN i) then
      (List.range (L.get (Reg.XF_IMPORT_COUNT i) + 1)).map fun j => L.get (Reg.XF_IMPORT_BASE i) + j
    else []

/-- The values of the import-list words, and their signature. -/
def Lane.importWords (L : Lane) : List Nat := L.importList.map L.sig
def Lane.signature (L : Lane) : Nat := crc32c (wordBytes L.importWords)

/-! ### Bank swaps -/

/-- OWNED_r and TRIG_r of LE_COWN: four bits per record, eight records to a register. -/
def Reg.LE_COWN_OWNED (r : Nat) : Fld := ⟨0x40030050 + 4 * (r / 8), 4 * (r % 8) + 3, 1, .rw, 0, some 0, .any⟩
def Reg.LE_COWN_TRIG (r : Nat) : Fld := ⟨0x40030050 + 4 * (r / 8), 4 * (r % 8), 3, .rw, 0, some 0, .any⟩

/-- The owner trigger of record `r`, where it has one (LE_COWN). -/
def Lane.owner (L : Lane) (r : Nat) : Option Nat :=
  if L.bit (Reg.LE_COWN_OWNED r) then some (L.get (Reg.LE_COWN_TRIG r)) else none

/-- A refused coefficient request: REFUSED and REASON, and "LE write refused" (R204, R207, R214). -/
def Lane.coefRefused (L : Lane) (reason : Nat) : Lane :=
  (((L.set Reg.LE_CSTAT_REFUSED 1).set Reg.LE_CSTAT_REASON reason).event 191).raise 35

/-- The records of a list swapped together: the shadow bank becomes active, and the copy into the new shadow begins (R205,
R206). -/
def Lane.swapRecords (L : Lane) (rs : List Nat) : Lane :=
  if rs.isEmpty then L
  else
    let L1 := L.forEach rs fun r L => L.putBitOf Reg.LE_CBANK_BANK r (!L.bitOf Reg.LE_CBANK_BANK r)
    { L1 with le := { L1.le with copying := L1.le.copying ++ rs } }.event 191

/-- The swaps requested under R201 that fall due at a dispatch of trigger `n`. -/
def Lane.dueAtDispatch (L : Lane) (n : Nat) : List Nat :=
  (bitList (L.get Reg.LE_CSWAP_REQ) 32).filter fun r => L.owner r = some n && !L.le.copying.contains r

/-- The swaps that wait for an idle boundary (R202): no owner, or an owner that is not enabled. -/
def Lane.dueIdle (L : Lane) : List Nat :=
  (bitList (L.get Reg.LE_CSWAP_REQ) 32).filter fun r =>
    !L.le.copying.contains r &&
    (match L.owner r with
     | none => true
     | some n => !L.bit (Reg.LE_TRIG_CFG_EN n))

/-- The sixteen words of a record's active bank copied into its shadow bank (R206); a word with an uncorrectable error is copied as a free value
(R134). -/
def Lane.copyRecord (L : Lane) (r : Nat) : Lane :=
  let p := L.readStores 16
  let L1 := p.1.forEach (List.range 16) fun w M => M.setPhys (512 * (1 - L.bank r) + 16 * r + w) (L.phys (512 * L.bank r + 16 * r + w))
  if p.2 then
    let f := L1.takeFree
    let g := f.2.takeFree
    g.2.setPhys (512 * (1 - L.bank r) + 16 * r + f.1 % 16) g.1
  else L1

/-- The copies of R206 end: each record's shadow bank takes the words of its active bank, and its pending bits clear. -/
def Lane.endCopies (L : Lane) : Lane :=
  let L1 := L.forEach L.le.copying fun r L =>
    let L2 := L.copyRecord r
    (L2.putBitOf Reg.LE_CSWAP_REQ r false).putBitOf Reg.LE_CSWAP_AT_REQ r false
  let L2 := { L1 with le := { L1.le with copying := [] } }
  L2.setBool Reg.LE_CSTAT_AT_PEND (L2.get Reg.LE_CSWAP_AT_REQ ≠ 0)

/-- The digest's copy of record `r` taken as the record stands now, where HOLD takes effect on it (R215). -/
def Lane.freeze (L : Lane) (r : Nat) : Lane :=
  { L with le := { L.le with frozen := spSet [] r ((List.range 16).map fun w => L.recWord r w) L.le.frozen } }

/-- Whether HOLD bits of record `r` have effect: those of records 32 and above have none while the store is banked (Table 4.13). -/
def Lane.holdable (L : Lane) (r : Nat) : Bool := L.full || decide (r < 32)

/-- The HOLD bit of record `r` set to a value; the digest keeps the record as it stood while HOLD is in effect (R215). -/
def Lane.putHold (L : Lane) (r : Nat) (v : Bool) : Lane :=
  let L1 := L.putBitOf (Reg.LE_HOLD_HOLD (r / 32)) (r % 32) v
  if v then
    if L.held r || !L.holdable r then L1 else L1.freeze r
  else { L1 with le := { L1.le with frozen := spDel r L1.le.frozen } }

/-- The digest's copies after a change of CCFG: HOLD of the records from 32 on takes effect in the full configuration, and ends with it
(R215, Table 4.13). -/
def Lane.refreeze (L : Lane) : Lane :=
  L.forEach ((List.range 32).map (· + 32)) fun r L =>
    if !L.full then { L with le := { L.le with frozen := spDel r L.le.frozen } } else if L.held r then L.freeze r else L

end Sys2Proof.Machine
end

