-- ==== Sys2Proof/Machine/Export.lean ====
section
/-! DEFINITION. The manifests and the own export elements of both ferries (10_ferry.md R455 to R461), the landed import areas
(R456, R463), and the codings of Table 10.8. -/

namespace Sys2Proof.Machine

/-! ### Manifests (Table 10.6) -/

/-- An element word of a manifest. -/
structure Desc where
  berth : Nat
  offset : Nat
  coding : Nat
  input : Bool
  src : Nat
  sub : Nat
  words : Nat
  deriving DecidableEq, Repr

def Lane.manWord (L : Lane) (f : Ferry) (i : Nat) : Nat :=
  match f with
  | .lane => if i < 256 then L.get (Reg.XF_MANIFEST_WORD i) else 0
  | .vehicle => if i < 1024 then L.get (Reg.VF_MANIFEST_WORD i) else 0

def Lane.manNodes (L : Lane) (f : Ferry) : Nat := bitsOf (L.manWord f 0) 23 16
def Lane.manElems (L : Lane) (f : Ferry) : Nat := bitsOf (L.manWord f 0) 15 8
def Lane.manSlew (L : Lane) (f : Ferry) : Bool := bitAt (L.manWord f 1) 0

/-- The words of the manifest, and its CRC-32C (R455). -/
def Lane.manList (L : Lane) (f : Ferry) : List Nat :=
  (List.range (3 + 2 * L.manNodes f + L.manElems f)).map (L.manWord f)
def Lane.manCrc (L : Lane) (f : Ferry) : Nat := crc32c (wordBytes (L.manList f))

/-- OP of the lane manifest, and CYC, FRAME, ETYPE and LAP of the vehicle manifest. -/
def Lane.opPeriod (L : Lane) : Nat := bitsOf (L.manWord .lane 1) 31 24
def Lane.vehCyc (L : Lane) : Nat := bitsOf (L.manWord .vehicle 1) 31 24
def Lane.vehFrame (L : Lane) : Nat := bitsOf (L.manWord .vehicle 1) 23 12
def Lane.vehEtype (L : Lane) : Nat := bitsOf (L.manWord .vehicle 2) 31 16
def Lane.vehLap (L : Lane) : Nat := bitsOf (L.manWord .vehicle 2) 15 0

/-- The number, berth offset, berth length and arrival of node-table entry `i`. -/
def Lane.nodeNum (L : Lane) (f : Ferry) (i : Nat) : Nat := bitsOf (L.manWord f (3 + 2 * i)) 31 24
def Lane.nodeOffset (L : Lane) (f : Ferry) (i : Nat) : Nat := bitsOf (L.manWord f (3 + 2 * i)) 23 12
def Lane.nodeArrive (L : Lane) (i : Nat) : Nat := bitsOf (L.manWord .vehicle (4 + 2 * i)) 31 16

/-- The berth length of node-table entry `i`: one length for the three lanes (R450). -/
def Lane.berthLen (L : Lane) (f : Ferry) (i : Nat) : Nat :=
  match f with
  | .lane => bitsOf (L.manWord .lane 1) 23 16
  | .vehicle => bitsOf (L.manWord .vehicle (3 + 2 * i)) 7 0

/-- Element word `e`. -/
def Lane.desc (L : Lane) (f : Ferry) (e : Nat) : Desc :=
  let w := L.manWord f (3 + 2 * L.manNodes f + e)
  ⟨bitsOf w 31 28, bitsOf w 27 20, bitsOf w 19 17, bitAt w 16, bitsOf w 15 12, bitsOf w 11 9, bitsOf w 5 0 + 1⟩

/-- Whether a manifest is accepted. -/
def Lane.manValid (L : Lane) (f : Ferry) : Bool :=
  match f with
  | .lane => L.bit Reg.XF_MAN_VALID
  | .vehicle => L.bit Reg.VF_MAN_VALID

/-- The node-table index of the lane itself. -/
def Lane.ownIndex (L : Lane) (f : Ferry) : Nat :=
  match f with
  | .lane => laneNum L.me
  | .vehicle => (((List.range (L.manNodes .vehicle)).find? fun i => L.nodeNum .vehicle i = L.get Reg.VF_CTRL_NODE)).getD 16

/-- The elements of the berth with node-table index `i`, in manifest order: one template for the lane ferry (R456). -/
def Lane.elemsOf (L : Lane) (f : Ferry) (i : Nat) : List Nat :=
  match f with
  | .lane => List.range (L.manElems .lane)
  | .vehicle => (List.range (L.manElems .vehicle)).filter fun e => (L.desc .vehicle e).berth = i

/-- The decoded words before element `e` among a list of elements (R456). -/
def Lane.wordsBefore (L : Lane) (f : Ferry) (l : List Nat) (e : Nat) : Nat :=
  (l.filter (· < e)).foldl (fun a k => a + (L.desc f k).words) 0

/-- The first word of own element `e` in the export area, and of element `e` in its import area. -/
def Lane.expBase (L : Lane) (f : Ferry) (e : Nat) : Nat := L.wordsBefore f (L.elemsOf f (L.ownIndex f)) e
def Lane.impBase (L : Lane) (f : Ferry) (e : Nat) : Nat := L.wordsBefore f (List.range (L.manElems f)) e

/-- The own element with a given SRC and SUB. -/
def Lane.findElem (L : Lane) (f : Ferry) (src sub : Nat) : Option Nat :=
  if L.manValid f then (L.elemsOf f (L.ownIndex f)).find? fun e => (L.desc f e).src = src && (L.desc f e).sub = sub else none

/-! ### Own elements (R460, R461) -/

def Lane.elem (L : Lane) (f : Ferry) (e : Nat) : Elem :=
  match f with
  | .lane => spGet {} e L.xf.elems
  | .vehicle => spGet {} e L.vf.elems

def Lane.setElem (L : Lane) (f : Ferry) (e : Nat) (v : Elem) : Lane :=
  match f with
  | .lane => { L with xf := { L.xf with elems := spSet {} e v L.xf.elems } }
  | .vehicle => { L with vf := { L.vf with elems := spSet {} e v L.vf.elems } }

/-- A refresh: the words become the front buffer (R460). -/
def Lane.refresh (L : Lane) (f : Ferry) (e : Nat) (ws : List Nat) (impl : Bool) : Lane :=
  L.setElem f e { L.elem f e with words := ws, fresh := true, impl := impl }

/-- The own elements with a given SRC and SUB. -/
def Lane.ownElems (L : Lane) (f : Ferry) (src sub : Nat) : List Nat :=
  if L.manValid f then (L.elemsOf f (L.ownIndex f)).filter fun e => (L.desc f e).src = src && (L.desc f e).sub = sub else []

/-- A refresh of the own elements of a source that the accepted manifest has. -/
def Lane.refreshSrc (L : Lane) (f : Ferry) (src sub : Nat) (ws : List Nat) (impl : Bool) : Lane :=
  L.forEach (L.ownElems f src sub) fun e L => L.refresh f e ws impl

/-- A refresh of a source that either ferry may carry (SRC 5 and 6). -/
def Lane.refreshBoth (L : Lane) (src sub : Nat) (ws : List Nat) (impl : Bool) : Lane :=
  (L.refreshSrc .lane src sub ws impl).refreshSrc .vehicle src sub ws impl

/-- The elements of a source marked implausible without a refresh. -/
def Lane.markImpl (L : Lane) (f : Ferry) (src sub : Nat) (impl : Bool) : Lane :=
  L.forEach (L.ownElems f src sub) fun e L => L.setElem f e { L.elem f e with impl := impl }

/-! ### Landed elements of the lane ferry -/

/-- The element number of a source in the lane manifest, and the status of lane `y`'s copy. -/
def Lane.impPresent (L : Lane) (y : LaneId) (e : Nat) : Bool := L.bit (Reg.XF_IMPS_PRESENT (laneNum y) e)

/-- A landed copy that is present, usable and has AGE 0. -/
def Lane.impFresh (L : Lane) (y : LaneId) (e : Nat) : Bool :=
  L.bit (Reg.XF_IMPS_PRESENT (laneNum y) e) && L.bit (Reg.XF_IMPS_DECODED (laneNum y) e) && L.get (Reg.XF_IMPS_AGE (laneNum y) e) = 0

/-- Word `i` of the landed copy of lane `y`'s element of a source; 0 where the manifest has none. -/
def Lane.impWord (L : Lane) (y : LaneId) (src sub i : Nat) : Nat :=
  match L.findElem .lane src sub with
  | none => 0
  | some e => L.get (Reg.XF_IMP_WORD (laneNum y) (L.impBase .lane e + i))

/-- Whether lane `y`'s element of a source arrived fresh, and whether its berth was present. -/
def Lane.freshSrc (L : Lane) (y : LaneId) (src sub : Nat) : Bool :=
  match L.findElem .lane src sub with
  | none => false
  | some e => L.impFresh y e

/-- The health word of lane `y` as landed (Table 1.2). -/
def Lane.healthOf (L : Lane) (y : LaneId) : Nat := L.impWord y 2 0 0

/-- Bits of the health word. -/
def hRefuge : Nat := 26
def hSelfOk : Nat := 25
def hPairLock : Nat := 24
def hInStep : Nat := 23
def hQualified : Nat := 22
def hClaim : Nat := 21
def hDebugSplit : Nat := 12

/-! ### Codings (Table 10.8) -/

/-- Whether a coding is one of the SLEW8 ones. -/
def isSlew (coding : Nat) : Bool := coding = 2 || coding = 3

/-- The offset of TIME10 (Table 10.8): the departure's ferry time less a timestamp given by its low 32 bits; 65,535 for an older edge. -/
def timeOffset (departure ts : Nat) : Nat := min 65535 (uns 32 ((departure : Int) - ts))

/-- The coded bytes of an element's words, sent at a departure. For SLEW8 the word is the step. For TIME10 word 0 holds CODE in [7:5], VALID
in [4], NEDGE in [3:1] and edge i's LINE and LEVEL in [10+3i:8+3i], and words 1 to 4 the edges' timestamps; the wire carries the low byte of
word 0, then three bytes for each edge (log entry 14). -/
def codeBytes (coding departure : Nat) (ws : List Nat) : List Byte :=
  match coding with
  | 0 => ws.flatMap fun w => beBytes 2 (w % 2 ^ 16)
  | 1 => ws.flatMap fun w => beBytes 4 (w % 2 ^ 32)
  | 4 =>
    let cs := ws.map fun w => uns 12 (clampI (-2048) 2047 (roundDiv (sgn 32 w) 16))
    let n := cs.foldl (fun a c => a * 2 ^ 12 + c) 0
    if cs.length % 2 = 0 then beBytes (3 * cs.length / 2) n else beBytes ((3 * cs.length + 1) / 2) (n * 16)
  | 5 => beBytes 1 (nth ws 0 % 2 ^ 8) ++
    [0, 1, 2, 3].flatMap (fun i => beBytes 1 (nth ws 0 / 2 ^ (8 + 3 * i) % 8) ++
      beBytes 2 (if i < nth ws 0 / 2 % 8 then timeOffset departure (nth ws (i + 1)) else 0))
  | _ => ws.flatMap fun w => beBytes 1 (w % 2 ^ 8)

/-- The length of an element's coded data (R457 REASON 2); 0 where the coding has no such length. -/
def codedLen (coding w : Nat) : Nat :=
  match coding with
  | 0 => 2 * w
  | 1 => 4 * w
  | 2 | 3 => if w = 1 then 1 else 0
  | 4 => (3 * w + 1) / 2
  | 5 => if w = 5 then 13 else 0
  | _ => 0

/-- Consecutive bytes of a list. -/
def slice (l : List Byte) (i n : Nat) : List Byte := (l.drop i).take n

/-- The words of coded data (RAW16, RAW32 and QUANT12). -/
def decodeWords (coding w : Nat) (bs : List Byte) : List Nat :=
  match coding with
  | 0 => (List.range w).map fun i => uns 32 (sgn 16 (ofBe (slice bs (2 * i) 2)))
  | 1 => (List.range w).map fun i => ofBe (slice bs (4 * i) 4)
  | 4 => (List.range w).map fun i =>
      let three := ofBe (slice bs (3 * (i / 2)) 3)
      let code := if i % 2 = 0 then ofBe (slice bs (3 * (i / 2)) 2) / 16 else three % 2 ^ 12
      uns 32 (sgn 12 code * 16)
  | _ => []

/-! ### Landed elements and SLEW8 states (R463, R466, R468) -/

/-- The fields of a landed word and of an element's status, by node-table index. -/
def impFld (f : Ferry) (i w : Nat) : Fld :=
  match f with
  | .lane => Reg.XF_IMP_WORD i w
  | .vehicle => Reg.VF_IMP_WORD w
def impsAge (f : Ferry) (i e : Nat) : Fld :=
  match f with
  | .lane => Reg.XF_IMPS_AGE i e
  | .vehicle => Reg.VF_IMPS_AGE e
def impsPresent (f : Ferry) (i e : Nat) : Fld :=
  match f with
  | .lane => Reg.XF_IMPS_PRESENT i e
  | .vehicle => Reg.VF_IMPS_PRESENT e
def impsDecoded (f : Ferry) (i e : Nat) : Fld :=
  match f with
  | .lane => Reg.XF_IMPS_DECODED i e
  | .vehicle => Reg.VF_IMPS_DECODED e
def impsImpl (f : Ferry) (i e : Nat) : Fld :=
  match f with
  | .lane => Reg.XF_IMPS_IMPL i e
  | .vehicle => Reg.VF_IMPS_IMPL e

/-- A SLEW8 state of a sender or receiver. -/
def Lane.slew (L : Lane) (f : Ferry) (tx : Bool) (k : Nat) : Option Int :=
  match f, tx with
  | .lane, true => spGet none k L.xf.slewTx
  | .lane, false => spGet none k L.xf.slewRx
  | .vehicle, true => spGet none k L.vf.slewTx
  | .vehicle, false => spGet none k L.vf.slewRx
def Lane.setSlew (L : Lane) (f : Ferry) (tx : Bool) (k : Nat) (v : Option Int) : Lane :=
  match f, tx with
  | .lane, true => { L with xf := { L.xf with slewTx := spSet none k v L.xf.slewTx } }
  | .lane, false => { L with xf := { L.xf with slewRx := spSet none k v L.xf.slewRx } }
  | .vehicle, true => { L with vf := { L.vf with slewTx := spSet none k v L.vf.slewTx } }
  | .vehicle, false => { L with vf := { L.vf with slewRx := spSet none k v L.vf.slewRx } }

/-- A receiver's SLEW8 state dropped: DECODED clear and AGE 255 until the next anchor (R468). -/
def Lane.dropSlew (L : Lane) (f : Ferry) (i e : Nat) : Lane :=
  ((L.set (impsDecoded f i e) 0).set (impsAge f i e) 255).setSlew f false (128 * i + e) none

/-- The SLEW8 states of every berth of a ferry dropped. -/
def Lane.dropSlews (L : Lane) (f : Ferry) : Lane :=
  L.forEach (List.range (L.manNodes f)) fun i L =>
    L.forEach ((L.elemsOf f i).filter fun e => isSlew (L.desc f e).coding) fun e L => L.dropSlew f i e

end Sys2Proof.Machine
end

