-- ==== Sys2Proof/Machine/FcShare.lean ====
section
/-! DEFINITION. What XF and FC write at the dispatch of a current-loop trigger (05_field_control.md): the share in force (R259 to
R262, R298), the preload (R254, R255) and the d-reference word (R261, R263). -/

namespace Sys2Proof.Machine

/-- The signal words of bridge `b`'s sample set (Table 3.2): three currents, VDC, status; and angle, speed, qualifiers. -/
def sampleBase (b : Nat) : Nat := 8 * b
def angleBase (b : Nat) : Nat := 16 + 8 * b

/-- The latest qualifier word of actuator `b` and its bits (Table 6.5). -/
def Lane.aq (L : Lane) (b : Nat) : Nat := L.sig (angleBase b + 2)
def Lane.aqValid (L : Lane) (b : Nat) : Bool := bitAt (L.aq b) 31
def Lane.aqSqual (L : Lane) (b : Nat) : Bool := bitAt (L.aq b) 30
def Lane.aqStill (L : Lane) (b : Nat) : Bool := bitAt (L.aq b) 29

/-- The bridge whose sampling instants a trigger's source names (Table 3.4). -/
def Lane.trigBridge (L : Lane) (n : Nat) : Option Nat :=
  let src := L.get (Reg.LE_TRIG_CFG_SRC n)
  if src = 0 then none else if src < 4 then some 0 else if src < 7 then some 1 else none

/-- The ramp factor with 14 fraction bits (R258): 1 in a service-class mode or where no ramp is in progress. -/
def Lane.rampFactor (L : Lane) (b : Nat) : Nat :=
  if isService L.mode || !L.bit (Reg.FC_BR_STAT_RAMP b) then 16384
  else match (L.br b).rampAt with
    | none => 0
    | some t => min 16384 (16384 * (L.now - t) / (L.get (Reg.FC_CATCH_CFG_RAMP b) * msTicks))

/-- k_reg with 14 fraction bits (R262). -/
def Lane.kReg (L : Lane) (b : Nat) : Nat :=
  let recv := (L.br b).received
  let spd := L.sigI (angleBase b + 1)
  let regen := L.aqSqual b && ((0 < recv && spd < 0) || (recv < 0 && 0 < spd))
  let vdc := truncDiv (L.sigI (sampleBase b + 3)) 65536
  let vreg := L.getI (Reg.FC_REGEN_CFG_V_REG b)
  let vceil := L.getI (Reg.FC_REGEN_CFG_V_CEIL b)
  if !regen then 16384
  else if vceil ≤ vdc then 0
  else if vdc ≤ vreg || vceil ≤ vreg then 16384
  else (16384 * (vceil - vdc) / (vceil - vreg)).toNat

/-- The share in force by the steps of Table 5.5 (R259). -/
def Lane.shareInForce (L : Lane) (b : Nat) : Int :=
  let s1 := if L.get (Reg.FC_BR_STAT_STATE b) = 3 then (L.br b).received else 0
  let s2 := truncDiv (s1 * L.rampFactor b) 16384
  let s3 := truncDiv (s2 * L.kReg b) 16384
  let lim := (L.get (Reg.FC_LOCK_CFG_LIM b) * 65536 : Nat)
  let s4 := if L.bit (Reg.FC_BR_STAT_LOCKED b) then clampI (-lim) lim s3 else s3
  let afl := (L.get (Reg.AF_LOSS_CFG_LIM b) * 65536 : Nat)
  if L.bit (Reg.FC_BR_STAT_AFLIM b) then clampI (-afl) afl s4 else s4

/-- i_dis in Q1.30 (R263). -/
def Lane.iDis (L : Lane) (b : Nat) : Int :=
  let vdc := L.sigI (sampleBase b + 3)
  let vdis := L.getI (Reg.FC_DIS_CFG_V_DIS b) * 65536
  let vceil := L.getI (Reg.FC_REGEN_CFG_V_CEIL b) * 65536
  let imax := (L.get (Reg.FC_DIS_CFG_IDIS_MAX b) * 65536 : Nat)
  if vdc ≤ vdis then 0
  else if vceil ≤ vdis || vceil ≤ vdc then imax
  else imax * (vdc - vdis) / (vceil - vdis)

/-- XF writes SHRb and XF_SHARE_OUT[b] at a dispatch (R139, R259). The ramp begins with the first non-zero received share, and ends
when its factor reaches 1 (R258). -/
def Lane.writeShare (L : Lane) (b : Nat) : Lane :=
  let r := L.br b
  let L1 := if L.bit (Reg.FC_BR_STAT_RAMP b) && r.rampAt.isNone && r.received ≠ 0 then L.setBr b { r with rampAt := some L.now } else L
  let L2 := if L1.rampFactor b = 16384 then L1.set (Reg.FC_BR_STAT_RAMP b) 0 else L1
  let s := L2.shareInForce b
  (L2.setI (Reg.XF_SHARE_OUT_SHARE b) s).setSigI (32 + b) s

/-- v_pre (R255): SPD × PSI in Q1.30, 0 with FF set, SPD taken as 0 at standstill. -/
def Lane.vPre (L : Lane) (b : Nat) : Int :=
  if L.bit (Reg.FC_CATCH_CFG_FF b) || L.aqStill b then 0
  else satW 32 (roundDiv (L.sigI (angleBase b + 1) * sgn 32 (L.get (Reg.FC_PRED_PSI_VALUE b))) (2 ^ 27))

/-- The periods a bridge stays in ZERO (R256). -/
def Lane.zeroPeriods (L : Lane) (b : Nat) : Nat :=
  if (L.br b).aboveLimit then L.get (Reg.FC_CATCH_CFG_ZHOLD b) else 64

/-! ### Locked rotor (R267, R268) -/

/-- Whether the received share exceeds TQ. -/
def Lane.aboveTq (L : Lane) (b : Nat) : Bool := decide (L.get (Reg.FC_LOCK_CFG_TQ b) * 65536 < (L.br b).received.natAbs)

/-- The lock timer restarted, and a declared lock ended: it runs only while the received share exceeds TQ. -/
def Lane.lockRestart (L : Lane) (b : Nat) : Lane :=
  (L.setBr b { L.br b with lockAt := if L.aboveTq b then some L.now else none }).set (Reg.FC_BR_STAT_LOCKED b) 0

/-- The end-stop bit is set while its use is enabled. -/
def Lane.endStop (L : Lane) (b : Nat) : Bool :=
  L.bit (Reg.FC_LOCK_TIME_EN_ES b) && bitAt (L.sig (L.get (Reg.FC_LOCK_TIME_ESADDR b))) (L.get (Reg.FC_LOCK_TIME_ESBIT b))

/-- The conditions of R268 other than an edge, looked at when a share, a sample set or a register of the lock arrives. -/
def Lane.lockCheck (L : Lane) (b : Nat) : Lane :=
  if !L.aboveTq b || L.endStop b then L.lockRestart b
  else if (L.br b).lockAt.isNone then L.setBr b { L.br b with lockAt := some L.now } else L

/-- Signal words have changed since `L0`: an end-stop bit set before or now restarts the lock timer (R268). -/
def Lane.esWatch (L L0 : Lane) : Lane :=
  let one (b : Nat) (L : Lane) : Lane := if L.endStop b || L0.endStop b then L.lockRestart b else L
  one 1 (one 0 L)

/-- The preload (R254): a bridge in MEASURE whose condition of R253 holds moves to ZERO; a state base of 0 disables its axis. -/
def Lane.preload (L : Lane) (b : Nat) : Lane :=
  if L.get (Reg.FC_BR_STAT_STATE b) = 1 && L.aqValid b && (L.aqSqual b || L.aqStill b) then
    let v := uns 32 (L.vPre b)
    let d := L.get (Reg.FC_CATCH_ADDR_DSTATE b)
    let q := L.get (Reg.FC_CATCH_ADDR_QSTATE b)
    let L1 := if d = 0 then L else L.setSigs d [0, 0, 0, 0]
    let L2 := if q = 0 then L1 else L1.setSigs q [0, 0, v, v]
    let spd := if L.aqStill b then 0 else L.sigI (angleBase b + 1)
    let above := decide ((L.get (Reg.FC_CATCH_LIM_LIMIT b) * 65536 : Nat) < spd.natAbs)
    let L3 := L2.setBr b { L2.br b with aboveLimit := above, commits := [], duty := [], base := [], pulse := [], pulsePrev := [], nPred := 0 }
    let L4 := L3.setBr b { L3.br b with zeroLeft := L3.zeroPeriods b }
    L4.setBrState b 2
  else L

/-- The d-reference word (R261): ID_BASE × 2^16 − i_dis, saturated, written while EN is set. -/
def Lane.writeIdRef (L : Lane) (b : Nat) : Lane :=
  if L.bit (Reg.FC_ID_CFG_EN b) then
    L.setSigI (L.get (Reg.FC_ID_CFG_IDADDR b)) (satW 32 (L.getI (Reg.FC_ID_CFG_ID_BASE b) * 65536 - L.iDis b))
  else L

/-- REGEN, DISSIP and RAMP of FC_BR_STAT[b] as they hold now (Table 5.11). -/
def Lane.showBridge (L : Lane) (b : Nat) : Lane :=
  ((L.setBool (Reg.FC_BR_STAT_REGEN b) (decide (L.kReg b < 16384))).setBool (Reg.FC_BR_STAT_DISSIP b) (decide (L.iDis b ≠ 0))).setBool
    (Reg.FC_BR_STAT_RAMP b) (decide (L.rampFactor b < 16384))

/-- The words of the import list loaded from a list of values (R72, R120). -/
def Lane.loadImport (L : Lane) (vals : List Nat) : Lane :=
  ((L.importList.zip vals).foldl (fun L e => L.setSig e.1 e.2) L).esWatch L

/-- What XF and FC write before the first instruction of a trigger of bridge `b` (R139, R254, R261). -/
def Lane.dispatchWrites (L : Lane) (b : Nat) : Lane := (((L.writeShare b).preload b).writeIdRef b).esWatch L

end Sys2Proof.Machine
end

