-- ==== Sys2Proof/Machine/AfObs.lean ====
section
/-! DEFINITION. The angle observer (06_angle_speed.md R281 to R305) as a function of the edges it has processed: fusion geometry,
tracking and edge-locked mode, the reported angle and speed. Times are LOCAL ticks. -/

namespace Sys2Proof.Machine

/-- What the observer works with: the angles θ_j (R282), the lane itself, WIN, LOSS_SPD, TSTILL in ticks, and, for the prediction of the other
sets (R289), the set left out. -/
structure ObsCfg where
  angles : List Int
  own : LaneId
  win : Nat
  lossSpd : Nat
  tstill : Int
  without : Option LaneId := none
  deriving DecidableEq, Repr

/-- The lane sector of a hall code (Table 6.1). -/
def sectorOf : Nat → Option Nat
  | 5 => some 0
  | 1 => some 1
  | 3 => some 2
  | 2 => some 3
  | 6 => some 4
  | 4 => some 5
  | _ => none

/-- The fused edge and direction (true: backward) of a legal change of lane `x`'s set between two codes (R279, R282). -/
def legalEdge (x : LaneId) (old new : Nat) : Option (Nat × Bool) :=
  match sectorOf old, sectorOf new with
  | some s, some t =>
    if t = (s + 1) % 6 then some (3 * t + laneNum x, false)
    else if s = (t + 1) % 6 then some (3 * s + laneNum x, true)
    else none
  | _, _ => none

def ObsCfg.angle (c : ObsCfg) (j : Nat) : Int := c.angles.getD (j % 18) 0

/-- Fused edges per electrical revolution of some sets. -/
def perRev (sets : List LaneId) : Nat := 6 * max 1 sets.length

/-- The sets of a list that this observer takes. -/
def ObsCfg.sets (c : ObsCfg) (l : List LaneId) : List LaneId := l.filter fun y => c.without ≠ some y

/-- The fused edges of the lanes in a list. -/
def edgesOf (l : List LaneId) : List Nat := (List.range 18).filter fun j => l.any fun x => laneNum x = j % 3

/-- The representative of an angle nearest to an unwrapped position. -/
def nearest (a p : Int) : Int := p + sgn 16 (uns 16 (a - p))

/-- The representative of an angle strictly beyond `p` in the direction of travel. -/
def beyond (back : Bool) (a p : Int) : Int :=
  if back then p - ((p - a - 1) % 65536 + 1) else p + ((a - p - 1) % 65536 + 1)

/-- The next angle strictly beyond `p` in the direction of travel, among some fused edges; `none` of an empty list. -/
def ObsCfg.next (c : ObsCfg) (js : List Nat) (back : Bool) (p : Int) : Option Int :=
  js.foldl (fun best j =>
    let v := beyond back (c.angle j) p
    match best with
    | none => some v
    | some w => if back then some (max v w) else some (min v w)) none

/-- The guard angle in the direction of travel, from the sets in fusion at the last edge (R293, R297, Table 6.6). -/
def ObsCfg.guard (c : ObsCfg) (o : Obs) : Int :=
  let sixty := if o.back then o.theta - 10923 else o.theta + 10923
  if o.loss then (c.next (edgesOf o.fusion) o.back o.theta).getD sixty
  else if o.fusion.contains c.own then (c.next (edgesOf [c.own]) o.back o.theta).getD sixty
  else sixty

/-- θ_pred at a time, in 2^-32 ecounts (R293). -/
def Obs.predRaw (o : Obs) (t : Int) : Int :=
  match o.last with
  | none => o.theta * 2 ^ 32
  | some l => o.theta * 2 ^ 32 + o.omega * (t - l)

/-- The reported angle at a time, in 2^-32 ecounts: limited by the guard angle (R293, R297). -/
def ObsCfg.pred (c : ObsCfg) (o : Obs) (t : Int) : Int :=
  let g := c.guard o * 2 ^ 32
  if o.back then max (o.predRaw t) g else min (o.predRaw t) g

/-- A speed over two edges, in 2^-32 ecounts per tick, truncated; over two edges of one timestamp spec/ states none (log entry 4). -/
def speedOver (dth dt : Int) : Int :=
  if dt = 0 then sgn 32 (Config.leResult 0x100 [BitVec.ofInt 32 dth]).toNat else truncDiv (dth * 2 ^ 32) dt

/-- ω̂ over `k` edges of a window, newest first. -/
def windowSpeed (w : List (Int × Int)) (k : Nat) : Int :=
  match w, w.getD k (0, 0) with
  | (a, t) :: _, (a', t') => if k = 0 then 0 else speedOver (a - a') (t - t')
  | [], _ => 0

/-- The window k of R292. -/
def ObsCfg.span (c : ObsCfg) (sets : List LaneId) (w : List (Int × Int)) : Nat :=
  min (if c.win = 0 then perRev sets else c.win) (w.length - 1)

/-- The prediction that an edge is compared with: θ_pred, or the angle of edge-locked mode (R288, R296, R299). -/
def ObsCfg.prediction (c : ObsCfg) (o : Obs) (t : Int) : Int := if o.loss then c.pred o t else o.predRaw t

/-- A legal fused edge processed (R292, R296 to R299, R303, R304). -/
def ObsCfg.edge (c : ObsCfg) (o : Obs) (e : FEdge) : Obs :=
  let a := c.angle e.j
  let sets := c.sets e.fusion
  let o1 := { o with
    last := some e.time, lastJ := e.j, lastLane := e.lane, back := e.back, still := false, avalid := true, edges := o.edges + 1, fusion := sets }
  if o.window.isEmpty || e.back ≠ o.back then
    let th := nearest a (roundDiv (c.pred o e.time) (2 ^ 32))
    { o1 with theta := th, window := [(th, e.time)], squal := false, omega := 0, clean := 0, seen := ⟨th, th, th⟩ }
  else
    let p := c.prediction o e.time
    let th := beyond e.back a o.theta
    let w := ((th, e.time) :: o.window).take 19
    let far := decide (5461 * 2 ^ 32 < (th * 2 ^ 32 - p).natAbs)
    let from_ (y : LaneId) : Int := if sets.contains y && !o.fusion.contains y then o.theta else o.seen.get y
    let o2 := { o1 with theta := th, window := w, squal := true, seen := (Tri.mk (from_ .A) (from_ .B) (from_ .C)).set e.lane th }
    if o.loss then
      let n := if far then 0 else o.clean + 1
      if perRev sets ≤ n then { o2 with loss := false, clean := 0, omega := windowSpeed w (c.span sets w) }
      else { o2 with clean := n, omega := windowSpeed w 1 }
    else if far && decide (c.lossSpd * 2 ^ 32 ≤ o.omega.natAbs * 100000) then
      { o2 with loss := true, lost := o.lost + 1, clean := 0, omega := windowSpeed w 1 }
    else { o2 with omega := windowSpeed w (c.span sets w) }

/-- When θ_pred passes an expected edge of one of some sets in fusion by more than 30° (R296): the edge that follows the latest of its set;
for the set of another lane 60 µs later. -/
def ObsCfg.lossTime (c : ObsCfg) (o : Obs) (sets : List LaneId) : Option Int :=
  match o.last with
  | none => none
  | some l =>
    if o.loss || o.still || o.omega = 0 || decide (o.omega.natAbs * 100000 < c.lossSpd * 2 ^ 32) then none
    else
      let due (y : LaneId) : Option Int := (c.next (edgesOf [y]) o.back (o.seen.get y)).map fun v =>
        let d := (if o.back then o.theta - v else v - o.theta) + 5461
        l + max 0 (d * 2 ^ 32 / (o.omega.natAbs : Int) + 1) + (if y = c.own then 0 else 6000)
      (o.fusion.filter fun y => (c.sets sets).contains y).foldl (fun best y =>
        match best, due y with
        | some p, some q => some (min p q)
        | none, q => q
        | p, none => p) none

/-- The observer's angle held within a fused sector (R302): to its centre when no angle is known yet, else to the nearer boundary. -/
def ObsCfg.within (c : ObsCfg) (o : Obs) (sec : Nat × Nat) : Obs :=
  let lo := c.angle sec.1
  let span := (c.angle (sec.1 + sec.2) - lo) % 65536
  if !o.avalid then { o with theta := roundDiv (2 * lo + span) 2, avalid := true }
  else
    let rel := (o.theta - lo) % 65536
    if rel ≤ span then o
    else if rel - span ≤ 65536 - rel then { o with theta := o.theta - (rel - span) } else { o with theta := o.theta + (65536 - rel) }

/-- One entry of the observer's record processed: a legal fused edge, or, with index 18 to 21, a loss declared on a missing edge (R297), a
standstill (R301), an illegal transition (R299), or a settled angle (R302). A loss or a standstill that an edge known only later contradicts
does not hold (R291, Table 6.6). -/
def ObsCfg.apply (c : ObsCfg) (o : Obs) (e : FEdge) : Obs :=
  match e.j with
  | 18 =>
    let missing := match c.lossTime o e.fusion with
      | none => false
      | some t => decide (t ≤ e.time)
    if missing then { o with loss := true, lost := o.lost + 1, clean := 0, omega := windowSpeed o.window 1 } else o
  | 19 =>
    let passed := match o.last with
      | none => true
      | some l => decide (l + c.tstill ≤ e.time)
    if passed then
      { o with theta := roundDiv (c.pred o e.time) (2 ^ 32), still := true, squal := false, omega := 0, window := [], loss := false, clean := 0 }
    else o
  | 20 => { o with clean := 0 }
  | 21 => if o.still || o.last.isNone then c.within o e.sec else o
  | _ => c.edge o e

/-- All entries processed in order (R291). -/
def ObsCfg.run (c : ObsCfg) (o : Obs) (l : List FEdge) : Obs := l.foldl c.apply o

/-- Whether an entry goes before another: earlier; at one time, increasing j forward and decreasing j backward (R291), and an edge before any
other entry (Table 6.6). -/
def edgeBefore (a b : FEdge) : Bool :=
  a.time < b.time || (a.time = b.time && (if a.j < 18 && b.j < 18 && b.back then b.j < a.j else a.j < b.j))

/-- An entry inserted in order. -/
def insertEdge (e : FEdge) : List FEdge → List FEdge
  | [] => [e]
  | f :: t => if edgeBefore e f then e :: f :: t else f :: insertEdge e t

/-- The reported speed at a time as a fraction, ecounts per tick (R305). -/
def ObsCfg.speed (c : ObsCfg) (o : Obs) (t : Int) : Int × Int :=
  match o.last with
  | none => (0, 1)
  | some l =>
    if !o.squal || o.still then (0, 1)
    else
      let g : Int := if o.fusion.contains c.own then
          (((c.next (edgesOf [c.own]) o.back o.theta).getD o.theta) - o.theta).natAbs else 10923
      let dt := t - l
      if 0 < dt && decide (g * 2 ^ 32 < o.omega.natAbs * dt) then (if o.back then -g else g, dt) else (o.omega, 2 ^ 32)

/-! ### The observer of a lane -/

def Lane.act (L : Lane) (b : Nat) : AfAct := L.af.act.get b
def Lane.setAct (L : Lane) (b : Nat) (a : AfAct) : Lane := { L with af := { L.af with act := L.af.act.set b a } }

/-- What the observer of actuator `b` works with at present. -/
def Lane.obsCfg (L : Lane) (b : Nat) : ObsCfg :=
  { angles := (List.range 18).map fun (j : Nat) => roundDiv (65536 * j : Nat) 18 + L.getI (Reg.AF_ECAL_CAL b j)
    own := L.me
    win := L.get (Reg.AF_OBS_CFG_WIN b)
    lossSpd := L.get (Reg.AF_OBS_CFG_LOSS_SPD b)
    tstill := (L.get (Reg.AF_OBS_CFG_TSTILL b) * msTicks : Nat) }

/-- Ferry time now, in ticks: AF's times are ferry times (R277). -/
def Lane.ferryNow (L : Lane) : Int := L.now + L.xf.off

/-- The observer angle at a ferry tick, rounded to the nearest ecount (R294). -/
def Lane.angleOf (L : Lane) (b : Nat) (o : Obs) (t : Int) : Int := roundDiv ((L.obsCfg b).pred o t) (2 ^ 32)
def Lane.angleNow (L : Lane) (b : Nat) : Int := L.angleOf b (L.act b).obs L.ferryNow

/-- The speed that AF_SPD[b] shows at a LOCAL tick (R305). -/
def Lane.afSpeed (L : Lane) (b t : Nat) : Int :=
  let s := (L.obsCfg b).speed (L.act b).obs (L.ferryAt t)
  truncDiv (s.1 * 100000) s.2

/-! ### Fused sectors (R282, R302) -/

/-- The fused sector that the codes of sets in fusion show: its first edge and its width in edge steps. -/
def sectorFrom (sets : List (LaneId × Nat)) : Option (Nat × Nat) :=
  let arcs := sets.filterMap fun e => (sectorOf e.2).map fun s => 3 * s + laneNum e.1
  let inAll (j : Nat) : Bool := arcs.all fun a => (j + 18 - a) % 18 < 3
  match arcs.find? inAll with
  | none => none
  | some j =>
    let ends := arcs.map fun a => (a + 3 + 18 - j) % 18
    some (j, ends.foldl min 18)

/-- The fused edge before `j` of the sets in fusion. -/
def prevEdge (fusion : List LaneId) (j : Nat) : Nat :=
  ((List.range 18).map fun i => (j + 17 - i) % 18).find? (fun k => (edgesOf fusion).contains k) |>.getD j

end Sys2Proof.Machine
end

