-- ==== Sys2Proof/Machine/HlOps.lean ====
section
/-! DEFINITION. Operations (R612 to R617): numbers, commit points, and the one report that ends each; and what
HL_PART_STAT shows of tags and operations. -/

namespace Sys2Proof.Machine

/-- The open operations of a partition (R600). -/
def Lane.openOps (L : Lane) (p : Nat) : Nat := countIf (fun o => o.part = p) L.hl.ops

/-- The next operation number that no open operation has: 0 to 254 in turn (0xFF names none, R596). -/
def Lane.freeOpId (L : Lane) : Nat :=
  (((List.range 255).map fun i => (L.hl.nextOp + i) % 255).find? fun i => (L.findOp i).isNone).getD 0

/-- An operation opened; its number with the lane. -/
def Lane.openOp (L : Lane) (part route : Nat) (kind : OpKind) (committed : Bool) : Nat × Lane :=
  let id := L.freeOpId
  let o : Op := ⟨id, Fin.ofNat 4 part, route, kind, committed⟩
  let L1 : Lane := { L with hl := { L.hl with ops := L.hl.ops ++ [o], nextOp := (id + 1) % 255 } }
  (id, L1.showPart part)

/-- An operation passes its commit point (R612). -/
def Lane.commitOp (L : Lane) (id : Nat) : Lane :=
  { L with hl := { L.hl with ops := L.hl.ops.map fun o => if o.id = id then { o with committed := true } else o } }

/-! ### Responses (R590, R592) -/

/-- The header word of a response (Table 14.3). -/
def respHdr (lane op tag part code narg : Nat) : Nat :=
  op * 2 ^ 24 + tag * 2 ^ 20 + part * 2 ^ 18 + lane * 2 ^ 16 + code * 2 ^ 8 + narg

/-- Whether a route's link is up. -/
def Lane.routeUp (L : Lane) (r : Nat) : Bool := bitAt L.hl.linkUp.toNat r

/-- A response put into its partition's queue, before those already there where `first` is set (R592, R594). -/
def Lane.queueResponse (L : Lane) (route op tag part code : Nat) (args : List Nat) (first : Bool) : Lane :=
  let q := spGet [] part L.hl.resp
  let e : Response := ⟨route, respHdr (laneNum L.me) op tag part code args.length, args⟩
  let L1 : Lane := { L with hl := { L.hl with resp := spSet [] part (if first then e :: q else q ++ [e]) L.hl.resp } }
  if L1.routeUp route then L1 else L1.event 129

/-- Whether the response to an outstanding order is queued already. -/
def Lane.answered (L : Lane) (t : Tag) : Bool :=
  (spGet [] t.part L.hl.resp).any fun e => bitsOf e.hdr 23 20 = t.tag

/-- After a lane reset: each order outstanding without an answer is answered LANE_RESET before any other response (R594), and each
open operation ends as its commit point says (R617). -/
def Lane.ordersAfterReset (L : Lane) : Lane :=
  let L1 := L.forEach ((L.hl.tags.filter fun t => !L.answered t).reverse) fun t L => L.queueResponse t.route t.op t.tag t.part 0x14 [] true
  L1.forEach L1.hl.ops fun o L => if o.committed then L.endOp o.id true 0 none else L.endOp o.id false 2 none

/-- Whether the COMPLETED report of an operation still waits in a report queue. -/
def Lane.reportQueued (L : Lane) (id : Nat) : Bool :=
  (List.range 3).any fun r =>
    (spGet [] r L.hl.reports).any fun q => bitsOf q.hdr 30 24 = 0x04 && nth q.args 0 % 2 ^ 8 = id

/-! ### Answers and the relay queue (R603 to R606) -/

/-- A message put into the relay queue of 16 (R604). -/
def Lane.relayPush (L : Lane) (m : RelayMsg) : Lane :=
  if 16 ≤ L.hl.relayQ.length then L
  else
    let L1 : Lane := { L with hl := { L.hl with relayQ := L.hl.relayQ ++ [m] } }
    L1.set Reg.HL_STAT_RELAYQ L1.hl.relayQ.length

/-- Word 0 of a relay message (Table 14.4). -/
def relayWord (result : Bool) (origin : LaneId) (part tag : Nat) (addressed : Nat) (firmware : Bool) (opid : Nat) : Nat :=
  b2n result * 2 ^ 31 + laneNum origin * 2 ^ 29 + part * 2 ^ 27 + tag * 2 ^ 23 + countIf (bitAt addressed) [0, 1, 2] % 4 * 2 ^ 21 +
  addressed * 2 ^ 18 + b2n firmware * 2 ^ 8 + opid % 2 ^ 8

/-- The result of a relayed request (R605): the operation number (0xFF: none) and the code. -/
def Lane.relayResult (L : Lane) (origin : LaneId) (part tag op : Nat) (firmware : Bool) (opid code : Nat) : Lane :=
  L.relayPush [relayWord true origin part tag (2 ^ laneNum L.me) firmware opid,
    op * 2 ^ 24 + tag * 2 ^ 20 + part * 2 ^ 18, 0, 0, 0, 0, 0, code]

/-- Word `i` of the running script. -/
def Lane.scriptWord (L : Lane) (r : ScriptRun) (i : Nat) : Nat := L.get (Reg.HL_SCRIPT_WORD r.slot i)

/-- The running script ends (R622, R623): event 134, and its operation's report. -/
def Lane.endScript (L : Lane) (r : ScriptRun) (completed : Bool) (cause : Nat) : Lane :=
  let L1 : Lane := { L with hl := { L.hl with run := none, await := L.hl.await.filter fun a => !a.script } }
  ((L1.set Reg.HL_STAT_SCR_RUN 0).event 134).endOp r.opid completed cause none

/-- A step ends with a code (R623): one other than ACCEPTED that no SKIP right after it tests ends the script, by its commit point. -/
def Lane.stepEnded (L : Lane) (r : ScriptRun) (code : Nat) : Lane :=
  let next := L.scriptWord r r.pc
  let L1 : Lane := { L with hl := { L.hl with run := some { r with code := code } } }
  if code = 0 || (bitsOf next 31 28 = 3 && bitsOf next 23 16 = code) then L1
  else (L1.raise 162).endScript r r.committed 3

/-- An order answered where it came from, with the number of the operation it started, if any: by a response, to the script, through the
relay, or in SYS_MODE_REQ (R590, R605, R622, R111). -/
def Lane.answer (L : Lane) (o : Origin) (op code : Nat) (opid : Option Nat) (args : List Nat) : Lane :=
  match o with
  | .host route part tag => L.queueResponse route op tag part code args false
  | .script => match L.hl.run with
    | none => L
    | some r => if r.code = 256 then L.stepEnded { r with op := opid, opDone := none } code else L
  | .relay y part tag => L.relayResult y part tag op false (opid.getD 0xFF) code
  | .relayFw y => L.relayResult y 0 0 op true 0xFF code
  | .firmware =>
    let L1 : Lane := { L with md := { L.md with fwAt := none } }
    (L1.set Reg.SYS_MODE_REQ_RESULT code).set Reg.SYS_MODE_REQ_GO 0

end Sys2Proof.Machine
end

