-- ==== Sys2Proof/Machine/Permit.lean ====
section
/-! DEFINITION. What each mode permits (02_modes.md R104, Table 2.2). -/

namespace Sys2Proof.Machine

/-- The rows of Table 2.2 that a request can meet. -/
inductive Func where
  | shares | motion | limits | stop | toff | direct | split | logicTest | fuseRepair | precedence | lowPower
  deriving DecidableEq, Repr

/-- The modes of Table 2.2, by number: 0 BOOT, 1 STARTUP, 2 SERVICE, 3 DEGRADED, 4 LAST-LANE, 5 RECOVERY, 6 WORKSHOP, 7 PARK. -/
def permitted (f : Func) (m : Nat) : Bool :=
  match f with
  | .shares => m ≠ 0 && m ≠ 7
  | .motion => 1 ≤ m && m ≤ 5
  | .limits => m ≠ 0
  | .stop => m = 1 || m = 5 || m = 6
  | .toff => m = 1 || m = 5 || m = 6 || m = 7
  | .direct => m = 6
  | .split => m = 1 || m = 2 || m = 5 || m = 6 || m = 7
  | .logicTest => m = 6 || m = 7
  | .fuseRepair => m = 6
  | .precedence => m = 1 || m = 6 || m = 7
  | .lowPower => m = 7

/-- Whether the lane's mode permits a function; a split in SERVICE needs the two other lanes qualified. -/
def Lane.permits (L : Lane) (f : Func) : Bool :=
  permitted f L.mode &&
  !(f = .split && L.mode = 2 && !(others L.me).all fun y => L.bitOf Reg.XF_VSTAT_QUAL_SET (laneNum y))

/-- A firmware action refused because of the mode (R104). -/
def Lane.modeRefusal (L : Lane) : Lane := L.raise 2

end Sys2Proof.Machine
end

