-- ==== Sys2Proof/Machine/Sm.lean ====
section
/-! DEFINITION. The deputy (12_safety.md): its measurements (R513 to R515), limits and restraint (R516 to R520), MONITORED STOP
(R521 to R526), TORQUE OFF (R527 to R530), and the safety inputs with their test pulses (R531 to R535). -/

namespace Sys2Proof.Machine

def Lane.smAct (L : Lane) (b : Nat) : SmAct := L.sm.act.get b
def Lane.setSmAct (L : Lane) (b : Nat) (a : SmAct) : Lane := { L with sm := { L.sm with act := L.sm.act.set b a } }
def Lane.smIn (L : Lane) (i : Nat) : SmIn := spGet {} i L.sm.inp
def Lane.setSmIn (L : Lane) (i : Nat) (v : SmIn) : Lane := { L with sm := { L.sm with inp := spSet {} i v L.sm.inp } }

/-! ### Measurement -/

/-- Ecounts per 60° sector times ticks per ms (R514). -/
def sectorTicks : Nat := 1092300000

/-- The deputy's speed at a tick that no edge has followed (R514, R515): the magnitude of the last edge, bounded by what the time since then
still permits; AF's speed at that tick while the own hall set is lost. -/
def Lane.speedAt (L : Lane) (b now : Nat) : Int :=
  let a := L.smAct b
  if a.fused then L.afSpeed b now
  else match a.last with
    | none => 0
    | some t =>
      let dt := now - t
      if 100 * msTicks ≤ dt then 0
      else if dt = 0 then a.dir * a.mag
      else a.dir * (min a.mag (sectorTicks / dt) : Nat)

/-- The deputy's speed now. -/
def Lane.smSpeed (L : Lane) (b : Nat) : Int := L.speedAt b L.now

/-- SM_SPD as it reads at the present instant. -/
def Lane.showSpeed (L : Lane) (b : Nat) : Lane := L.setI (Reg.SM_SPD_SPD b) (L.smSpeed b)

/-- SM_POS moved by a number of counts. -/
def Lane.movePos (L : Lane) (b : Nat) (n : Int) : Lane := L.setI (Reg.SM_POS_POS b) (L.getI (Reg.SM_POS_POS b) + n)

/-- R515: while the own hall set is lost, the count follows AF_POS, one count for each 10,923 ecounts. -/
def Lane.followFused (L : Lane) (b : Nat) : Lane :=
  let a := L.smAct b
  let lost := (L.af.act.get b).ownLost
  let pos := L.angleNow b
  if !lost then L.setSmAct b { a with fused := false }
  else if !a.fused then (L.setSmAct b { a with fused := true, fusedPos := pos }).raise 132 b
  else
    let n := truncDiv (sgn 32 (uns 32 (pos - a.fusedPos))) 10923
    (L.setSmAct b { a with fusedPos := a.fusedPos + 10923 * n }).movePos b n

/-! ### The watch over a running stop (R522, R524, R525) -/

/-- Whether a stop runs. -/
def Lane.stopping (L : Lane) : Bool := L.get Reg.SM_STOP_STAT_STATE = 1

/-- The reference r_b a number of µs after the start (R522). -/
def Lane.refAt (L : Lane) (b us : Nat) : Nat := L.sm.v0.get b - L.get Reg.SM_STOP_CFG_DECEL * us / 1000

/-- The reference at the present instant, as the stop element carries it (R522). -/
def Lane.stopRef (L : Lane) (b : Nat) : Nat := L.refAt b ((L.now - L.sm.stopAt) / usTicks)

/-- Whether the speed at a tick exceeds the envelope, whose reference is that of the last 10 µs step of t (R524). -/
def Lane.exceeds (L : Lane) (b t : Nat) : Bool :=
  L.refAt b (10 * ((t - L.sm.stopAt) / 1000)) + L.get Reg.SM_STOP_CFG_TOL < (L.speedAt b t).natAbs

/-- Since when the envelope is exceeded without a break, from the last watch to now, one 10 µs step after the other: within a step the
reference stands and the speed does not rise, so its last tick decides. -/
def Lane.exceededSince (L : Lane) (b : Nat) : Option Nat :=
  let k (t : Nat) := (t - L.sm.stopAt) / 1000
  let k0 := k L.sm.watchedAt
  (List.range (k L.now + 1 - k0)).foldl (fun since i =>
    let first := max L.sm.watchedAt (L.sm.stopAt + 1000 * (k0 + i))
    if L.exceeds b (min L.now (L.sm.stopAt + 1000 * (k0 + i) + 999)) then some (since.getD first) else none) (L.smAct b).exceeded

/-- Whether both speeds are at or below SPEED_MAX at a tick (R525). -/
def Lane.slowAt (L : Lane) (t : Nat) : Bool :=
  let lim := L.get Reg.SYS_STILL_CFG_SPEED_MAX
  (L.speedAt 0 t).natAbs ≤ lim && (L.speedAt 1 t).natAbs ≤ lim

/-- The first tick from `lo` to `lo + n` at which a condition that does not end again holds, by halving. -/
def firstTick (p : Nat → Bool) (lo n : Nat) : Nat → Nat
  | 0 => lo + n
  | fuel + 1 => if n = 0 then lo else if p (lo + n / 2) then firstTick p lo (n / 2) fuel else firstTick p (lo + n / 2 + 1) (n - n / 2 - 1) fuel

/-- Since when both speeds are low, from the last watch to now (R525): between edges the speeds do not rise, so a low one stays low. -/
def Lane.slowSince (L : Lane) : Option Nat :=
  if L.slowAt L.now then some (L.sm.slow.getD (firstTick L.slowAt L.sm.watchedAt (L.now - L.sm.watchedAt) 64)) else none

/-- SM_STOP_STAT.T: the ms since the start of the last stop, up to 0xFFFF (Table 12.11). -/
def Lane.showStop (L : Lane) : Lane :=
  if L.get Reg.SM_STOP_STAT_STATE = 0 then L else L.set Reg.SM_STOP_STAT_T (min 0xFFFF ((L.now - L.sm.stopAt) / msTicks))

/-- The envelope and hold conditions of a running stop brought to the present instant (R524, R525). -/
def Lane.watchStop (L : Lane) : Lane :=
  if L.stopping then
    let a (b : Nat) := { L.smAct b with exceeded := L.exceededSince b }
    let L1 : Lane := { L with sm := { L.sm with act := ⟨a 0, a 1⟩, slow := L.slowSince, watchedAt := L.now } }
    L1.showStop
  else L

/-- Both measurements brought to the present instant; a stop is first watched up to it with those it had. -/
def Lane.measure (L : Lane) : Lane :=
  let L1 := (L.watchStop.followFused 0).followFused 1
  let L2 := L1.setBool Reg.SM_STAT_FUSED ((L1.smAct 0).fused || (L1.smAct 1).fused)
  (L2.showSpeed 0).showSpeed 1

/-! ### Limits (Table 12.1) -/

/-- The number of a function of an actuator in SM_STAT.VIOL: 2 RATE, 1 TRAVEL, 0 ONE-WAY of actuator 0; 5, 4, 3 of actuator 1. -/
def violBit (b k : Nat) : Nat := 3 * b + k

/-- Whether the latch input or the order holds ONE-WAY active. -/
def Lane.oneWayActive (L : Lane) (b : Nat) : Bool :=
  L.bit (Reg.SM_ONEWAY_SET b) ||
  (L.bit (Reg.SM_ONEWAY_LATCH_EN b) && L.bitOf Reg.SM_SI_STAT_STATE (L.get (Reg.SM_ONEWAY_LATCH_SI b)) = L.bit (Reg.SM_ONEWAY_ACT b))

/-- The speed at which LIMITED RATE releases (Table 12.1). -/
def Lane.rateRelease (L : Lane) (b : Nat) : Nat := L.get (Reg.SM_RATE_LIMIT b) - L.get (Reg.SM_RATE_LIMIT b) / 16

/-- Whether function `k` of actuator `b` is in force at the present instant. -/
def Lane.violNow (L : Lane) (b k : Nat) : Bool :=
  let v := (L.smSpeed b).natAbs
  let pos := L.getI (Reg.SM_POS_POS b)
  let hi := L.getI (Reg.SM_TRAVEL_HI b)
  let lo := L.getI (Reg.SM_TRAVEL_LO b)
  L.mode ≠ 0 &&
  (match k with
  | 2 => L.bit (Reg.SM_RATE_EN b) &&
      (if L.bitOf Reg.SM_STAT_VIOL (violBit b 2) then L.rateRelease b < v else L.get (Reg.SM_RATE_LIMIT b) < v)
  | 1 => lo ≤ hi && lo ≠ -32768 && (pos > hi || pos < lo)
  | _ => L.bit (Reg.SM_ONEWAY_EN b) && L.oneWayActive b)

/-- The direction that a function in force restrains: backward or forward. -/
def Lane.violBackward (L : Lane) (b k : Nat) : Bool :=
  match k with
  | 2 => L.smSpeed b < 0
  | 1 => L.getI (Reg.SM_POS_POS b) < L.getI (Reg.SM_TRAVEL_LO b)
  | _ => L.bit (Reg.SM_ONEWAY_DIR b)

/-- The functions in force, as VIOL shows them. -/
def Lane.violWord (L : Lane) : Nat :=
  [(0, 0), (0, 1), (0, 2), (1, 0), (1, 1), (1, 2)].foldl (fun v p => if L.violNow p.1 p.2 then setBit v (violBit p.1 p.2) else v) 0

/-- The union of the directions restrained (Table 12.7), as RESTR shows them. -/
def Lane.restrWord (L : Lane) (viol : Nat) : Nat :=
  [(0, 0), (0, 1), (0, 2), (1, 0), (1, 1), (1, 2)].foldl
    (fun v p => if bitAt viol (violBit p.1 p.2) then setBit v (2 * p.1 + b2n (L.violBackward p.1 p.2)) else v) 0

/-- Whether the deputy restrains a direction of an actuator (R516). -/
def Lane.restrained (L : Lane) (b : Nat) (backward : Bool) : Bool := L.bitOf Reg.SM_STAT_RESTR (2 * b + b2n backward)

/-! ### MONITORED STOP (R521 to R526) -/

/-- SM_STOP_STAT.STATE changed, with its event. -/
def Lane.setStop (L : Lane) (st : Nat) : Lane :=
  if L.get Reg.SM_STOP_STAT_STATE = st then L else (L.set Reg.SM_STOP_STAT_STATE st).event 19

/-- A stop starts: both speeds are recorded (R522), and its conditions are watched from this instant on. -/
def Lane.startStop (L : Lane) (op : Option Nat) : Lane :=
  let L1 := L.measure
  let a0 := { L1.smAct 0 with exceeded := none }
  let a1 := { L1.smAct 1 with exceeded := none }
  let sm := { L1.sm with v0 := ⟨(L1.smSpeed 0).natAbs, (L1.smSpeed 1).natAbs⟩, stopAt := L1.now, stopOp := op, slow := none, watchedAt := L1.now }
  let L2 : Lane := { L1 with sm := { sm with act := ⟨a0, a1⟩ } }
  (((L2.set Reg.SM_STOP_STAT_T 0).count Reg.SM_CNT_STOP_COUNT).setStop 1).watchStop

/-- A stop ends in a state, its operation with a report. -/
def Lane.endMonitored (L : Lane) (st : Nat) (completed : Bool) (cause : Nat) : Lane :=
  let op := L.sm.stopOp
  let L1 : Lane := { L with sm := { L.sm with stopOp := none } }
  (L1.setStop st).endOp? op completed cause none

/-- TORQUE OFF by order (R528); a running stop ends with cause ORDER (Table 12.7). -/
def Lane.torqueOff (L : Lane) : Lane :=
  let L1 := if L.stopping then L.endMonitored 2 true 2 else L
  L1.assertToff

/-- The stop element as it is committed before a latch point (R522): ACTIVE in [31] and the reference of actuator `b`. -/
def Lane.stopWord (L : Lane) (b : Nat) : Nat := b2n L.stopping * 2 ^ 31 + L.stopRef b % 2 ^ 16

/-- The deputy's commit of its stop element, from the start of a stop on. -/
def Lane.commitStop (L : Lane) : Lane :=
  if L.get Reg.SM_STOP_STAT_STATE = 0 then L
  else match (L.elemsOf .lane (L.ownIndex .lane)).find? fun e => L.expBase .lane e = L.get Reg.SM_STOP_CFG2_ELEM with
    | none => L
    | some e => L.refresh .lane e [L.stopWord 0, L.stopWord 1] false

/-! ### The deputy at an instant -/

/-- The reaction to an onset (Table 12.2). -/
def Lane.limitReaction (L : Lane) : Lane :=
  if L.mode = 1 || L.mode = 5 || L.mode = 6 then
    match L.get Reg.SM_REACT_REACT with
    | 1 => if L.stopping then L else L.startStop none
    | 2 => L.torqueOff
    | _ => L
  else L

/-- One onset: counted, raised, reacted to (R519, R520). -/
def Lane.onset (L : Lane) (b : Nat) : Lane := ((L.count Reg.SM_CNT_VIOL_COUNT).raise 131 b).limitReaction

/-- The limits evaluated (R516): VIOL and RESTR, with the onsets. -/
def Lane.limits (L : Lane) : Lane :=
  let old := L.get Reg.SM_STAT_VIOL
  let viol := L.violWord
  let restr := L.restrWord viol
  let L1 := L.set Reg.SM_STAT_VIOL viol
  let L2 := if L1.get Reg.SM_STAT_RESTR = restr then L1 else (L1.set Reg.SM_STAT_RESTR restr).event 21
  L2.forEach ((List.range 6).filter fun i => bitAt viol i && !bitAt old i) fun i L => L.onset (i / 3)

/-- R512: a deputy with an internal fault holds the line asserted outside the service-class modes. -/
def Lane.internalToff (L : Lane) : Lane :=
  if L.bit Reg.SM_STAT_INTFLT && !isService L.mode then L.assertToff else L

/-- Everything the deputy derives from its measurements, at the present instant. -/
def Lane.deputy (L : Lane) : Lane := L.measure.limits.watchStop.internalToff

/-! ### Hall edges -/

/-- A hall code accepted by the deputy's filter (R513, R514): a legal edge is counted and timed by its acceptance. While the fused feedback is in
use, the count follows it alone (R515). -/
def Lane.deputyEdge (L : Lane) (b code : Nat) : Lane :=
  let a := L.smAct b
  let L1 := L.setSmAct b { a with code := code, known := true }
  if !a.known then L1
  else match legalEdge L.me a.code code with
    | none => L1
    | some (_, back) =>
      let dir : Int := if back then -1 else 1
      let mag := match a.last with
        | none => 0
        | some t => if dir ≠ a.dir then 0 else if L.now = t then sectorTicks else sectorTicks / (L.now - t)
      let L2 := L1.watchStop
      let L2 := L2.setSmAct b { L2.smAct b with last := some L.now, dir := dir, mag := mag }
      if a.fused then L2 else L2.movePos b dir

/-- The samples in succession that the deputy's own filter demands (R513). -/
def deputyFilt : Nat := 50

/-- DEPUTY_HALL_EDGE (R513, R514): lines that have not held long enough are not accepted. -/
def execDeputyHallEdge (x : LaneId) (b : Fin 2) (lines : HallLines) (s : State) : Out :=
  onAwake x (fun L => if lines.held < deputyFilt then L else (L.deputyEdge b lines.code).deputy) s

/-- DEPUTY_SPEED_TIMEOUT (R514): 100 ms after the last edge. -/
def execDeputySpeedTimeout (x : LaneId) (b : Fin 2) (s : State) : Out :=
  awakeAtDue x (fun L => if (L.smAct b).mag = 0 then none else (L.smAct b).last.map (· + 100 * msTicks))
    (fun L =>
      let L := L.watchStop
      (L.setSmAct b { L.smAct b with mag := 0 }).deputy) s

/-- LIMITED_RATE_RELEASE (R516): the tick at which the bound 1,092,300,000 / (t − t_last) reaches the release level. -/
def Lane.rateReleaseDue (L : Lane) (b : Nat) : Option Nat :=
  if L.bitOf Reg.SM_STAT_VIOL (violBit b 2) && !(L.smAct b).fused then
    (L.smAct b).last.map (· + sectorTicks / (L.rateRelease b + 1) + 1)
  else none

def execLimitedRateRelease (x : LaneId) (b : Fin 2) (s : State) : Out :=
  awakeAtDue x (fun L => L.rateReleaseDue b) Lane.deputy s

/-! ### SM_CMD -/

/-- STOP (R521): its code; refused outside the modes of Table 2.2. A STOP while a stop runs changes nothing. -/
def Lane.stopCode (L : Lane) : Nat := if L.permits .stop then 0x00 else 0x0B

/-- TOFF (R528). -/
def Lane.toffCode (L : Lane) : Nat := if L.permits .toff then 0x00 else 0x0B

/-- The commit point of a stop: both speeds low for HOLD ms (R525). -/
def Lane.holdDue (L : Lane) : Option Nat :=
  if L.stopping then L.sm.slow.map (· + L.get Reg.SM_STOP_CFG2_HOLD * msTicks) else none

/-- The tick at which a stop fails: the envelope exceeded for GRACE ms (R524). -/
def Lane.graceDue (L : Lane) : Option Nat :=
  if L.stopping then
    let due (b : Nat) := (L.smAct b).exceeded.map (· + L.get Reg.SM_STOP_CFG2_GRACE * msTicks)
    match due 0, due 1 with
    | some t, some u => some (min t u)
    | some t, none => some t
    | none, u => u
  else none

/-- Whether the deputy decides at this very instant to assert its line (Table 12.7): it did so already, an onset makes it, a stop reaches its
commit point or its failure, or its own fault holds the line (R512). -/
def Lane.assertsNow (L : Lane) : Bool :=
  let M := L.deputy
  M.sm.toffAt = some L.now || M.holdDue.any (· ≤ L.now) || M.graceDue.any (· ≤ L.now) || (L.bit Reg.SM_STAT_INTFLT && !isService L.mode)

/-- The modes in which RELEASE is taken (R530). -/
def Lane.releaseMode (L : Lane) : Bool := L.mode = 1 || L.mode = 5 || L.mode = 6 || L.mode = 7

/-- RELEASE (R530): refused in every other mode, and at the instant of a decision to assert the line (Table 12.7). -/
def Lane.releaseCode (L : Lane) : Nat := if L.releaseMode && !L.assertsNow then 0x00 else 0x0B

/-- ABORT of a stop (R526): accepted while one runs, 0x0C at or after its commit point (R616) or its failure (Table 12.7), 0x0D without one. -/
def Lane.stopAbortCode (L : Lane) : Nat :=
  match L.get Reg.SM_STOP_STAT_STATE with
  | 1 =>
    let M := L.measure.watchStop
    if M.holdDue.any (· ≤ L.now) || M.graceDue.any (· ≤ L.now) then 0x0C else 0x00
  | 2 | 3 => 0x0C
  | _ => 0x0D

/-- A firmware write's result; a refusal under R104 raises "mode refusal". -/
def Lane.smResult (L : Lane) (code : Nat) : Lane :=
  let L1 := L.set Reg.SM_CMD_RESULT code
  if code = 0x0B then L1.modeRefusal else L1

def Lane.smStop (L : Lane) : Lane :=
  (if L.stopCode = 0 && !L.stopping then L.startStop none else L).smResult L.stopCode

def Lane.smToff (L : Lane) : Lane := (if L.toffCode = 0 then L.torqueOff else L).smResult L.toffCode

/-- RELEASE refused because the line is asserted at that instant is no refusal of the mode. -/
def Lane.smRelease (L : Lane) : Lane :=
  if L.releaseCode = 0 then L.releaseToff.smResult 0x00
  else if L.releaseMode then L.set Reg.SM_CMD_RESULT 0x0B
  else L.smResult 0x0B

def Lane.smAbort (L : Lane) : Lane :=
  (if L.stopAbortCode = 0 then L.endMonitored 4 false 0 else L).smResult L.stopAbortCode

/-- SM_CMD_STOP (R521). -/
def execSmCmdStop (x : LaneId) (s : State) : Out := onUp x Lane.smStop s

/-- SM_CMD_TOFF (R527, R528). -/
def execSmCmdToff (x : LaneId) (s : State) : Out := onUp x Lane.smToff s

/-- SM_CMD_RELEASE (R530). -/
def execSmCmdRelease (x : LaneId) (s : State) : Out := onUp x Lane.smRelease s

/-- SM_CMD_ABORT (R526). -/
def execSmCmdAbort (x : LaneId) (s : State) : Out := onUp x Lane.smAbort s

/-! ### The end of a stop -/

/-- A stop fails where the envelope is still exceeded at that tick (R524). -/
def Lane.graceExpiry (L : Lane) : Lane :=
  let L1 := L.measure.watchStop
  if L1.graceDue.any (· ≤ L1.now) then (L1.endMonitored 3 true 1).assertToff else L1

/-- STOP_GRACE_EXPIRY (R524, R526). -/
def execStopGraceExpiry (x : LaneId) (s : State) : Out := awakeAtDue x Lane.graceDue Lane.graceExpiry s

/-- A stop reaches its commit point where both speeds are still low (R525). -/
def Lane.holdExpiry (L : Lane) : Lane :=
  let L1 := L.measure.watchStop
  if L1.holdDue.any (· ≤ L1.now) then (L1.endMonitored 2 true 0).assertToff else L1

/-- STOP_HOLD_EXPIRY (R525). -/
def execStopHoldExpiry (x : LaneId) (s : State) : Out := awakeAtDue x Lane.holdDue Lane.holdExpiry s

/-! ### Safety inputs (R531 to R535) -/

/-- The tick of the next sample: each multiple of 10 µs. -/
def Lane.sampleDue (L : Lane) : Option Nat :=
  match L.sm.sampledAt with
  | none => some ((L.now + 999) / 1000 * 1000)
  | some t => some ((t / 1000 + 1) * 1000)

def Lane.pulse (L : Lane) (n : Nat) : Option SmPulse := spGet none n L.sm.pulses
def Lane.setPulse (L : Lane) (n : Nat) (p : SmPulse) : Lane := { L with sm := { L.sm with pulses := spSet none n (some p) L.sm.pulses } }

/-- Whether a test output is enabled. -/
def Lane.tpOn (L : Lane) (n : Nat) : Bool := L.bitOf Reg.SM_TP_CFG_EN n

/-- The tick at which the next pulse of an enabled output starts (R532). -/
def Lane.pulseDue (L : Lane) (n : Nat) : Option Nat :=
  if L.tpOn n then
    let p := L.get Reg.SM_TP_CFG_PERIOD * msTicks
    let off := n * p / 4 / 1000 * 1000
    let from_ := match L.pulse n with
      | none => L.now
      | some q => max L.now (q.start + 1)
    some (if from_ ≤ off then off else off + (from_ - off + p - 1) / p * p)
  else none

/-- Whether a sample at the present instant does not count: within a pulse of an enabled output, one that starts now among them, or 100 µs
after it (R531). -/
def Lane.blanked (L : Lane) : Bool :=
  (List.range 4).any fun n => L.tpOn n && (L.pulseDue n = some L.now || (match L.pulse n with
    | none => false
    | some p => p.start ≤ L.now && L.now < p.until_ + 100 * usTicks))

/-- The level of a counted sample of an input. -/
def Lane.takeLevel (L : Lane) (i : Nat) (v : Bool) : Lane :=
  let a := L.smIn i
  if a.since.isSome && a.level = v then L else L.setSmIn i { a with level := v, since := some L.now }

/-- A sample of the eight inputs (R531); the deputy's derived quantities are brought to the same instant. -/
def Lane.sampleInputs (L : Lane) (levels : Nat) : Lane :=
  let L1 := { L with sm := { L.sm with raw := levels, was := L.sm.raw, sampledAt := some L.now } }
  let L2 := if L1.blanked then L1 else L1.forEach (List.range 8) fun i L => L.takeLevel i (bitAt levels i)
  L2.deputy

/-- SI_SAMPLE (R531). -/
def execSiSample (x : LaneId) (levels : BitVec 8) (s : State) : Out :=
  awakeAtDue x Lane.sampleDue (fun L => L.sampleInputs levels.toNat) s

/-- The start-test is complete when every marked input has been seen in both states (R124); in BOOT nothing is seen. -/
def Lane.startDone (L : Lane) : Lane :=
  let m := L.get Reg.SYS_START_MASK
  if L.mode ≠ 0 && Nat.land m (Nat.land (L.get Reg.SYS_START_SEEN_HIGH) (L.get Reg.SYS_START_SEEN_LOW)) = m then
    let L1 := L.set Reg.SYS_START_DONE 1
    { L1 with md := { L1.md with startPend := false } }
  else L

/-- A filtered state entered through a transition after STARTUP entry counts as seen (R123, R535), of a marked input only (log entry 203). -/
def Lane.noteSeen (L : Lane) (i : Nat) (v : Bool) : Lane :=
  if L.mode = 0 || !L.bit (Reg.SM_SI_CFG_START i) then L
  else (if v then L.putBitOf Reg.SYS_START_SEEN_HIGH i true else L.putBitOf Reg.SYS_START_SEEN_LOW i true).startDone

/-- The tick at which the filtered state of an input changes (R531). -/
def Lane.filterDue (L : Lane) (i : Nat) : Option Nat :=
  let a := L.smIn i
  if L.bit (Reg.SM_SI_CFG_EN i) && !L.bitOf Reg.SM_SI_STAT_FAULT i && L.bitOf Reg.SM_SI_STAT_STATE i ≠ a.level then
    a.since.map (· + L.get (Reg.SM_SI_CFG_FILT i) * msTicks)
  else none

/-- The filtered state takes the level that has held; the wake source of Table 15.1 follows. -/
def Lane.filterChange (L : Lane) (i : Nat) : Lane :=
  let v := (L.smIn i).level
  let L1 := ((L.putBitOf Reg.SM_SI_STAT_STATE i v).event 22).noteSeen i v
  L1.deputy

/-- SI_FILTER_CHANGE (R531, R123). -/
def execSiFilterChange (x : LaneId) (i : Fin 8) (s : State) : Out :=
  awakeAtDue x (fun L => L.filterDue i) (fun L => L.filterChange i) s

/-! ### Test pulses -/

/-- The levels of the last sample before tick `t`. -/
def Lane.levelsBefore (L : Lane) (t : Nat) : Nat := if L.sm.sampledAt.any (t ≤ ·) then L.sm.was else L.sm.raw

/-- A pulse starts; the levels just before it are kept (R533). -/
def Lane.pulseStart (L : Lane) (n : Nat) : Lane :=
  let L1 := L.setPulse n ⟨L.now, L.now + L.get Reg.SM_TP_CFG_WIDTH * usTicks, false⟩
  L1.forEach (List.range 8) fun i L => L.setSmIn i { L.smIn i with before := bitAt (L.levelsBefore L.now) i }

/-- TEST_PULSE_START (R532). -/
def execTestPulseStart (x : LaneId) (n : Fin 4) (s : State) : Out :=
  awakeAtDue x (fun L => L.pulseDue n) (fun L => L.pulseStart n) s

/-- Whether an input fails the test of output `n`'s pulse, `levels` being those of its last sample (R533): fed from it and not read low though it was
high before; or fed from another output and read low though it was high before. -/
def Lane.inputFails (L : Lane) (levels i n : Nat) : Bool :=
  let tp := L.get (Reg.SM_SI_CFG_TP i)
  (L.smIn i).before && (if tp = n + 1 then bitAt levels i else !bitAt levels i)

/-- A safety input fault (R533): FAULT set, the state held at SAFE. -/
def Lane.inputFault (L : Lane) (i : Nat) : Lane :=
  let L1 := L.setSmIn i { L.smIn i with passed := 0 }
  let L2 := L1.putBitOf Reg.SM_SI_STAT_STATE i (L1.bit (Reg.SM_SI_CFG_SAFE i))
  if L2.bitOf Reg.SM_SI_STAT_FAULT i then L2
  else (((L2.putBitOf Reg.SM_SI_STAT_FAULT i true).count Reg.SM_CNT_SIFLT_COUNT).raise 130 i).event 22

/-- The test of one input at the end of a pulse; a pulse passed counts toward R534. -/
def Lane.testInput (L : Lane) (levels n i : Nat) : Lane :=
  if !L.bit (Reg.SM_SI_CFG_EN i) || L.get (Reg.SM_SI_CFG_TP i) = 0 then L
  else if L.inputFails levels i n then L.inputFault i
  else L.setSmIn i { L.smIn i with passed := min 2 ((L.smIn i).passed + 1) }

def Lane.pulseEnd (L : Lane) (n : Nat) : Lane :=
  match L.pulse n with
  | none => L
  | some p => ((L.setPulse n { p with tested := true }).forEach (List.range 8) fun i M => M.testInput (L.levelsBefore p.until_) n i).deputy

/-- The tick at which the pulse in progress ends. -/
def Lane.pulseEndDue (L : Lane) (n : Nat) : Option Nat :=
  match L.pulse n with
  | none => none
  | some p => if p.tested then none else some p.until_

/-- TEST_PULSE_END (R533). -/
def execTestPulseEnd (x : LaneId) (n : Fin 4) (s : State) : Out :=
  awakeAtDue x (fun L => L.pulseEndDue n) (fun L => L.pulseEnd n) s

/-- A FAULT bit is cleared only after two pulses passed in succession (R534). -/
def Lane.clearInputs (L : Lane) (mask : Nat) : Lane :=
  L.forEach ((List.range 8).filter fun i => bitAt mask i && decide (2 ≤ (L.smIn i).passed)) fun i L =>
    L.putBitOf Reg.SM_SI_STAT_FAULT i false

/-- SI_FAULT_CLEAR (R534). -/
def execSiFaultClear (x : LaneId) (mask : BitVec 8) (s : State) : Out := onUp x (fun L => L.clearInputs mask.toNat) s

end Sys2Proof.Machine
end

