-- ==== Sys2Proof/Machine/Af.lean ====
section
/-! DEFINITION. Angle and feedback (06_angle_speed.md): hall edges and their exchange, fusion, observer loss and standstill, own-set
loss, encoder emulation, SENT and analog inputs. -/

namespace Sys2Proof.Machine

/-- The sets in fusion, and their mask (Table 6.5, SETS). -/
def Lane.fusionOf (L : Lane) (b : Nat) : List LaneId := allLanes.filter fun y => ((L.act b).sets.get y).fusion
def Lane.fusionMask (L : Lane) (b : Nat) : Nat := (L.fusionOf b).foldl (fun v y => v + 2 ^ laneNum y) 0

/-! ### What software and the LE see -/

/-- The fused sector's first edge (Table 6.5): from the last edge in motion, else from the codes of the sets in fusion. -/
def Lane.fsect (L : Lane) (b : Nat) (o : Obs) : Nat :=
  let a := L.act b
  if !o.window.isEmpty then (if o.back then prevEdge (L.fusionOf b) o.lastJ else o.lastJ)
  else match sectorFrom ((L.fusionOf b).map fun y => (y, (a.sets.get y).code)) with
    | some e => e.1
    | none => o.lastJ

/-- The qualifier word (Table 6.5) of an observer state, with LATE and SETS. -/
def Lane.aqOf (L : Lane) (b : Nat) (o : Obs) (late : Bool) (sets : Nat) : Nat :=
  b2n o.avalid * 2 ^ 31 + b2n o.squal * 2 ^ 30 + b2n o.still * 2 ^ 29 + b2n o.back * 2 ^ 28 + b2n o.loss * 2 ^ 27 +
  b2n late * 2 ^ 26 + sets * 2 ^ 23 + b2n (!(L.act b).ownLost) * 2 ^ 22 + L.fsect b o * 2 ^ 17 + o.edges % 2 ^ 16
def Lane.aqWord (L : Lane) (b : Nat) : Nat := L.aqOf b (L.act b).obs (L.act b).late (L.fusionMask b)

/-- ANGb and SPDb of an observer state at a ferry tick (R283, R294). -/
def Lane.angWord (L : Lane) (b : Nat) (o : Obs) (t : Int) : Nat := uns 16 (L.angleOf b o t + L.get (Reg.AF_SCALE_OFS b))
def Lane.spdWord (L : Lane) (b : Nat) (o : Obs) (t : Int) : Int :=
  let s := (L.obsCfg b).speed o t
  satW 32 (truncDiv (s.1 * 100000 * 2 ^ 30) (s.2 * (max 1 (L.get (Reg.AF_SCALE_BASE b)) : Nat)))

/-- The observer that a sample set written now uses, with LATE: without the edges of other lanes that came in this very tick (Table 6.6). -/
def Lane.obsForSet (L : Lane) (b : Nat) : Obs × Bool :=
  let a := L.act b
  match a.before with
  | some (t, o, l) => if t = L.now then (o, l) else (a.obs, a.late)
  | none => (a.obs, a.late)

/-- The target count of the encoder (R310), and the backlog shown. -/
def Lane.encTarget (L : Lane) (b : Nat) (p : Int) : Int :=
  let a := L.act b
  let q : Int := L.get (Reg.AF_ENC_CFG_Q b)
  let pp : Int := L.get (Reg.AF_ENC_CFG_PP b) * 65536
  a.t0 + ((if a.encDrain then a.pHold else p) - a.p0) * q / (max 1 pp)

/-- The backlog T − count, as far as a 32-bit count tells it (R313). -/
def Lane.backlog (L : Lane) (b : Nat) : Int := sgn 32 (uns 32 (L.encTarget b (L.angleNow b) - L.getI (Reg.AF_ENC_CNT_COUNT b)))

/-- The registers that show the observer and the encoder at the present tick; FC_BR_STAT[b].AFLIM follows LOSS (R298). A backlog
above 1,024 states raises "encoder backlog" when it begins (R313). -/
def Lane.showAf (L : Lane) (b : Nat) : Lane :=
  let o := (L.act b).obs
  let t := L.ferryNow
  let L1 := ((((L.set (Reg.AF_STAT_WORD b) (L.aqWord b)).set (Reg.AF_ANG_ANG b) (L.angWord b o t)).setI (Reg.AF_SPD_SPD b)
    (L.afSpeed b L.now)).setI (Reg.AF_POS_POS b) (L.angleNow b)).setBool (Reg.FC_BR_STAT_AFLIM b) o.loss
  if L.bit (Reg.AF_ENC_CFG_EN b) then
    let k := L1.backlog b
    let above := decide (1024 < k.natAbs)
    let L2 := (L1.setI (Reg.AF_ENC_BKLG_BKLG b) k).setAct b { L1.act b with above := above }
    if above && !(L.act b).above then L2.raise 68 b else L2
  else (L1.set (Reg.AF_ENC_BKLG_BKLG b) 0).setAct b { L1.act b with above := false }

/-- AF_EDGE[b] shows the last edge processed (Table 6.10). -/
def Lane.showEdge (L : Lane) (b : Nat) : Lane :=
  let o := (L.act b).obs
  match o.last with
  | none => L
  | some t =>
    (((L.set (Reg.AF_EDGE_J b) o.lastJ).set (Reg.AF_EDGE_LANE b) (laneNum o.lastLane)).setBool (Reg.AF_EDGE_DIR b) o.back).set
      (Reg.AF_EDGE_TIME b) (uns 24 t)

/-! ### Fusion and the observer -/

/-- A change of the observer shown to the rest of the lane: counts, "observer loss", TS events 180 and 181. -/
def Lane.obsChanged (L : Lane) (b : Nat) (old : Obs) : Lane :=
  let o := (L.act b).obs
  let L1 := if old.lost < o.lost then (L.count (Reg.AF_CNT_LOSS_COUNT b)).raise 66 b else L
  let L2 := if old.loss ≠ o.loss then L1.event 180 else L1
  ((if old.still ≠ o.still then L2.event 181 else L2).showAf b).showEdge b

/-- The entries that the observer without lane `y`'s set takes (R289). -/
def leaveOut (y : LaneId) (l : List FEdge) : List FEdge := l.filter fun e => 18 ≤ e.j || e.lane ≠ y

/-- Entries older than the horizon of R287 pass into the observer's base states. -/
def Lane.foldOld (L : Lane) (b : Nat) : Lane :=
  let a := L.act b
  let c := L.obsCfg b
  let old := a.recent.takeWhile fun e => decide (e.time + 6000 < L.ferryNow)
  let rest (y : LaneId) : Obs := { c with without := some y }.run (a.without.get y) (leaveOut y old)
  L.setAct b { a with
    base := c.run a.base old, without := ⟨rest .A, rest .B, rest .C⟩, recent := a.recent.drop old.length }

/-- An entry inserted at its time, and the observer replayed from there (R291), with the sets in fusion as they are now (R290). -/
def Lane.obsInsert (L : Lane) (b : Nat) (e : FEdge) : Lane :=
  let L1 := L.foldOld b
  let a := L1.act b
  let recent := insertEdge { e with fusion := L1.fusionOf b } a.recent
  let here := a.before.any fun p => p.1 = L.now
  let begins := e.lane ≠ L.me && !here
  let times := if e.j < 18 then [e.time] else []
  (L1.setAct b { a with
    recent := recent, obs := (L1.obsCfg b).run a.base recent
    before := if begins then some (L.now, a.obs, a.late) else a.before
    tickEdges := if begins then times else if here then times ++ a.tickEdges else a.tickEdges
    late := a.late || decide (e.j < 18 ∧ e.time < a.lastInstant) }).obsChanged b a.obs

/-- While the rotor stands, or before the first edge, the angle is taken into the fused sector (R302). -/
def Lane.settleAngle (L : Lane) (b : Nat) : Lane :=
  let a := L.act b
  if a.obs.still || a.obs.last.isNone then
    match sectorFrom ((L.fusionOf b).map fun y => (y, (a.sets.get y).code)) with
    | none => L.showAf b
    | some sec => L.obsInsert b ⟨L.me, 21, L.ferryNow, false, [], sec⟩
  else L.showAf b

/-- At the first valid code after reset the angle goes to the centre of the fused sector (R302). -/
def Lane.settleFirst (L : Lane) (b : Nat) : Lane := if (L.act b).obs.avalid then L.showAf b else L.settleAngle b

def Lane.hallSet (L : Lane) (b : Nat) (y : LaneId) : HallSet := (L.act b).sets.get y
def Lane.setHallSet (L : Lane) (b : Nat) (y : LaneId) (h : HallSet) : Lane := L.setAct b { L.act b with sets := (L.act b).sets.set y h }

/-- The number of sets in fusion. -/
def Lane.fusionCount (L : Lane) (b : Nat) : Nat := countIf (fun y => (L.hallSet b y).fusion) allLanes

/-- A set leaves fusion: six legal edges near the prediction bring it back (R288). -/
def Lane.leaveFusion (L : Lane) (b : Nat) (y : LaneId) : Lane :=
  L.setHallSet b y { L.hallSet b y with fusion := false, good := 0, bad := 0 }

/-- The own set enters at once when no set is in fusion: its element is the lane's own current state (R288). -/
def Lane.ownEnters (L : Lane) (b : Nat) : Lane :=
  if L.fusionCount b = 0 && (L.hallSet b L.me).known && !(L.act b).ownLost then
    L.setHallSet b L.me { L.hallSet b L.me with fusion := true, bad := 0 }
  else L

/-- The membership of a set whose element is fresh with VALID as given (R288, R289): it enters when it has delivered six edges near the
prediction, or at once while no set is in fusion; it leaves when VALID is clear. Edges delivered while VALID is clear count. -/
def Lane.membership (L : Lane) (b : Nat) (y : LaneId) (valid : Bool) : Lane :=
  let h := L.hallSet b y
  if !valid then
    if h.fusion then ((L.leaveFusion b y).ownEnters b).settleAngle b else L
  else if h.fusion then L
  else if 6 ≤ h.good || L.fusionCount b = 0 then
    (L.setHallSet b y { h with fusion := true, bad := 0 }).settleAngle b
  else L

/-- Whether a legal edge lies within 10° of a prediction, in 2^-32 ecounts. -/
def ObsCfg.near (c : ObsCfg) (j : Nat) (p : Int) : Bool :=
  let a := nearest (c.angle j) (roundDiv p (2 ^ 32))
  decide ((a * 2 ^ 32 - p).natAbs * 36 ≤ 65536 * 2 ^ 32)

/-- The prediction at a time of the sets other than `y`'s (R289; log entry 17), and of all sets in fusion (R288, R308). -/
def Lane.predictWithout (L : Lane) (b : Nat) (y : LaneId) (t : Int) : Int :=
  let c := { L.obsCfg b with without := some y }
  c.prediction (c.run ((L.act b).without.get y) (leaveOut y (L.act b).recent)) t
def Lane.predictAll (L : Lane) (b : Nat) (t : Int) : Int := (L.obsCfg b).prediction (L.act b).obs t

/-- A legal edge of lane `y`'s set: its standing in fusion, then, if the set is in fusion, the observer (R288 to R292). -/
def Lane.legal (L : Lane) (b : Nat) (y : LaneId) (j : Nat) (back : Bool) (t : Int) (valid : Bool) : Lane :=
  let c := L.obsCfg b
  let h := L.hallSet b y
  let three := h.fusion && L.fusionCount b = 3
  let h1 := { h with
    good := if c.near j (L.predictAll b t) then h.good + 1 else 0
    bad := if three && !c.near j (L.predictWithout b y t) then h.bad + 1 else 0 }
  let L1 := if three && 3 ≤ h1.bad then ((L.leaveFusion b y).count (Reg.AF_CNT_SETLOST_COUNT b)).settleAngle b
    else (L.setHallSet b y h1).membership b y valid
  if (L1.hallSet b y).fusion then
    let a := L1.act b
    let L2 := L1.setAct b { a with others := if y = L1.me then 0 else if a.obs.back ≠ back then 1 else a.others + 1 }
    (L2.obsInsert b ⟨y, j, t, back, [], (0, 0)⟩).lockRestart b
  else L1

/-- An illegal transition of lane `y`'s set: it ends the edges in succession (R288) and restarts the count of R299. -/
def Lane.illegalMove (L : Lane) (b : Nat) (y : LaneId) (t : Int) : Lane :=
  (L.setHallSet b y { L.hallSet b y with good := 0 }).obsInsert b ⟨y, 20, t, false, [], (0, 0)⟩

/-! ### The lane's own hall set -/

/-- The lane's own set loses VALID (R307), and the deputy goes to fused feedback (R515). -/
def Lane.ownSetLost (L : Lane) (b : Nat) : Lane :=
  let L1 := L.setAct b { L.act b with ownLost := true, ownCount := 0, others := 0, illegal := [] }
  (((((L1.membership b L.me false).count (Reg.AF_CNT_SETLOST_COUNT b)).raise 67 b).event 182).showAf b).measure

/-- A legal edge of a lost own set counts toward its return (R308): near the prediction of the other sets in fusion, or, with no other
set in fusion, in one direction. The events of R307 count anew from the return on. -/
def Lane.ownReturn (L : Lane) (b : Nat) (j : Nat) (back : Bool) (t : Int) : Lane :=
  let a := L.act b
  if !a.ownLost then L
  else
    let ok := if 0 < L.fusionCount b then (L.obsCfg b).near j (L.predictAll b t) else a.ownCount = 0 || a.ownBack = back
    let n := if ok then a.ownCount + 1 else if 0 < L.fusionCount b then 0 else 1
    let L1 := L.setAct b { a with
      ownCount := n, ownBack := back, ownLost := decide (n < 6)
      illegal := if 6 ≤ n then [] else a.illegal, others := if 6 ≤ n then 0 else a.others }
    if 6 ≤ n then ((L1.event 182).showAf b).measure else L1

/-- Bit of the line of a hall code: U 0, V 1, W 2 (R278). -/
def linesChanged (old new : Nat) : List Nat := (List.range 3).filter fun i => bitAt old i ≠ bitAt new i

/-- The hall lines of actuator `b` stand at `code`, those that have changed for `held` samples in succession (R276 to R280). Before FILT samples
nothing is accepted; the first code after reset is no transition. -/
def Lane.hallCode (L : Lane) (b code held : Nat) : Lane :=
  let h := L.hallSet b L.me
  let L0 : Lane := { L with pins := { L.pins with hall := L.pins.hall.set b code } }
  if held < L.get (Reg.AF_HALL_CFG_FILT b) then L0
  else if !h.known then
    let L1 := L0.setHallSet b L.me { h with known := true, code := code }
    ((L1.setAct b { L1.act b with codeAt := L.now }).membership b L.me (!(L1.act b).ownLost)).settleFirst b
  else if code = h.code then L0
  else
    let t := L.ferryAt ((L.now : Int) - (held - 1 : Nat)) - (L.get (Reg.AF_HALL_CFG_DLY b) : Nat)
    let ls := linesChanged h.code code
    let es : List HEdge := ls.map fun i => ⟨i, b2n (bitAt code i), t⟩
    let L1 := L0.setHallSet b L.me { h with code := code }
    let a := L1.act b
    let L2 := L1.setAct b { a with
      out := a.out ++ es, others := 0, codeAt := if (sectorOf h.code).isSome then L.now else a.codeAt }
    match legalEdge L.me h.code code with
    | some (j, back) =>
      let L3 := L2.ownReturn b j back t
      (L3.legal b L.me j back t (!(L3.act b).ownLost)).showAf b
    | none =>
      let L3 := if 2 ≤ ls.length || (sectorOf code).isNone then
          let a := L2.act b
          let L3 := L2.setAct b { a with
            ownCount := 0, illegal := (L.now :: a.illegal.filter fun i => L.now ≤ i + 100 * msTicks).take 4 }
          ((L3.count (Reg.AF_CNT_ILL_COUNT b)).raise 64 b).illegalMove b L.me t
        else L2
      (L3.membership b L.me (!(L3.act b).ownLost)).settleFirst b

/-- HALL_EDGE. -/
def execHallEdge (x : LaneId) (b : Fin 2) (lines : HallLines) (s : State) : Out :=
  onUp x (fun L => L.hallCode b lines.code lines.held) s

/-- When a condition of R307 holds: at once for four illegal transitions within 100 ms or twelve edges of the others, else 1 ms after
the code became 0 or 7. -/
def Lane.setLostDue (L : Lane) (b : Nat) : Option Nat :=
  let a := L.act b
  let h := L.hallSet b L.me
  if a.ownLost || !h.known then none
  else if 4 ≤ (a.illegal.filter fun i => L.now ≤ i + 100 * msTicks).length || 12 ≤ a.others then some L.now
  else if (sectorOf h.code).isNone then some (a.codeAt + msTicks)
  else none

/-- The lane's own hall set is lost. -/
def execHallSetLost (x : LaneId) (b : Fin 2) (s : State) : Out :=
  atDue x (fun L => L.setLostDue b) (fun L => L.ownSetLost b) s

/-! ### The sets of the other lanes (R284 to R289) -/

/-- The lines of a code that one transition sets: (line, level). -/
def applyLines (code : Nat) (ls : List (Nat × Nat)) : Nat := ls.foldl (fun c e => putBit c e.1 (e.2 = 1)) code

/-- A transition of another lane's set, of one or more lines at one time: its edges are discarded and counted where they are late (R287); else it
is a legal edge, an illegal transition, or neither (R279, R280). -/
def Lane.otherMove (L : Lane) (b : Nat) (y : LaneId) (ls : List (Nat × Nat)) (t : Int) (marked valid : Bool) : Lane :=
  let h := L.hallSet b y
  let code := applyLines h.code ls
  let L1 := L.setHallSet b y { h with code := code }
  if marked || decide (t + 6000 < L.ferryNow) then L1.forEach ls fun _ L => (L.count (Reg.AF_CNT_LATE_COUNT b)).raise 65 b
  else match legalEdge y h.code code with
    | some (j, back) => if ls.length = 1 then L1.legal b y j back t valid else L1.illegalMove b y t
    | none => if 2 ≤ ls.length || (sectorOf code).isNone then L1.illegalMove b y t else L1

/-- The edges of an element joined into transitions: those of one time are one change (R280). -/
def joinEdges : List (Nat × Nat × Int × Bool) → List (List (Nat × Nat) × Int × Bool)
  | [] => []
  | (l, v, t, m) :: es => match joinEdges es with
    | (ls, u, k) :: rest => if u = t && k = m then ((l, v) :: ls, t, m) :: rest else ([(l, v)], t, m) :: (ls, u, k) :: rest
    | [] => [([(l, v)], t, m)]

/-- The code before the first edge of an element: a line that its edges change stood at the other level; another line at the level of CODE,
or, where edges may still wait at the sender, at the level last known (R285, R286). -/
def codeBefore (code : Nat) (tracked : Option Nat) (es : List (Nat × Nat × Int × Bool)) : Nat :=
  (List.range 3).foldl (fun c i =>
    match es.find? (·.1 = i) with
    | some e => putBit c i (e.2.1 = 0)
    | none => putBit c i (bitAt (if es.length < 4 then code else tracked.getD code) i)) 0

/-- A change that the element before cut off (R280, R285; log entry 190): where the first change of this one has its time, the two are one, and
what was made of the part is undone. -/
def Lane.joinCut (L : Lane) (b : Nat) (y : LaneId) (gs : List (List (Nat × Nat) × Int × Bool)) : Lane × List (List (Nat × Nat) × Int × Bool) :=
  match (L.hallSet b y).cut, gs with
  | some (ls0, t0), (ls, t, k) :: rest =>
    if t ≠ t0 then (L, gs)
    else
      let a := L.act b
      let L1 := L.setAct b { a with recent := a.recent.filter fun e => !(e.lane = y && e.time = t && (e.j < 18 || e.j = 20)) }
      let h := L1.hallSet b y
      (L1.setHallSet b y { h with code := applyLines h.code (ls0.map fun l => (l.1, 1 - l.2)) }, (ls0 ++ ls, t, k) :: rest)
  | _, _ => (L, gs)

/-- A HALL[b] element of lane `y` taken as its berth passes (R286): code, VALID, and edges (line, level, ferry time, mark of an offset
that does not fit). -/
def Lane.takeHall (L : Lane) (b : Nat) (y : LaneId) (code : Nat) (valid : Bool) (es : List (Nat × Nat × Int × Bool)) : Lane :=
  let h := L.hallSet b y
  let L1 := L.setHallSet b y { h with known := true, code := codeBefore code (if h.known then some h.code else none) es }
  let p := L1.joinCut b y (joinEdges es)
  let L2 := p.2.foldl (fun L e => L.otherMove b y e.1 e.2.1 e.2.2 valid) p.1
  let cut := if es.length = 4 then p.2.getLast?.map fun e => (e.1, e.2.1) else none
  let L3 := L2.setHallSet b y { L2.hallSet b y with missing := 0, taken := true, cut := cut }
  (L3.membership b y valid).settleFirst b

/-- At the end of a sailing, a set whose element came neither fresh in this sailing nor in the one before leaves fusion (R289). -/
def Lane.hallMissing (L : Lane) (b : Nat) (y : LaneId) : Lane :=
  let h := L.hallSet b y
  if h.taken then L.setHallSet b y { h with taken := false }
  else
    let L1 := L.setHallSet b y { h with missing := h.missing + 1 }
    if 2 ≤ h.missing + 1 then L1.membership b y false else L1

/-- The HALL[b] element's words, with the edges it carries taken from the waiting ones (R284, R285; TIME10). An edge whose offset would
pass 65,535 keeps a timestamp that far back. -/
def Lane.hallWords (L : Lane) (b : Nat) (departure : Nat) : List Nat :=
  let es := (L.act b).out.take 4
  let code := (L.hallSet b L.me).code
  let w0 := code * 32 + b2n (!(L.act b).ownLost) * 16 + es.length * 2
  let w0 := (List.range es.length).foldl (fun a i =>
    let e := es.getD i ⟨0, 0, 0⟩
    a + (e.line * 2 + e.level) * 2 ^ (8 + 3 * i)) w0
  w0 :: (List.range 4).map fun i =>
    match es[i]? with
    | some e => uns 32 (max e.time ((departure : Int) - 65535))
    | none => 0

/-- The edges carried are no longer waiting. -/
def Lane.hallSent (L : Lane) (b : Nat) : Lane := L.setAct b { L.act b with out := (L.act b).out.drop 4 }

/-! ### Observer loss and standstill -/

/-- When the prediction passes an expected edge by more than 30° (R296). -/
def Lane.lossDue (L : Lane) (b : Nat) : Option Nat :=
  ((L.obsCfg b).lossTime (L.act b).obs (L.fusionOf b)).map fun t => (t - L.xf.off).toNat

/-- The observer declares loss on a missing edge (R296, R297). -/
def execObserverLoss (x : LaneId) (b : Fin 2) (s : State) : Out :=
  atDue x (fun L => L.lossDue b) (fun L => L.obsInsert b ⟨L.me, 18, L.ferryNow, false, [], (0, 0)⟩) s

/-- When TSTILL ms have passed since the last legal fused edge, or since lane reset (R301). -/
def Lane.stillDue (L : Lane) (b : Nat) : Option Nat :=
  let o := (L.act b).obs
  let c := L.obsCfg b
  if o.still then none
  else match o.last with
    | some l => some (l + c.tstill - L.xf.off).toNat
    | none => some (L.cp.resetAt + c.tstill.toNat)

/-- Standstill (R301); it also ends observer loss (Table 6.6). -/
def execStandstill (x : LaneId) (b : Fin 2) (s : State) : Out :=
  atDue x (fun L => L.stillDue b) (fun L => (L.obsInsert b ⟨L.me, 19, L.ferryNow, false, [], (0, 0)⟩).settleAngle b) s

/-! ### Encoder emulation (R310 to R315) -/

/-- EZ for a count (R312). -/
def Lane.showIndex (L : Lane) (b : Nat) : Lane :=
  L.setAct b { L.act b with z := decide (L.getI (Reg.AF_ENC_CNT_COUNT b) % (max 1 (L.get (Reg.AF_ENC_CFG_Q b)) : Nat) = 0) }

/-- A and B one state further, in the order of R311 or against it: bit 0 is A, bit 1 is B. Each step changes one of them, so a count that was
written while EN was clear moves no output (R14, R314; log entry 169). -/
def quadStep (ab : BitVec 2) (up : Bool) : BitVec 2 :=
  match ab with
  | 0 => if up then 1 else 2
  | 1 => if up then 3 else 0
  | 3 => if up then 2 else 1
  | _ => if up then 0 else 3

/-- When the next state may be emitted: 8 ticks after the last change. -/
def Lane.encDue (L : Lane) (b : Nat) : Option Nat :=
  if L.bit (Reg.AF_ENC_CFG_EN b) then some ((L.act b).encAt + 8) else none

/-- The count moves one state toward T (R311). -/
def execEncoderStep (x : LaneId) (b : Fin 2) (s : State) : Out :=
  atDue x (fun L => L.encDue b) (fun L =>
    let k := L.backlog b
    if k = 0 then L.showAf b
    else
      let L1 := L.setI (Reg.AF_ENC_CNT_COUNT b) (L.getI (Reg.AF_ENC_CNT_COUNT b) + if 0 < k then 1 else -1)
      ((L1.setAct b { L1.act b with encAt := L.now, ab := quadStep (L1.act b).ab (decide (0 < k)) }).showIndex b).showAf b) s

/-- A write to AF_ENC_CFG[b] (R310, R314, R315): Q and PP are fixed while EN reads 1; clearing EN waits for the backlog. -/
def Lane.writeEncCfg (L : Lane) (b v : Nat) : Lane :=
  let fs := [Reg.AF_ENC_CFG_PP b, Reg.AF_ENC_CFG_Q b]
  if L.bit (Reg.AF_ENC_CFG_EN b) then
    if L.changes fs v then L.raise 69 b
    else if bitAt v 31 || (L.act b).encDrain then L
    else if L.backlog b = 0 then (L.set (Reg.AF_ENC_CFG_EN b) 0).showAf b
    else (L.setAct b { L.act b with encDrain := true, pHold := L.angleNow b }).showAf b
  else
    let L1 := L.writeFlds fs v
    if bitAt v 31 then
      let L2 := L1.set (Reg.AF_ENC_CFG_EN b) 1
      ((L2.setAct b { L2.act b with p0 := L2.angleNow b, t0 := L2.getI (Reg.AF_ENC_CNT_COUNT b), encDrain := false }).showIndex b).showAf b
    else L1

/-- EN written 1 to AF_ENC_CFG[b]. -/
def execEncoderEnable (x : LaneId) (b : Fin 2) (v : Word) (s : State) : Out :=
  onUp x (fun L => L.writeEncCfg b (setBit v.toNat 31)) s

/-- EN written 0 to AF_ENC_CFG[b]. -/
def execEncoderDisable (x : LaneId) (b : Fin 2) (v : Word) (s : State) : Out :=
  onUp x (fun L => L.writeEncCfg b (clrBit v.toNat 31)) s

/-- The backlog of a disabled encoder has drained (R314). -/
def execEncoderDrained (x : LaneId) (b : Fin 2) (s : State) : Out :=
  onUp x (fun L =>
    if (L.act b).encDrain && L.backlog b = 0 then
      ((L.set (Reg.AF_ENC_CFG_EN b) 0).setAct b { L.act b with encDrain := false }).showAf b
    else L) s

/-! ### SENT (R316 to R318) -/

/-- One nibble of the SAE J2716 check, polynomial x⁴ + x³ + x² + 1 (log entry 18). -/
def sentCrc (c v : Nat) : Nat :=
  Nat.xor v (([0, 13, 7, 10, 14, 3, 9, 4, 1, 12, 6, 11, 15, 2, 8, 5] : List Nat).getD (c % 16) 0)

/-- The 4-bit check over the data nibbles: seed 0b0101, with a further zero nibble in the recommended form. -/
def sentCheck (legacy : Bool) (data : List Nat) : Nat :=
  let c := data.foldl sentCrc 5
  if legacy then c else sentCrc c 0

/-- One bit of the 6-bit check of the enhanced serial format, polynomial x⁶ + x⁴ + x³ + 1 (log entry 18). -/
def slowCrcBit (c : Nat) (d : Bool) : Nat :=
  let s := c % 64 * 2 + b2n d
  if bitAt s 6 then Nat.xor (s % 64) 0x19 else s % 64

/-- The 6-bit check over the message bits of frames 7 to 18. -/
def slowCheck (bits : List (Bool × Bool)) : Nat :=
  (((bits.drop 6).flatMap fun e => [e.2, e.1]) ++ [false, false, false, false, false, false]).foldl slowCrcBit 0x15

/-- The value of a list of bits, first bit highest. -/
def bitsVal (l : List Bool) : Nat := l.foldl (fun a b => 2 * a + b2n b) 0

def Lane.sentCh (L : Lane) (s : Nat) : SentCh := L.af.sent.get s
def Lane.setSentCh (L : Lane) (s : Nat) (c : SentCh) : Lane := { L with af := { L.af with sent := L.af.sent.set s c } }

def Lane.countCrc (L : Lane) (s : Nat) : Lane := L.count (Reg.AF_SENT_CNT_CRC_ERR s)
def Lane.countFrm (L : Lane) (s : Nat) : Lane := L.count (Reg.AF_SENT_CNT_FRM_ERR s)

/-- The slow channel after one more accepted frame, whose status nibble gives bit 3 and bit 2: the enhanced format's pattern of 18
frames, else the message is discarded and counted. -/
def Lane.slowChannel (L : Lane) (s : Nat) (b3 b2 : Bool) : Lane :=
  let ch := L.sentCh s
  let bits := ch.bits ++ [(b3, b2)]
  let n := bits.length
  let good := if n ≤ 6 then b3 else if n = 7 || n = 13 || n = 18 then !b3 else true
  if !good then
    let L1 := L.setSentCh s { ch with bits := if b3 then [(b3, b2)] else [] }
    if n = 1 then L1 else L1.countFrm s
  else if n < 18 then L.setSentCh s { ch with bits := bits }
  else
    let L1 := L.setSentCh s { ch with bits := [] }
    if slowCheck bits ≠ bitsVal ((bits.take 6).map (·.2)) then L1.countCrc s
    else
      let b3s := bits.map (·.1)
      let wide := b3s.getD 7 false
      let hi := bitsVal ((b3s.drop 8).take 4)
      let lo := bitsVal ((b3s.drop 13).take 4)
      let data := bitsVal ((bits.drop 6).map (·.2))
      let L2 := (L1.set (Reg.AF_SENT_SLOW_NEW s) 1).setBool (Reg.AF_SENT_SLOW_WIDE s) wide
      let L3 := if wide then (L2.set (Reg.AF_SENT_SLOW_ID s) hi).set (Reg.AF_SENT_SLOW_DATA s) (lo * 4096 + data)
        else (L2.set (Reg.AF_SENT_SLOW_ID s) (hi * 16 + lo)).set (Reg.AF_SENT_SLOW_DATA s) data
      L3.event 183

/-- Whether a frame has the pause pulse that AF_SENT_CFG.PAUSE says it carries, of 12 to 768 ticks, and none otherwise (R316). -/
def Lane.pauseFits (L : Lane) (s : Nat) (f : SentFrame) : Bool :=
  match f.pauseNs with
  | none => !L.bit (Reg.AF_SENT_CFG_PAUSE s)
  | some ns =>
    let ticks := (roundDiv (56 * ns : Nat) (max 1 f.calNs)).toNat
    L.bit (Reg.AF_SENT_CFG_PAUSE s) && decide (12 ≤ ticks) && decide (ticks ≤ 768)

/-- A SENT frame accepted or rejected (R316 to R318). -/
def Lane.sentReceived (L : Lane) (s : Nat) (f : SentFrame) : Lane :=
  if !L.bit (Reg.AF_SENT_CFG_EN s) then L
  else
    let ch := L.sentCh s
    let nominal := 56 * L.get (Reg.AF_SENT_CFG_TICK s) * 100
    let diff (a b : Nat) : Nat := (a - b) + (b - a)
    let vals := f.nibbleNs.map fun (ns : Nat) => (roundDiv (56 * ns : Nat) (max 1 f.calNs)).toNat
    let nib := L.get (Reg.AF_SENT_CFG_NIB s)
    let L1 := L.setSentCh s { ch with prevCal := some f.calNs }
    let jump := match ch.prevCal with
      | none => false
      | some p => decide (p < 64 * diff f.calNs p)
    if nominal < 4 * diff f.calNs nominal || jump || !L.pauseFits s f || vals.length ≠ nib + 2 || vals.any (fun v => v < 12 || 27 < v) then L1.countFrm s
    else
      let ns := vals.map (· - 12)
      let data := (ns.drop 1).take nib
      let st := nth ns 0
      if sentCheck (L.bit (Reg.AF_SENT_CFG_CRC_LEGACY s)) data ≠ nth ns (nib + 1) then L1.countCrc s
      else
        let word := data.foldl (fun a d => 16 * a + d) 0
        let impl := Nat.land st (L.get (Reg.AF_SENT_CFG_SMASK s)) ≠ 0
        let L2 := ((((L1.wrap (Reg.AF_SENT_STAT_FRAMES s)).set (Reg.AF_SENT_STAT_VALID s) 1).setBool (Reg.AF_SENT_STAT_IMPL s) impl).set
          (Reg.AF_SENT_FAST_STATUS s) st).set (Reg.AF_SENT_FAST_DATA s) word
        let L3 := (L2.setSentCh s { L2.sentCh s with lastAt := L.now }).refreshBoth 5 s [word] impl
        L3.slowChannel s (bitAt st 3) (bitAt st 2)

/-- A frame measured on a SENT channel. -/
def execSentFrame (x : LaneId) (s : Fin 2) (frame : SentFrame) (st : State) : Out := onUp x (fun L => L.sentReceived s frame) st

/-- When TMO ms have passed since the last accepted frame, or since lane reset. -/
def Lane.sentDue (L : Lane) (s : Nat) : Option Nat :=
  if L.bit (Reg.AF_SENT_STAT_VALID s) || !L.bit (Reg.AF_SENT_STAT_IMPL s) then
    some (max (L.sentCh s).lastAt L.cp.resetAt + L.get (Reg.AF_SENT_CFG_TMO s) * msTicks)
  else none

/-- No accepted frame for TMO ms: the source is implausible (R318). -/
def execSentTimeout (x : LaneId) (s : Fin 2) (st : State) : Out :=
  atDue x (fun L => L.sentDue s) (fun L =>
    let L1 := (L.set (Reg.AF_SENT_STAT_VALID s) 0).set (Reg.AF_SENT_STAT_IMPL s) 1
    (L1.markImpl .lane 5 s true).markImpl .vehicle 5 s true) st

/-! ### Analog inputs (R319, R320) -/

/-- A conversion of an analog input. -/
def execAnalogConversion (x : LaneId) (a : Fin 4) (code : BitVec 12) (s : State) : Out :=
  onUp x (fun L => { L with af := { L.af with codes := spSet [] a.val (spGet [] a.val L.af.codes ++ [code.toNat]) L.af.codes } }) s

/-- Whether VALUE of an analog input lies outside LO to HI, shown in IMPL; its entry raises "analog range" (R320). -/
def Lane.analogRange (L : Lane) (a : Nat) : Lane :=
  let v := L.get (Reg.AF_AN_VAL_VALUE a)
  let impl := decide (v < L.get (Reg.AF_AN_CFG_LO a)) || decide (L.get (Reg.AF_AN_CFG_HI a) < v)
  let L1 := L.setBool (Reg.AF_AN_VAL_IMPL a) impl
  if impl && !L.bit (Reg.AF_AN_VAL_IMPL a) then L1.raise 70 a else L1

/-- A write of AF_AN_CFG[a]: the mark follows the limits (R320). -/
def Lane.writeAnCfg (L : Lane) (a : Nat) : Lane :=
  let L1 := L.analogRange a
  let impl := L1.bit (Reg.AF_AN_VAL_IMPL a)
  (L1.markImpl .lane 6 a impl).markImpl .vehicle 6 a impl

/-- The value of an analog input at a departure, its plausibility and its export source; with no conversion since the last departure it
stays as it is and is not refreshed (log entry 19). -/
def Lane.analogDeparture (L : Lane) (a : Nat) : Lane :=
  match spGet [] a L.af.codes with
  | [] => L
  | cs =>
    let v := (roundDiv (16 * cs.foldl (· + ·) 0 : Nat) cs.length).toNat
    let L1 := (L.set (Reg.AF_AN_VAL_VALUE a) v).analogRange a
    { L1 with af := { L1.af with codes := spSet [] a [] L1.af.codes } }.refreshBoth 6 a [v] (L1.bit (Reg.AF_AN_VAL_IMPL a))

end Sys2Proof.Machine
end

