-- ==== Sys2Proof/Machine/LeRun.lean ====
section
/-! DEFINITION. How the loop engine runs programs (03_loop_engine.md): firing, dispatch and pre-emption (R140 to R147), the
deadline guard (R166 to R171), the commit of staged words, and the replay of rejoin stage 4 (R705). -/

namespace Sys2Proof.Machine

/-- LE_STAT.ACTIVE, CUR and PEND as the runs and the pending firings stand (Table 3.13). -/
def Lane.showLe (L : Lane) : Lane :=
  let pend := L.le.pending.foldl (fun a f => setBit a f.trig) 0
  let L1 := (L.setBool Reg.LE_STAT_ACTIVE (!L.le.runs.isEmpty)).set Reg.LE_STAT_PEND pend
  match L.le.runs with
  | [] => L1
  | r :: _ => L1.set Reg.LE_STAT_CUR r.trig

def Lane.setRuns (L : Lane) (rs : List LeRun) : Lane := { L with le := { L.le with runs := rs } }
def Lane.setPending (L : Lane) (fs : List Firing) : Lane := { L with le := { L.le with pending := fs } }

/-- A ready event (Table 3.3) as every dispatched program sees it (R159). -/
def Lane.ready (L : Lane) (k : Nat) : Lane :=
  L.setRuns (L.le.runs.map fun r => { r with seen := BitVec.ofNat 4 (setBit r.seen.toNat k) })

/-- The context of a program at its dispatch: at its first word, accumulator and flags clear (R143, R158). -/
def newRun (f : Firing) (entry : Nat) (replay : Bool) (cycle : Nat) : LeRun :=
  { trig := f.trig, fired := f.fired, deadline := f.deadline, pc := entry, acc := 0, accSat := false, n := false, z := false, s := false,
    t := false, satur := false, staged := [], seen := 0, wait := none, steps := [], replay := replay, cycle := cycle }

/-- A dispatch: due bank swaps (R201), XF's and FC's writes (R139, R254), then the program at its entry. A replay run of stage 4
runs T2's region (R705). -/
def Lane.dispatch (L : Lane) (f : Firing) (replay : Bool) : Lane :=
  let L1 := L.swapRecords (L.dueAtDispatch f.trig)
  let L2 := if replay then L1 else match L1.trigBridge f.trig with
    | some b => L1.dispatchWrites b
    | none => L1
  let entry := L2.entryOf (if replay then 2 else f.trig)
  (L2.setRuns (newRun f entry replay (L2.sig 48) :: L2.le.runs)).showLe

/-- Whether a trigger's program is running or pending. -/
def Lane.busyTrig (L : Lane) (n : Nat) : Bool :=
  L.le.runs.any (·.trig = n) || L.le.pending.any (·.trig = n)

/-- The outer period in ticks, and the number of the outer cycle in progress (R436). -/
def Lane.outerPeriod (L : Lane) : Nat := max 1 (L.opPeriod * 1250)
def Lane.outerCycle (L : Lane) : Nat := L.ferry / L.outerPeriod % 2 ^ 32

/-- The number of the outer cycle, in 32 bits, in which a LOCAL tick of the past lies. -/
def Lane.cycleAt (L : Lane) (t : Nat) : Nat := ((t : Int) + L.xf.off).toNat / L.outerPeriod % 2 ^ 32

/-- Whether the outer tick of cycle `c` lies in the past: a later tick of the clock, or an outer tick that has been. -/
def Lane.cyclePassed (L : Lane) (c : Nat) : Bool :=
  let d := (L.outerCycle + 2 ^ 32 - c) % 2 ^ 32
  if d = 0 then L.ferry % L.outerPeriod ≠ 0 || L.xf.tick.any (fun k => k % 2 ^ 32 = c) else d < 2 ^ 31

/-- A program swap that falls due at this firing (R177). -/
def Lane.swapAtFiring (L : Lane) (n : Nat) : Lane :=
  match L.le.swap with
  | some w =>
    if w.trig = n && (w.cycle.isNone || w.cycle = some L.outerCycle) then
      let L1 := ((L.set (Reg.LE_TRIG_CFG_ENTRY n) w.entry).set (Reg.LE_TRIG_CFG_LIMIT n) w.limit).set Reg.LE_SWAP_GO 0
      { L1 with le := { L1.le with swap := none } }
    else L
  | none => L

/-- Whether T2 is held: in rejoin stage 4, until the first outer tick after the replay has ended (R705). -/
def Lane.holdsT2 (L : Lane) : Bool :=
  L.stage = 4 && !(L.xf.replayRun && L.xf.release.any fun k => decide (k ≤ L.ferry / L.outerPeriod))

/-- Whether a trigger accepts a firing (R140); in rejoin stage 4, T7's registers have no effect and T2 is held (R705). -/
def Lane.acceptsFiring (L : Lane) (n : Nat) : Bool :=
  L.bit (Reg.LE_TRIG_CFG_EN n) && L.bit Reg.LE_CTRL_RUN && !(L.stage = 4 && n = 7) && !(n = 2 && L.holdsT2)

/-- A firing placed: dispatched at once, pre-empting, or pending (R141). -/
def Lane.place (L : Lane) (f : Firing) (replay : Bool) : Lane :=
  match L.le.runs with
  | [] => if L.le.pending.isEmpty then L.dispatch f replay else (L.setPending (L.le.pending ++ [f])).showLe
  | r :: _ => if f.trig < r.trig then L.dispatch f replay else (L.setPending (L.le.pending ++ [f])).showLe

/-- Whether trigger `n` has fired in the present tick: what fires it again then is the same firing (R142). -/
def Lane.firedNow (L : Lane) (n : Nat) : Bool := spGet 0 n L.le.firedAt = L.now + 1

/-- A firing of trigger `n` now (R140 to R145). -/
def Lane.fire (L : Lane) (n : Nat) : Lane :=
  if !L.acceptsFiring n || L.firedNow n then L
  else
    let L0 : Lane := { L with le := { L.le with firedAt := spSet 0 n (L.now + 1) L.le.firedAt } }
    if L.busyTrig n then ((L0.set (Reg.LE_TRIG_STAT_OVR n) 1).event 189).raise 33
    else
      let L1 := L0.swapAtFiring n
      L1.place ⟨n, L1.now, L1.now + L1.get (Reg.LE_TRIG_DL_DL n)⟩ false

/-- The pending firing of the lowest trigger number. -/
def lowestPending : List Firing → Option Firing
  | [] => none
  | f :: t => match lowestPending t with
    | none => some f
    | some g => if f.trig ≤ g.trig then some f else some g

/-- Swaps that wait for an idle boundary take effect when no program runs or is pending (R202). -/
def Lane.idleSwaps (L : Lane) : Lane :=
  if L.le.runs.isEmpty && L.le.pending.isEmpty then L.swapRecords L.dueIdle else L

/-- The ZERO count restarted for a bridge whose trigger's run ended without an END (R256). -/
def Lane.restartZero (L : Lane) (n : Nat) : Lane :=
  match L.trigBridge n with
  | none => L
  | some b =>
    if L.get (Reg.FC_BR_STAT_STATE b) = 2 then L.setBr b { L.br b with zeroLeft := L.zeroPeriods b } else L

/-- A deadline miss of trigger `n` (R168, R169): status, count, event, source; a miss of a trigger of a bridge in ZERO restarts its
count (R256). -/
def Lane.missed (L : Lane) (n : Nat) : Lane :=
  ((((L.set (Reg.LE_TRIG_STAT_MISS n) 1).count Reg.LE_CNT_MISS_COUNT).event 188).raise 32).restartZero n

/-- LE_TRIG_STAT[n].SATUR as a run ends, however it ends (R158). -/
def Lane.noteSatur (L : Lane) (r : LeRun) : Lane := if r.satur then L.set (Reg.LE_TRIG_STAT_SATUR r.trig) 1 else L

/-- The replay dropped: the lane takes the next snapshot series (R705). -/
def Lane.dropReplay (L : Lane) : Lane :=
  { L with xf := { L.xf with replay := none, replayRun := false, release := none, gather := none } }

/-- A firing still pending at its deadline is a miss (R169); one of a replay discards the snapshot (R705). -/
def Lane.missedFiring (L : Lane) (n : Nat) : Lane :=
  let L1 := L.missed n
  if n = 7 && L.stage = 4 && L.xf.replay.isSome then L1.dropReplay else L1

/-- The pending firings whose deadline has passed are discarded as misses (R169). -/
def Lane.dropLate (L : Lane) : Lane :=
  let late := L.le.pending.filter fun f => decide (f.deadline ≤ L.now)
  (L.setPending (L.le.pending.filter fun f => decide (L.now < f.deadline))).forEach late fun f L => L.missedFiring f.trig

/-- The pending firings that may be dispatched: not those of T2 while it is held (R705). -/
def Lane.dispatchable (L : Lane) : List Firing := L.le.pending.filter fun f => !(f.trig = 2 && L.holdsT2)

/-- What the LE does after a run has ended: the lowest pending firing is dispatched if it goes before the pre-empted program, which
otherwise resumes (R141, R143). -/
def Lane.nextRun (L0 : Lane) : Lane :=
  let L := L0.dropLate
  let go (f : Firing) : Lane := (L.setPending (L.le.pending.filter (· ≠ f))).dispatch f (L.stage = 4 && f.trig = 7)
  match lowestPending L.dispatchable, L.le.runs with
  | none, _ => L.idleSwaps.showLe
  | some f, [] => go f
  | some f, r :: _ => if f.trig < r.trig then go f else L.showLe

/-! ### The agreed set and the replay of rejoin stage 4 -/

/-- An agreed set written into the input window, with ready event 2 (R138, R439): a run that fired in that cycle runs on it. -/
def Lane.writeSet (L : Lane) (a : AgrSet) : Lane :=
  let L1 := (((L.setSig 48 a.cycle).setSigs 64 ((List.range 16).map (nth a.agr))).esWatch L).ready 2
  L1.setRuns (L1.le.runs.map fun r => if L.cycleAt r.fired = a.cycle then { r with cycle := a.cycle } else r)

/-- The recorded set of cycle `m` written into the input window, and T7 fired on it with a deadline of one outer period (R705).
With no such set left, the live set goes back into the window and T2 is released from the next outer tick (R705). -/
def Lane.replayCycle (L : Lane) (m : Nat) : Lane :=
  match L.xf.record.find? (·.cycle = m) with
  | some a =>
    let L1 := { L with xf := { L.xf with replay := some m } }.writeSet a
    L1.place ⟨7, L1.now, L1.now + L1.outerPeriod⟩ true
  | none =>
    { L with xf := { L.xf with replay := none, replayRun := true, release := some (L.ferry / L.outerPeriod + 1) } }.writeSet (L.xf.record.getLast?.getD L.xf.set)

/-- A replay run ended by END: the next recorded cycle follows. -/
def Lane.replayEnded (L : Lane) : Lane :=
  match L.xf.replay with
  | some m => L.replayCycle ((m + 1) % 2 ^ 32)
  | none => L

/-- The head run ends under R168: its staged words are discarded. -/
def Lane.endMissed (L : Lane) (r : LeRun) (rest : List LeRun) : Lane :=
  let L1 := ((L.setRuns rest).noteSatur r).missed r.trig
  (if r.replay then L1.dropReplay else L1).nextRun

/-- A run on an uncorrectable error ends as a deadline miss does, with its own source (R134; log entry 15): the ZERO count of its bridge
starts anew. -/
def Lane.endEcc (L : Lane) (r : LeRun) (rest : List LeRun) : Lane :=
  let L1 := (((L.setRuns rest).noteSatur r).raise 10).restartZero r.trig
  (if r.replay then L1.dropReplay else L1).nextRun

/-! ### The commit of staged words (R161, R166, R709) -/

/-- DEMAND, CYCLE and SIGNATURE refreshed together, with the copy of the import-list words (R709); `cycle` is OCYC of the set that the run
used. -/
def Lane.refreshDemand (L : Lane) (cycle : Nat) (ws : List Nat) : Lane :=
  let L1 := L.refreshSrc .lane 2 4 ws false
  let L2 := L1.refreshSrc .lane 2 1 [cycle] false
  let L3 := L2.refreshSrc .lane 2 3 [L2.signature] false
  { L3 with xf := { L3.xf with kept := ⟨cycle, L3.importWords⟩ } }

/-- Whether port 2 accepts element `k` from trigger `n` (R161): the DEMAND element from T2 alone (log entry 209). -/
def Lane.portTwo (L : Lane) (n k : Nat) : Bool :=
  L.manValid .lane && k < L.manElems .lane &&
  ((L.desc .lane k).src = 1 || (n = 2 && (L.desc .lane k).src = 2 && (L.desc .lane k).sub = 4))

/-- One staged OUT committed by a run of trigger `n` on the set of cycle `c`. FC keeps the commits that wait for a loading point, latest
first (R234). -/
def Lane.commitOne (L : Lane) (n c : Nat) (o : Staged) : Lane :=
  if o.port < 2 then
    L.setBr o.port { L.br o.port with commits := (L.now, o.words.map (sgn 32)) :: (L.br o.port).commits }
  else if L.portTwo n o.elem then
    if (L.desc .lane o.elem).src = 1 then L.refresh .lane o.elem o.words false else L.refreshDemand c o.words
  else L

/-- Every staged word of a run committed in one step; "XF write refused" once where a word for port 2 was discarded. -/
def Lane.commitStaged (L : Lane) (n c : Nat) (os : List Staged) : Lane :=
  let bad := os.any fun o => 2 ≤ o.port && !L.portTwo n o.elem
  let L1 := os.foldl (fun L o => L.commitOne n c o) L
  if bad then L1.raise 101 else L1

/-- The first live run of T2 after the replay completes stage 4 (R705, Table 1.4). -/
def Lane.stageFourEnd (L : Lane) (n : Nat) : Lane :=
  if L.stage = 4 && n = 2 && L.xf.replayRun then
    let L1 := ((L.set Reg.XF_REJOIN_STAGE 5).set Reg.XF_REJOIN_COUNT 0).set Reg.XF_VSTAT_IN_STEP 1
    { L1 with xf := { L1.xf with replayRun := false, release := none } }.set Reg.XF_VSTAT_ADVISORY 1
  else L

/-- END of the head run (R166): commit, RUNS and SATUR, then the next run. A replay run's words are discarded (R705). -/
def Lane.endRun (L : Lane) (r : LeRun) (rest : List LeRun) : Lane :=
  let L2 := ((L.setRuns rest).wrap (Reg.LE_TRIG_STAT_RUNS r.trig)).noteSatur r
  if r.replay then L2.replayEnded.nextRun
  else ((L2.commitStaged r.trig r.cycle r.staged).stageFourEnd r.trig).nextRun

end Sys2Proof.Machine
end

