-- ==== Sys2Proof/Machine/LeMath.lean ====
section
/-! DEFINITION. The functions of Table 3.5 whose exact bits spec/ bounds but does not give: Clarke, sine and cosine, space-vector
modulation, reciprocal and square root. Each result is a reference value plus a free choice within the bound (log entry 4). -/

namespace Sys2Proof.Machine

/-- The largest natural number whose square is at most `n`, by bisection over `k` bits. -/
def isqrtBits (n : Nat) : Nat → Nat → Nat
  | 0, r => r
  | k + 1, r => if (r + 2 ^ k) * (r + 2 ^ k) ≤ n then isqrtBits n k (r + 2 ^ k) else isqrtBits n k r

/-- The square root of a number below 2^512, rounded down. -/
def isqrt (n : Nat) : Nat := isqrtBits n 256 0

/-- The LE's choice for an opcode and operand words, as an integer from −r to r. -/
def pick (op : Nat) (ws : List Nat) (r : Nat) : Int :=
  ((Config.leResult op (ws.map (BitVec.ofNat 32))).toNat % (2 * r + 1) : Nat) - (r : Int)

/-- Whether the LE's choice for an opcode and operand words is the upper neighbour. -/
def pickUp (op : Nat) (ws : List Nat) : Bool := (Config.leResult op (ws.map (BitVec.ofNat 32))).toNat % 2 = 1

/-- `n / d`: exact where it is a whole number, else one of its two neighbours. -/
def nearQ (up : Bool) (n : Int) (d : Nat) : Int := if n % (d : Int) = 0 then n / d else if up then n / d + 1 else n / d

/-- √3 in 128 fraction bits, rounded down. -/
def sqrt3 : Nat := isqrt (3 * 2 ^ 256)

/-- `n / √3`: exact for 0, else one of its two neighbours. -/
def divSqrt3 (up : Bool) (n : Int) : Int :=
  if n = 0 then 0
  else
    let f : Int := isqrt (n.natAbs * n.natAbs / 3)
    if 0 < n then (if up then f + 1 else f) else (if up then -f else -f - 1)

/-- 2π in 96 fraction bits. -/
def twoPi : Int := 497805226624462170461043889244

/-- A Taylor sum in 96 fraction bits: `t` the present term, `x2` the squared argument, terms 1/(k+1)(k+2) apart with alternating
signs. -/
def taylor (x2 : Int) : Nat → Nat → Int → Int
  | 0, _, _ => 0
  | n + 1, k, t => t + taylor x2 n (k + 2) (-(t * x2 / 2 ^ 96) / ((k + 1) * (k + 2) : Nat))

/-- Sine and cosine in Q1.30 of an angle in half ecounts below a quarter turn. -/
def sinQuarter (h : Nat) : Int := let x := twoPi * h / 131072; roundDiv (taylor (x * x / 2 ^ 96) 14 1 x) (2 ^ 66)
def cosQuarter (h : Nat) : Int := let x := twoPi * h / 131072; roundDiv (taylor (x * x / 2 ^ 96) 14 0 (2 ^ 96)) (2 ^ 66)

/-- The sine of an angle in half ecounts, nearest in Q1.30. -/
def sinHalf (h : Nat) : Int :=
  let r := h % 131072 % 32768
  match h % 131072 / 32768 with
  | 0 => sinQuarter r
  | 1 => cosQuarter r
  | 2 => -sinQuarter r
  | _ => -cosQuarter r
def sinRef (e : Nat) : Int := sinHalf (2 * e)
def cosRef (e : Nat) : Int := sinHalf (2 * e + 32768)

/-- The free part of a sine or cosine: none at the four quadrant angles, else within 3.0 × 10^-7 (Table 3.5). -/
def scsOff (op e : Nat) : Int := if e % 16384 = 0 then 0 else pick op [e] 321

/-- SCS: sine and cosine of an angle (R153). -/
def scs (e : Nat) : List Int := [sinRef e + scsOff 0x1B e, cosRef e + scsOff 0x5B e]

/-- CLK: α and β before saturation, exact to within one LSB (Table 3.5). -/
def clarke (two : Bool) (ws : List Nat) : List Int :=
  let u := sgn 32 (nth ws 0); let v := sgn 32 (nth ws 1); let w := sgn 32 (nth ws 2)
  if two then [u, divSqrt3 (pickUp 0x18 ws) (u + 2 * v)]
  else [nearQ (pickUp 0x58 ws) (2 * u - v - w) 3, divSqrt3 (pickUp 0x18 ws) (v - w)]

/-- RCP: the result in Q4.27 and flag S (R153, R154). -/
def rcp (w : Nat) : Int × Bool :=
  let s := sgn 32 w
  if s = 0 then (2 ^ 31 - 1, true)
  else if s.natAbs < 2 ^ 26 then (if s < 0 then -(2 ^ 31 - 1) else 2 ^ 31 - 1, true)
  else (satW 32 (truncDiv (2 ^ 57) s + pick 0x1D [w] (2 ^ 33 / s.natAbs - 1)), false)

/-- SQR: the result in Q1.30 and flag S (R153, R155): the nearest number where the bound of R153 is below one LSB. -/
def sqr (w : Nat) : Int × Bool :=
  let s := sgn 32 w
  if s < 0 then (0, true)
  else
    let n := s.toNat * 2 ^ 30
    let base := isqrt n
    let r := base / 2 ^ 24
    if r = 0 then (if n ≤ base * base + base then base else base + 1, false)
    else (base + pick 0x1E [w] (r - 1), false)

/-- A value in 128 fraction bits brought to Q1.30 within one LSB: the nearest number where it lies within 2^-40 of one, else either
neighbour. -/
def nearFix (up : Bool) (v : Int) : Int :=
  let q := v / 2 ^ 98
  let f := v % 2 ^ 98
  if f < 2 ^ 88 then q else if 2 ^ 98 - 2 ^ 88 < f then q + 1 else if up then q + 1 else q

/-- SVM: the three duties and flag S (R157: phase references, offset by MOD[1:0], limit by MOD[2]). Numbers have 128 fraction
bits. -/
def svm (m : Nat) (ws : List Nat) : List Int × Bool :=
  let al : Int := sgn 32 (nth ws 0) * sgn 32 (nth ws 2) * 2 ^ 71
  let be : Int := sgn 32 (nth ws 1) * sgn 32 (nth ws 2) * 2 ^ 71
  let h : Int := be * (sqrt3 : Int) / 2 ^ 129
  let a := al
  let b := -al / 2 + h
  let c := -al / 2 - h
  let mx := max a (max b c)
  let mn := min a (min b c)
  let half : Int := 2 ^ 127
  let one : Int := 2 ^ 128
  let z := if m % 4 = 0 then -(mx + mn) / 2 else if m % 4 = 1 then 0 else -half - mn
  let ds := [a, b, c].map fun x => half + x + z
  let fits := ds.all fun d => 0 ≤ d && d ≤ one
  let out (v : Int) (i : Nat) : Int := clampI 0 one30 (nearFix (pickUp (0x1C + 64 * (i + 1)) ws) v)
  if fits then ([out (nth3 ds 0) 0, out (nth3 ds 1) 1, out (nth3 ds 2) 2], false)
  else if m / 4 % 2 = 0 then
    ((List.range 3).map fun i => out (clampI 0 one (nth3 ds i)) i, true)
  else
    let span := if m % 4 = 1 then 2 * max mx (-mn) else mx - mn
    let k := one * one / max 1 span
    let k' := min (k + k * pick 0x1C ws 1023 / 2 ^ 34) (2 * one)
    let sc (x : Int) : Int := x * k' / one
    let zs := if m % 4 = 0 then -(sc mx + sc mn) / 2 else if m % 4 = 1 then 0 else -half - sc mn
    ((List.range 3).map fun i => out (clampI 0 one (half + sc (nth3 [a, b, c] i) + zs)) i, true)
where
  /-- Entry `i` of a list of integers. -/
  nth3 (l : List Int) (i : Nat) : Int := l.getD i 0

end Sys2Proof.Machine
end

