-- ==== Sys2Proof/Machine/LeOps.lean ====
section
/-! DEFINITION. The instructions of the loop engine (03_loop_engine.md Table 3.7, 04_compensators.md R186 to R198): one meaning
each. An instruction is the next one of the running program; it reads all its operands before it writes. -/

namespace Sys2Proof.Machine

/-- One instruction of the running program, with opcode `op`: nothing where the fast plane is down, no program runs, its WAIT is
still in progress, or the word at its program counter is another opcode. A run past its deadline ends instead (R168). The word is
fetched with its error code's answer (R134). -/
def leStep (x : LaneId) (op : Nat) (ecc : Ecc) (body : Lane → LeRun → List LeRun → Nat → Lane) (s : State) : Out :=
  onUp x (fun L =>
    match L.le.runs with
    | [] => L
    | r :: rest =>
      if r.wait.isSome then L
      else if r.deadline ≤ L.now then L.endMissed r rest
      else if opOf (L.prog r.pc) ≠ op then L
      else match ecc with
        | .uncorrectable => L.endEcc r rest
        | .corrected => body (L.count Reg.LE_CNT_ECC_COUNT) r rest (L.prog r.pc)
        | .clean => body L r rest (L.prog r.pc)) s

/-- The head run replaced, its program counter moved on by `n` words. -/
def Lane.goOn (L : Lane) (r : LeRun) (rest : List LeRun) (n : Nat) : Lane :=
  L.setRuns ({ r with pc := (r.pc + n) % 4096 } :: rest)

/-- What an instruction writes: the words from s[D] on, then its state words, with N and Z from s[D] and S by its rule (R158, R195).
A write into the input window writes nothing and changes no flag (R137). Where a state word lies at s[D] and prevails, N and Z follow the output
word (log entry 211). -/
def Lane.leWrite (L : Lane) (r : LeRun) (rest : List LeRun) (d : Nat) (out : List Nat) (state : List (Nat × Nat))
    (sat : Option Bool) : Lane :=
  let addrs := (List.range out.length).map (fun i => (d + i) % 4096) ++ state.map fun e => e.1 % 4096
  if addrs.any (· < 128) then (L.goOn r rest 1).raise 35
  else
    let L1 := state.foldl (fun L e => L.setSig e.1 e.2) (L.setSigs d out)
    let v := nth out 0 % 2 ^ 32
    let sv := sat.getD r.s
    (L1.goOn { r with n := decide (2 ^ 31 ≤ v), z := decide (v = 0), s := sv, satur := r.satur || (sat.getD false) } rest 1).esWatch L

/-- A result saturated into its 32-bit word, and whether that changed it. -/
def satWord (i : Int) : Nat × Bool := (uns 32 (satW 32 i), satHit 32 i)

/-- Results saturated word by word; S where any saturated. -/
def satWords (l : List Int) : List Nat × Bool := (l.map fun i => (satWord i).1, l.any (satHit 32))

/-- A sum of products formed in an accumulator of its own and rounded once (R151). -/
def sumRound (ps : List Int) : Int × Bool := accRound (accSum (0, false) ps) false

/-! ### Accumulator and moves -/

/-- NOP. -/
def execLeNop (x : LaneId) (ecc : Ecc) (s : State) : Out :=
  leStep x 0x00 ecc (fun L r rest _ => L.goOn r rest 1) s

/-- CLR: acc := 0, and its saturation state ends (R148). -/
def execLeClr (x : LaneId) (ecc : Ecc) (s : State) : Out :=
  leStep x 0x01 ecc (fun L r rest _ => L.goOn { r with acc := 0, accSat := false } rest 1) s

/-- LDA: acc := s[A], 30 fraction bits raised to 60. -/
def execLeLda (x : LaneId) (ecc : Ecc) (s : State) : Out :=
  leStep x 0x02 ecc (fun L r rest w => L.goOn { r with acc := L.sigI (aOf w) * 2 ^ 30, accSat := false } rest 1) s

/-- The product of term `i` of a MAC or MACR, with 60 fraction bits and its sign (R149): b from c[K] or s[B], in Q4.27 or, by
MOD[1], a signal word in Q1.30. -/
def Lane.macTerm (L : Lane) (w i : Nat) : Int :=
  let a := L.sigI (aOf w + i)
  let p := if bitAt (modOf w) 2 then
      (if bitAt (modOf w) 1 then a * L.sigI (bOf w + i) else a * L.sigI (bOf w + i) * 8)
    else a * L.coefI (kOf w + i) * 8
  if bitAt (modOf w) 3 then -p else p

/-- MAC. -/
def execLeMac (x : LaneId) (ecc : Ecc) (s : State) : Out :=
  leStep x 0x03 ecc (fun L r rest w =>
    let a := accAdd (r.acc, r.accSat) (L.macTerm w 0)
    L.goOn { r with acc := a.1, accSat := a.2 } rest 1) s

/-- MACR: N + 1 products, one at a time in ascending order (R149). -/
def execLeMacr (x : LaneId) (ecc : Ecc) (s : State) : Out :=
  leStep x 0x04 ecc (fun L r rest w =>
    let a := accSum (r.acc, r.accSat) ((List.range (nOf w + 1)).map (L.macTerm w))
    L.goOn { r with acc := a.1, accSat := a.2 } rest 1) s

/-- STA (R150). -/
def execLeSta (x : LaneId) (ecc : Ecc) (s : State) : Out :=
  leStep x 0x05 ecc (fun L r rest w =>
    let a := accRound (r.acc, r.accSat) (bitAt (modOf w) 3)
    L.leWrite r rest (dOf w) [uns 32 a.1] [] (some a.2)) s

/-- MOV. -/
def execLeMov (x : LaneId) (ecc : Ecc) (s : State) : Out :=
  leStep x 0x06 ecc (fun L r rest w => L.leWrite r rest (dOf w) [L.sig (aOf w)] [] none) s

/-- LDC. -/
def execLeLdc (x : LaneId) (ecc : Ecc) (s : State) : Out :=
  leStep x 0x07 ecc (fun L r rest w => L.leWrite r rest (dOf w) [L.coef (kOf w)] [] none) s

/-- ADD: s[A] ± s[B], exact, saturated (R152). -/
def execLeAdd (x : LaneId) (ecc : Ecc) (s : State) : Out :=
  leStep x 0x08 ecc (fun L r rest w =>
    let b := L.sigI (bOf w)
    let v := satWord (L.sigI (aOf w) + if bitAt (modOf w) 3 then -b else b)
    L.leWrite r rest (dOf w) [v.1] [] (some v.2)) s

/-- MUL: one product rounded (R151). -/
def execLeMul (x : LaneId) (ecc : Ecc) (s : State) : Out :=
  leStep x 0x09 ecc (fun L r rest w =>
    let v := sumRound [L.sigI (aOf w) * L.sigI (bOf w)]
    L.leWrite r rest (dOf w) [uns 32 v.1] [] (some v.2)) s

/-! ### Limits, selection and skips -/

/-- The y1 state word that an anti-windup SAT on record `k` corrects (R197): that of the most recent counting step of this run, unless the
record is held. -/
def Lane.windupWord (L : Lane) (r : LeRun) (w : Nat) : Option Nat :=
  let k := L.recordOf (kOf w)
  if bitAt (modOf w) 3 && !L.held k && L.recWord k 15 % 16 ≠ 3 then spGet none k r.steps else none

/-- SAT: s[D] := min(max(s[A], s[B]), s[B+1]), with the anti-windup of R197 (s[D] itself as the corrected word: log entry 197). -/
def execLeSat (x : LaneId) (ecc : Ecc) (s : State) : Out :=
  leStep x 0x0A ecc (fun L r rest w =>
    let a := L.sigI (aOf w)
    let v := min (max a (L.sigI (bOf w))) (L.sigI (bOf w + 1))
    match L.windupWord r w with
    | none => L.leWrite r rest (dOf w) [uns 32 v] [] none
    | some y => L.leWrite r rest (dOf w) [uns 32 v] [(y, uns 32 (satW 32 (L.sigI y + (v - a))))] none) s

/-- The condition of SEL and SKP (Table 3.8). -/
def condOf (r : LeRun) (m : Nat) : Bool :=
  match m with
  | 0 => r.n | 1 => !r.n | 2 => r.z | 3 => !r.z | 4 => r.s | 5 => !r.s | 6 => r.t | 7 => !r.t | _ => true

/-- SEL. -/
def execLeSel (x : LaneId) (ecc : Ecc) (s : State) : Out :=
  leStep x 0x0B ecc (fun L r rest w =>
    L.leWrite r rest (dOf w) [if condOf r (modOf w) then L.sig (aOf w) else L.sig (bOf w)] [] none) s

/-- SKP: the next N + 1 instructions are skipped where the condition holds. -/
def execLeSkp (x : LaneId) (ecc : Ecc) (s : State) : Out :=
  leStep x 0x0C ecc (fun L r rest w => L.goOn r rest (if condOf r (modOf w) then nOf w + 2 else 1)) s

/-! ### Compensators (R187, R194 to R198) -/

/-- A macro step on record K: `form` its FORM, `ny` the offset of its y1 state word, `sum` the products of Table 4.3 (57 fraction
bits), `upd` the state words written, given e[k] and y. Under HOLD, and for a record of another form, it writes y1 and keeps its
state. A C22 or C33 step that counts is remembered for R197, a refused one too (log entry 196). -/
def Lane.macroStep (L : Lane) (r : LeRun) (rest : List LeRun) (w form ny : Nat) (sum : (Nat → Int) → Int → (Nat → Int) → List Int)
    (upd : Nat → Nat → List (Nat × Nat)) : Lane :=
  let k := L.recordOf (kOf w)
  let b := bOf w
  let st := fun i => L.sigI (b + i)
  let e := L.sigI (aOf w)
  let mark (v : Option Nat) : LeRun := if form = 3 then r else { r with steps := spSet none k v r.steps }
  if L.held k then L.leWrite (mark none) rest (dOf w) [L.sig (b + ny)] [] (some false)
  else if L.recWord k 15 % 16 ≠ form then
    (L.leWrite (mark none) rest (dOf w) [L.sig (b + ny)] [] (some true)).raise 37
  else
    let c := fun i => sgn 32 (L.recWord k i)
    let v := accRound (accSum (0, false) ((sum c e st).map (· * 8))) false
    let y := min (max v.1 (c 13)) (c 12)
    L.leWrite (mark (some ((b + ny) % 4096))) rest (dOf w) [uns 32 y] (upd (L.sig (aOf w)) (uns 32 y)) (some (v.2 || decide (y ≠ v.1)))

/-- C22. -/
def execLeC22 (x : LaneId) (ecc : Ecc) (s : State) : Out :=
  leStep x 0x10 ecc (fun L r rest w =>
    let b := bOf w
    L.macroStep r rest w 1 2
      (fun c e st => [c 0 * e, c 1 * st 0, c 2 * st 1, -(c 4 * st 2), -(c 5 * st 3)])
      (fun e y => [(b + 1, L.sig b), (b, e), (b + 3, L.sig (b + 2)), (b + 2, y)])) s

/-- C33. -/
def execLeC33 (x : LaneId) (ecc : Ecc) (s : State) : Out :=
  leStep x 0x11 ecc (fun L r rest w =>
    let b := bOf w
    L.macroStep r rest w 2 3
      (fun c e st => [c 0 * e, c 1 * st 0, c 2 * st 1, c 3 * st 2, -(c 4 * st 3), -(c 5 * st 4), -(c 6 * st 5)])
      (fun e y => [(b + 2, L.sig (b + 1)), (b + 1, L.sig b), (b, e), (b + 5, L.sig (b + 4)), (b + 4, L.sig (b + 3)), (b + 3, y)])) s

/-- NTC. -/
def execLeNtc (x : LaneId) (ecc : Ecc) (s : State) : Out :=
  leStep x 0x12 ecc (fun L r rest w =>
    let b := bOf w
    L.macroStep r rest w 3 2
      (fun c e st => [c 0 * (e + st 1), c 1 * st 0, -(c 4 * st 2), -(c 5 * st 3)])
      (fun e y => [(b + 1, L.sig b), (b, e), (b + 3, L.sig (b + 2)), (b + 2, y)])) s

/-! ### Transforms and functions -/

/-- CLK. -/
def execLeClk (x : LaneId) (ecc : Ecc) (s : State) : Out :=
  leStep x 0x18 ecc (fun L r rest w =>
    let v := satWords (clarke (bitAt (modOf w) 0) ((List.range 3).map fun i => L.sig (aOf w + i)))
    L.leWrite r rest (dOf w) v.1 [] (some v.2)) s

/-- PRK: d = α cos θ + β sin θ, q = −α sin θ + β cos θ, with sin θ = s[B] and cos θ = s[B+1]. -/
def execLePrk (x : LaneId) (ecc : Ecc) (s : State) : Out :=
  leStep x 0x19 ecc (fun L r rest w =>
    let al := L.sigI (aOf w); let be := L.sigI (aOf w + 1); let sn := L.sigI (bOf w); let cs := L.sigI (bOf w + 1)
    let d := sumRound [al * cs, be * sn]
    let q := sumRound [-(al * sn), be * cs]
    L.leWrite r rest (dOf w) [uns 32 d.1, uns 32 q.1] [] (some (d.2 || q.2))) s

/-- IPK: α = d cos θ − q sin θ, β = d sin θ + q cos θ. -/
def execLeIpk (x : LaneId) (ecc : Ecc) (s : State) : Out :=
  leStep x 0x1A ecc (fun L r rest w =>
    let d := L.sigI (aOf w); let q := L.sigI (aOf w + 1); let sn := L.sigI (bOf w); let cs := L.sigI (bOf w + 1)
    let al := sumRound [d * cs, -(q * sn)]
    let be := sumRound [d * sn, q * cs]
    L.leWrite r rest (dOf w) [uns 32 al.1, uns 32 be.1] [] (some (al.2 || be.2))) s

/-- SCS of s[A][15:0]; it has no saturation rule (R158). -/
def execLeScs (x : LaneId) (ecc : Ecc) (s : State) : Out :=
  leStep x 0x1B ecc (fun L r rest w =>
    L.leWrite r rest (dOf w) ((scs (L.sig (aOf w) % 65536)).map fun i => uns 32 (satW 32 i)) [] none) s

/-- SVM. -/
def execLeSvm (x : LaneId) (ecc : Ecc) (s : State) : Out :=
  leStep x 0x1C ecc (fun L r rest w =>
    let v := svm (modOf w) [L.sig (aOf w), L.sig (aOf w + 1), L.sig (bOf w)]
    L.leWrite r rest (dOf w) (v.1.map (uns 32)) [] (some v.2)) s

/-- RCP. -/
def execLeRcp (x : LaneId) (ecc : Ecc) (s : State) : Out :=
  leStep x 0x1D ecc (fun L r rest w =>
    let v := rcp (L.sig (aOf w))
    L.leWrite r rest (dOf w) [uns 32 v.1] [] (some v.2)) s

/-- SQR. -/
def execLeSqr (x : LaneId) (ecc : Ecc) (s : State) : Out :=
  leStep x 0x1E ecc (fun L r rest w =>
    let v := sqr (L.sig (aOf w))
    L.leWrite r rest (dOf w) [uns 32 v.1] [] (some v.2)) s

/-! ### Outputs, waits and the end of a run -/

/-- OUT: stages s[A..A+N] for its port; an FC port takes three words (R161; log entry 16). -/
def execLeOut (x : LaneId) (ecc : Ecc) (s : State) : Out :=
  leStep x 0x30 ecc (fun L r rest w =>
    let n := if modOf w < 2 then 3 else nOf w + 1
    let o : Staged := ⟨modOf w, kOf w, (List.range n).map fun i => L.sig (aOf w + i)⟩
    L.goOn { r with staged := r.staged ++ [o] } rest 1) s

/-- Whether the event a WAIT names has occurred since the run was dispatched (R159); a firmware event written before the dispatch and not yet
consumed counts (log entry 210). -/
def Lane.occurred (L : Lane) (r : LeRun) (m : Nat) : Bool :=
  if m = 3 then L.bit Reg.LE_FIRE_EVT else bitAt r.seen.toNat m

/-- A WAIT completes on its event: T is cleared, the firmware event is consumed (R158, R159). -/
def Lane.waitDone (L : Lane) (r : LeRun) (rest : List LeRun) (m : Nat) : Lane :=
  (if m = 3 then L.set Reg.LE_FIRE_EVT 0 else L).goOn { r with t := false, wait := none } rest 1

/-- WAIT: completes at once on an event that has occurred, else the program waits. -/
def execLeWait (x : LaneId) (ecc : Ecc) (s : State) : Out :=
  leStep x 0x31 ecc (fun L r rest w =>
    if L.occurred r (modOf w) then L.waitDone r rest (modOf w)
    else L.setRuns ({ r with wait := some L.now } :: rest)) s

/-- A run whose deadline passed while its WAIT was in progress ends at the end of that instruction (R168). -/
def Lane.pastDeadline (L : Lane) : Lane :=
  match L.le.runs with
  | [] => L
  | r :: rest => if r.deadline ≤ L.now then L.endMissed r rest else L

/-- The event of the WAIT in progress has occurred (R159). -/
def execWaitEventComplete (x : LaneId) (s : State) : Out :=
  onUp x (fun L =>
    match L.le.runs with
    | [] => L
    | r :: rest =>
      if r.wait.isSome && L.occurred r (modOf (L.prog r.pc)) then (L.waitDone r rest (modOf (L.prog r.pc))).pastDeadline
      else L) s

/-- When the WAIT in progress times out: K ticks after its start. -/
def Lane.waitDue (L : Lane) : Option Nat :=
  match L.le.runs with
  | [] => none
  | r :: _ => r.wait.map (· + kOf (L.prog r.pc))

/-- The WAIT in progress times out (R160): T, TIMEOUT and "wait timeout"; an event that has occurred completes it instead (R147). -/
def execWaitTimeout (x : LaneId) (s : State) : Out :=
  atDue x Lane.waitDue (fun L =>
    match L.le.runs with
    | [] => L
    | r :: rest =>
      if L.occurred r (modOf (L.prog r.pc)) then (L.waitDone r rest (modOf (L.prog r.pc))).pastDeadline
      else
        let L1 := L.goOn { r with t := true, wait := none } rest 1
        (((L1.set (Reg.LE_TRIG_STAT_TIMEOUT r.trig) 1).event 189).raise 34).pastDeadline) s

/-- END. -/
def execLeEnd (x : LaneId) (ecc : Ecc) (s : State) : Out :=
  leStep x 0x3F ecc (fun L r rest _ => L.endRun r rest) s

end Sys2Proof.Machine
end

