-- ==== Sys2Proof/Machine/Le.lean ====
section
/-! DEFINITION. The loop engine's commands from outside its programs: firings, the deadline guard, scans and swaps, core writes to
its stores, bank swaps and scheduled HOLD (03_loop_engine.md, 04_compensators.md). -/

namespace Sys2Proof.Machine

/-! ### Firings and deadlines -/

/-- Whether the source of trigger `n` has such an event: none for SRC 0 and the reserved codes, no peak for a bridge in CENTRE (R227), that of
SRC 8 only at a landing (R437), which fires its triggers itself. -/
def Lane.hasSource (L : Lane) (n : Nat) : Bool :=
  let src := L.get (Reg.LE_TRIG_CFG_SRC n)
  match L.trigBridge n with
  | none => src = 7 || (src = 8 && L.xf.landedAt = some L.now)
  | some b =>
    let k := (src - 1) % 3
    L.get (Reg.FC_BR_CFG_PAT b) = 1 || k = 0 || (k = 2 && !L.fc.lastPeak)

/-- The source event of trigger `n` (R140). -/
def execTriggerFiring (x : LaneId) (n : Fin 8) (s : State) : Out :=
  onUp x (fun L => if L.hasSource n then L.fire n else L) s

/-- The deadline of trigger `n`'s firing. -/
def Lane.deadlineOf (L : Lane) (n : Nat) : Option Nat :=
  match L.le.runs.find? (·.trig = n) with
  | some r => some r.deadline
  | none => (L.le.pending.find? (·.trig = n)).map (·.deadline)

/-- A deadline passes: the running, pre-empted or pending firing of trigger `n` ends as a miss (R168, R169). A run whose WAIT is in progress
ends where that instruction does. -/
def execDeadlineMiss (x : LaneId) (n : Fin 8) (s : State) : Out :=
  atDue x (fun L => L.deadlineOf n) (fun L =>
    match L.le.runs with
    | r :: rest =>
      if r.trig = n.val then (if r.wait.isSome then L else L.endMissed r rest)
      else match L.le.runs.find? (·.trig = n.val) with
        | some q =>
          let L1 := ((L.setRuns (L.le.runs.filter (·.trig ≠ n.val))).noteSatur q).missed n
          (if q.replay then L1.dropReplay else L1).showLe
        | none => ((L.setPending (L.le.pending.filter (·.trig ≠ n.val))).missedFiring n).showLe
    | [] => ((L.setPending (L.le.pending.filter (·.trig ≠ n.val))).missedFiring n).showLe) s

/-- A pace measurement (R164): "LE pace" at the sixteenth reading in succession above 1,024. -/
def execPaceMeasurement (x : LaneId) (pace : Nat) (s : State) : Out :=
  onUp x (fun L =>
    let p := min pace 4095
    let c := if 1024 < p then min 16 (L.le.pace + 1) else 0
    let L1 := { L.set Reg.LE_STAT_PACE p with le := { L.le with pace := c } }
    if c = 16 && L.le.pace = 15 then L1.raise 36 else L1) s

/-- A write to LE_FIRE.FIRE fires the triggers whose bit is 1 (R140). -/
def execLeFireFire (x : LaneId) (mask : BitVec 8) (s : State) : Out :=
  onUp x (fun L => L.forEach (bitList mask.toNat 8) fun n L => L.fire n) s

/-- A write of 1 to LE_FIRE.EVT (R159). -/
def execLeFireEvt (x : LaneId) (s : State) : Out := onUp x (fun L => L.set Reg.LE_FIRE_EVT 1) s

/-! ### Scans and program swaps -/

/-- The scans in progress, one for each trigger. -/
def Lane.scanOf (L : Lane) (n : Nat) : Option (Option Swap) := (L.le.scans.find? (·.1 = n)).map (·.2)
def Lane.setScan (L : Lane) (n : Nat) (w : Option Swap) : Lane :=
  { L.set (Reg.LE_TRIG_STAT_SCAN n) 1 with le := { L.le with scans := spIns n w L.le.scans } }

/-- A write to LE_TRIG_CFG[n] (R173, R174, R176): refused while a scan is in progress; only EN changes while EN is set; EN = 1 starts the
scan. -/
def Lane.writeTrigCfg (L : Lane) (n v : Nat) : Lane :=
  let fs := [Reg.LE_TRIG_CFG_SRC n, Reg.LE_TRIG_CFG_LIMIT n, Reg.LE_TRIG_CFG_ENTRY n]
  let en := bitAt v 31
  if L.bit (Reg.LE_TRIG_STAT_SCAN n) then L.raise 35
  else if L.bit (Reg.LE_TRIG_CFG_EN n) then
    let L1 := L.setBool (Reg.LE_TRIG_CFG_EN n) en
    if L.changes fs v then L1.raise 35 else L1
  else
    let L1 := L.writeFlds fs v
    if en then L1.setScan n none else L1

/-- EN written 1 to LE_TRIG_CFG[n]. -/
def execTriggerEnable (x : LaneId) (n : Fin 8) (v : Word) (s : State) : Out :=
  onUp x (fun L => L.writeTrigCfg n (setBit v.toNat 31)) s

/-- The outcome of a scan shown in LE_TRIG_STAT[n] and LE_TRIG_WCET[n] (R174, R175), as its end finds it, a swap's too; a time of more
than 20 bits loses the upper ones (log entries 207 and 208). -/
def Lane.scanResult (L : Lane) (n reason t : Nat) : Lane :=
  let L1 := (L.set (Reg.LE_TRIG_STAT_REASON n) reason).setBool (Reg.LE_TRIG_STAT_REFUSED n) (decide (reason ≠ 0))
  if reason = 0 || reason = 3 then L1.set (Reg.LE_TRIG_WCET_WCET n) t else L1

/-- The scan of a region with what the error codes of its words answer: where one is uncorrectable, REASON and the computed time are free
values (R134, R174). -/
def Lane.scanRead (L : Lane) (src dl entry limit : Nat) : Lane × Nat × Nat :=
  let p := L.readStores (limit + 1 - entry)
  if p.2 then
    let f := p.1.takeFree
    let g := f.2.takeFree
    (g.2, f.1 % 6, g.1)
  else (p.1, L.scan src dl entry limit)

/-- The refusals of a program swap that its scan does not find (R178). -/
def Lane.swapReason (L : Lane) (w : Swap) : Nat :=
  if !L.bit (Reg.LE_TRIG_CFG_EN w.trig) then 7
  else match w.cycle with
    | none => 0
    | some c => if L.get (Reg.LE_TRIG_CFG_SRC w.trig) ≠ 7 || L.cyclePassed c then 6 else 0

/-- The scan of trigger `n`'s program judged: accepted and enabled, or refused (R174). -/
def Lane.scanned (L : Lane) (n : Nat) : Lane :=
  let p := L.scanRead (L.get (Reg.LE_TRIG_CFG_SRC n)) (L.get (Reg.LE_TRIG_DL_DL n)) (L.entryOf n) (L.limitOf n)
  let r := p.2
  ((p.1.scanResult n r.1 r.2).setBool (Reg.LE_TRIG_CFG_EN n) (decide (r.1 = 0))).event 190

/-- The scan of trigger `n` ends: the program is accepted and enabled, or the swap becomes pending; or it is refused (R174, R178). -/
def execScanEnd (x : LaneId) (n : Fin 8) (s : State) : Out :=
  onUp x (fun L =>
    let done := { L.set (Reg.LE_TRIG_STAT_SCAN n) 0 with le := { L.le with scans := spDel n.val L.le.scans } }
    let dl := L.get (Reg.LE_TRIG_DL_DL n)
    let src := L.get (Reg.LE_TRIG_CFG_SRC n)
    match L.scanOf n with
    | none => L
    | some none => done.scanned n
    | some (some w) =>
      let p := done.scanRead src dl w.entry w.limit
      let r := p.2
      let reason := if r.1 ≠ 0 then r.1 else L.swapReason w
      let L1 := p.1.scanResult n reason r.2
      (if reason = 0 then { L1 with le := { L1.le with swap := some w } } else L1.set Reg.LE_SWAP_GO 0).event 190) s

/-- A write of LE_SWAP (R177 to R179): with GO set it starts a swap; while one is pending it is refused. -/
def Lane.writeSwap (L : Lane) (v : Nat) : Lane :=
  let fs := [Reg.LE_SWAP_AT_CYCLE, Reg.LE_SWAP_TRIG, Reg.LE_SWAP_NEW_LIMIT, Reg.LE_SWAP_NEW_ENTRY]
  if !bitAt v 31 then L.writeFlds fs v
  else if L.bit Reg.LE_SWAP_GO then L.raise 35
  else
    let L1 := L.writeFlds fs v
    let n := L1.get Reg.LE_SWAP_TRIG
    let w : Swap := ⟨n, L1.get Reg.LE_SWAP_NEW_ENTRY, L1.get Reg.LE_SWAP_NEW_LIMIT,
      if L1.bit Reg.LE_SWAP_AT_CYCLE then some (L1.get Reg.LE_SWAP_CYCLE_CYCLE) else none⟩
    let reason := L1.swapReason w
    if reason ≠ 0 then (L1.scanResult n reason 0).event 190
    else (L1.set Reg.LE_SWAP_GO 1).setScan n (some w)

/-- GO written 1 to LE_SWAP. -/
def execProgramSwap (x : LaneId) (v : Word) (s : State) : Out := onUp x (fun L => L.writeSwap (setBit v.toNat 31)) s

/-! ### Core writes to the stores -/

/-- Half of program word `i` written by a core (R136, R172). -/
def Lane.writeProg (L : Lane) (i : Nat) (high : Bool) (v : Nat) : Lane :=
  if L.progLocked i then L.raise 35
  else if high then
    match L.le.low with
    | some (j, lo) =>
      if j = i then
        let L1 := L.setProg i (v * 2 ^ 32 + lo)
        { L1 with le := { L1.le with low := none } }
      else L.setProg i (v * 2 ^ 32 + L.prog i % 2 ^ 32)
    | none => L.setProg i (v * 2 ^ 32 + L.prog i % 2 ^ 32)
  else { L with le := { L.le with low := some (i, v) } }

/-- A core writes half of a program word. -/
def execProgramWordWrite (x : LaneId) (i : Fin 4096) (high : Bool) (v : Word) (s : State) : Out :=
  onUp x (fun L => L.writeProg i high v.toNat) s

/-- A core writes a signal word; the input window is not written (R137). -/
def execSignalWordWrite (x : LaneId) (i : Fin 4096) (v : Word) (s : State) : Out :=
  onUp x (fun L => if i.val < 128 then L else (L.setSig i v.toNat).esWatch L) s

/-- Whether a swap of record `r` is pending, its copy included. -/
def Lane.swapPending (L : Lane) (r : Nat) : Bool := L.bitOf Reg.LE_CSWAP_REQ r || L.bitOf Reg.LE_CSWAP_AT_REQ r

/-- A core writes word `k` of the coefficient window (R188, R189, R207). -/
def Lane.writeCoef (L : Lane) (k v : Nat) : Lane :=
  if L.full then L.setPhys k v
  else if 512 ≤ k || L.swapPending (k / 16) then L.raise 35
  else L.setPhys (L.windowAt k) v

/-- A core writes a coefficient word. -/
def execCoeffWordWrite (x : LaneId) (k : Fin 1024) (v : Word) (s : State) : Out :=
  onUp x (fun L => L.writeCoef k v.toNat) s

/-! ### Bank swaps and scheduled HOLD -/

/-- A write of LE_CSWAP (R201, R207; refused in the full configuration, Table 4.9). -/
def Lane.requestSwaps (L : Lane) (v : Nat) : Lane :=
  if L.full then L.coefRefused 4
  else L.forEach (bitList v 32) fun r L =>
    if L.swapPending r then L.coefRefused 1 else L.putBitOf Reg.LE_CSWAP_REQ r true

/-- Requests for swaps at the owner's next dispatch. -/
def execCswapRequest (x : LaneId) (v : Word) (s : State) : Out := onUp x (fun L => L.requestSwaps v.toNat) s

/-- A boundary at which no program runs or is pending (R202). -/
def execCswapIdleApply (x : LaneId) (s : State) : Out := onUp x Lane.idleSwaps s

/-- Why a request for record `r` at LE_CSWAP_CYCLE is refused; 0 where it is accepted (R204, R207). -/
def Lane.atReason (L : Lane) (r : Nat) : Nat :=
  if L.swapPending r then 1
  else match L.owner r with
    | none => 3
    | some n => if L.get (Reg.LE_TRIG_CFG_SRC n) ≠ 7 then 3 else if L.cyclePassed (L.get Reg.LE_CSWAP_CYCLE_CYCLE) then 2 else 0

/-- A write of LE_CSWAP_AT (R203, R204). -/
def Lane.requestAt (L : Lane) (v : Nat) : Lane :=
  if L.full then L.coefRefused 4
  else L.forEach (bitList v 32) fun r L =>
    let reason := L.atReason r
    if reason ≠ 0 then L.coefRefused reason
    else (L.putBitOf Reg.LE_CSWAP_AT_REQ r true).set Reg.LE_CSTAT_AT_PEND 1

/-- Requests for swaps at an outer cycle. -/
def execCswapAtRequest (x : LaneId) (v : Word) (s : State) : Out := onUp x (fun L => L.requestAt v.toNat) s

/-- The copies into the new shadow banks end (R206). -/
def execSwapCopyEnd (x : LaneId) (s : State) : Out := onUp x Lane.endCopies s

/-- A write of LE_HOLD_SCHED (R213, R214). -/
def Lane.writeHoldSched (L : Lane) (v : Nat) : Lane :=
  let fs := [Reg.LE_HOLD_SCHED_VALUE, Reg.LE_HOLD_SCHED_RECORD]
  if L.bit Reg.LE_HOLD_SCHED_GO then L.coefRefused 5
  else if !bitAt v 31 then L.writeFlds fs v
  else if L.cyclePassed (L.get Reg.LE_HOLD_CYCLE_CYCLE) then L.coefRefused 2
  else ((L.writeFlds fs v).set Reg.LE_HOLD_SCHED_GO 1).set Reg.LE_CSTAT_HOLD_PEND 1

/-- GO written 1 to LE_HOLD_SCHED. -/
def execHoldSchedule (x : LaneId) (v : Word) (s : State) : Out := onUp x (fun L => L.writeHoldSched (setBit v.toNat 31)) s

/-- What falls due in the LE at the outer tick of cycle `k`, a 32-bit number in the registers (R24): the scheduled swaps and the scheduled
HOLD change (R203, R213). -/
def Lane.leOuterTick (L : Lane) (k : Nat) : Lane :=
  let c := k % 2 ^ 32
  let due := if L.get Reg.LE_CSWAP_CYCLE_CYCLE = c then
      (bitList (L.get Reg.LE_CSWAP_AT_REQ) 32).filter fun r => !L.le.copying.contains r
    else []
  let L1 := L.swapRecords due
  if L1.bit Reg.LE_HOLD_SCHED_GO && L1.get Reg.LE_HOLD_CYCLE_CYCLE = c then
    (((L1.putHold (L1.get Reg.LE_HOLD_SCHED_RECORD) (L1.bit Reg.LE_HOLD_SCHED_VALUE)).set Reg.LE_HOLD_SCHED_GO 0).set
      Reg.LE_CSTAT_HOLD_PEND 0).event 191
  else L1

/-- A write of LE_HOLD[i] (R215): each bit that changes is set or cleared as R213 does. -/
def Lane.writeHold (L : Lane) (i v : Nat) : Lane :=
  L.forEach (List.range 32) fun k L =>
    if bitAt v k = L.held (32 * i + k) then L else L.putHold (32 * i + k) (bitAt v k)

/-- A write that changes LE_CTRL.CCFG (R190): refused while any trigger is enabled; accepted, it cancels every pending swap and makes
bank 0 active for every record; HOLD of the records from 32 on begins or ends to act (R215). -/
def Lane.writeCcfg (L : Lane) (v : Nat) : Lane :=
  if v = L.get Reg.LE_CTRL_CCFG then L
  else if (List.range 8).any fun n => L.bit (Reg.LE_TRIG_CFG_EN n) then L.raise 35
  else
    let L1 := (((L.set Reg.LE_CTRL_CCFG v).set Reg.LE_CSWAP_REQ 0).set Reg.LE_CSWAP_AT_REQ 0).set Reg.LE_CBANK_BANK 0
    { L1.set Reg.LE_CSTAT_AT_PEND 0 with le := { L1.le with copying := [] } }.refreeze

end Sys2Proof.Machine
end

