-- ==== Sys2Proof/Machine/Fc.lean ====
section
/-! DEFINITION. Field control and analog measurement (05_field_control.md): carrier, loading of duties, pulses and windows, the
sample sets with reconstruction and prediction, forcing, catch-spin, locked rotor and offset calibration. -/

namespace Sys2Proof.Machine

/-! ### Carrier and bridge requests -/

/-- The carrier period P and the pulse interval L of bridge `b`, in ticks (R222, Table 5.1). -/
def Lane.period (L : Lane) : Nat := max 1 (L.get Reg.FC_CAR_DIV) * 2500
def Lane.interval (L : Lane) (b : Nat) : Nat := if L.bit (Reg.FC_BR_CFG_PAT b) then L.period / 2 else L.period

def Lane.bothOff (L : Lane) : Bool := L.get (Reg.FC_BR_STAT_STATE 0) = 0 && L.get (Reg.FC_BR_STAT_STATE 1) = 0

/-- "FC write refused" (R224). -/
def Lane.fcRefused (L : Lane) : Lane := L.raise 48

/-- DIV and PHASE in force until the next valley (R224). -/
def Lane.carrierNow (L : Lane) : Nat × Nat :=
  match L.fc.carNext with
  | some c => c
  | none => (L.get Reg.FC_CAR_DIV, L.get (Reg.FC_CAR_PHASE L.me))

/-- A write to FC_CAR (R224, R704): an accepted change waits for the next valley. -/
def Lane.writeCarrier (L : Lane) (v : Nat) : Lane :=
  let div := bitsOf v 21 18
  let ph := bitsOf v 14 0
  let same := div = L.get Reg.FC_CAR_DIV && ph = L.get (Reg.FC_CAR_PHASE L.me)
  let L1 := if bitAt v 31 then L.set Reg.FC_CAR_LOCK 1 else L
  if same then L1
  else if L.bit Reg.FC_CAR_LOCK || !L.bothOff || div < 1 || 8 < div || div * 2500 ≤ ph then L.fcRefused
  else
    let L2 := (L1.set Reg.FC_CAR_DIV div).set (Reg.FC_CAR_PHASE L.me) ph
    { L2 with fc := { L2.fc with carNext := some L.carrierNow } }

/-- A write of FC_CAR. -/
def execCarrierWrite (x : LaneId) (v : Word) (s : State) : Out := onUp x (fun L => L.writeCarrier v.toNat) s

/-- What keeps a bridge in OFF (R252): EN_x low, a latched gate-drive fault, the deputy's line, refuge, BOOT or PARK. -/
def Lane.heldOff (L : Lane) (b : Nat) : Bool :=
  !L.pins.en || L.bit (Reg.GD_FLT_SHORT b) || L.bit Reg.GD_STAT_LINK || L.bit Reg.SM_STAT_TOFF || L.md.refuge || L.mode = 0 || L.mode = 7

/-- OFF requested (R252). -/
def execBrReqOff (x : LaneId) (b : Fin 2) (s : State) : Out := onUp x (fun L => L.toOff b) s

/-- CATCH requested (R251): an OFF bridge moves to MEASURE, unless a condition of R252 holds. -/
def Lane.catchReq (L : Lane) (b : Nat) : Lane :=
  if L.get (Reg.FC_BR_STAT_STATE b) = 0 && !L.heldOff b then
    let L1 := L.set (Reg.FC_BR_CTRL_REQ b) 1
    (L1.setBr b { L1.br b with waitSince := L.now }).setBrState b 1
  else L

/-- CATCH written to FC_BR_CTRL[b].REQ; refused while the deputy asserts torque-off (R529). -/
def execBrReqCatch (x : LaneId) (b : Fin 2) (s : State) : Out :=
  onUp x (fun L => if L.bit Reg.SM_STAT_TOFF then L.fcRefused else L.catchReq b) s

/-- DIRECT requested (R269): outside WORKSHOP a mode refusal (R104); in it accepted only from OFF. -/
def Lane.directReq (L : Lane) (b : Nat) : Lane :=
  if !L.permits .direct then L.modeRefusal
  else if L.get (Reg.FC_BR_STAT_STATE b) = 0 && !L.heldOff b then (L.set (Reg.FC_BR_CTRL_REQ b) 3).setBrState b 4
  else L.fcRefused

/-- DIRECT written to FC_BR_CTRL[b].REQ. -/
def execBrReqDirect (x : LaneId) (b : Fin 2) (s : State) : Out := onUp x (fun L => L.directReq b) s

/-- When a bridge has waited TMO ms in MEASURE (R253). -/
def Lane.catchDue (L : Lane) (b : Nat) : Option Nat :=
  if L.get (Reg.FC_BR_STAT_STATE b) = 1 then some ((L.br b).waitSince + L.get (Reg.FC_CATCH_CFG_TMO b) * msTicks) else none

/-- XF's own request of rejoin stage 3 (R708): a bridge in OFF that nothing holds off and that has not set DRIVE_OK in this stage; none
in PARK. -/
def Lane.rejoinCatch (L : Lane) (b : Nat) : Lane := if L.stage = 3 && !L.xf.okSeen.get b then L.catchReq b else L

/-- A bridge's wait in MEASURE times out (R253); the condition becoming true in the same instant prevails (Table 5.6). In rejoin stage
3 XF requests the bridge again (R708). -/
def execCatchTimeout (x : LaneId) (b : Fin 2) (s : State) : Out :=
  atDue x (fun L => L.catchDue b) (fun L =>
    if L.aqValid b && (L.aqSqual b || L.aqStill b) then L
    else (((L.toOff b).set (Reg.FC_BR_STAT_CTMO b) 1).raise 51 b).rejoinCatch b) s

/-- The bridge's ZERO periods are served (R257, R258): RUN, DRIVE_OK, and the ramp armed outside a service-class mode after a preload
above LIMIT. A short sequence that runs prevails (Table 5.6); with the gate supply low DRIVE_OK waits for it (log entry 164). -/
def execZeroEnd (x : LaneId) (b : Fin 2) (s : State) : Out :=
  onUp x (fun L =>
    if L.get (Reg.FC_BR_STAT_STATE b) = 2 && (L.br b).zeroLeft = 0 && (L.gd.short.get b).isNone then
      let ramp := (L.br b).aboveLimit && !isService L.mode && L.get (Reg.FC_CATCH_CFG_RAMP b) ≠ 0
      let L1 := (L.setBool (Reg.FC_BR_STAT_DRIVE_OK b) (!L.bit Reg.GD_STAT_VGD_UV)).setBool (Reg.FC_BR_STAT_RAMP b) ramp
      let L2 := L1.setBr b { L1.br b with rampAt := none }
      { L2 with xf := { L2.xf with driveAt := some (L2.xf.driveAt.getD L2.now), okSeen := L2.xf.okSeen.set b true } }.setBrState b 3
    else L) s

/-- When the lock timer reaches TIME ms (R267). -/
def Lane.lockDue (L : Lane) (b : Nat) : Option Nat :=
  if L.bit (Reg.FC_BR_STAT_LOCKED b) then none else (L.br b).lockAt.map (· + L.get (Reg.FC_LOCK_TIME_TIME b) * msTicks)

/-- A locked rotor (R267); the end-stop bit, or a share no longer above TQ, restarts the timer instead (R268). -/
def execLockedRotor (x : LaneId) (b : Fin 2) (s : State) : Out :=
  atDue x (fun L => L.lockDue b) (fun L =>
    if L.endStop b || !L.aboveTq b then L.lockRestart b
    else (((L.set (Reg.FC_BR_STAT_LOCKED b) 1).count (Reg.FC_CNT_LOCK_COUNT b)).event 186).raise 53 b) s

/-! ### Pulses and windows (R228 to R232, R240) -/

/-- The length and start of a pulse, in subticks (R228, R232). -/
def pulseOf (l minp : Nat) (d : Int) : Pulse :=
  let n := (roundDiv (d * (16 * l : Nat)) (2 ^ 30)).toNat
  if n < 16 * minp then ⟨0, 0⟩ else ⟨(16 * l - n) / 2, n⟩

/-- From the turn-on of a low side to the end of its interval, and from the start of an interval to the turn-off, in subticks; below 0 where
the edge falls into the neighbouring interval. A low side without a pulse stays on through its interval. -/
def lowBefore (l dt : Nat) (p : Pulse) : Int := if p.len = 0 then 16 * l else (16 * l : Int) - p.start - p.len - 16 * dt
def lowAfter (l dt : Nat) (p : Pulse) : Int := if p.len = 0 then 16 * l else (p.start : Int) - 16 * dt

/-- How long a low side has been on at the end of an interval, and stays on from the start of one, in subticks (R240). -/
def wBefore (l dt : Nat) (p : Pulse) : Nat := (lowBefore l dt p).toNat
def wAfter (l dt : Nat) (p : Pulse) : Nat := (lowAfter l dt p).toNat

/-- The low-side on-time around an instant: none where it would be shorter than MINP (R232). -/
def lowSide (l dt minp : Nat) (p q : Pulse) : Nat × Nat :=
  if lowBefore l dt p + lowAfter l dt q < 16 * minp then (0, 0) else (wBefore l dt p, wAfter l dt q)

def Lane.pulsesOf (L : Lane) (b : Nat) (ds : List Int) : List Pulse :=
  ds.map (pulseOf (L.interval b) (L.get (Reg.FC_BR_CFG_MINP b)))

/-- The phases measured at an instant (R241): bit `i` for phase `i`. -/
def Lane.measured (L : Lane) (b : Nat) (before after : List Pulse) : Nat :=
  (List.range 3).foldl (fun m i =>
    match before[i]?, after[i]? with
    | some p, some q =>
      let w := lowSide (L.interval b) (L.get (Reg.FC_BR_CFG_DT b)) (L.get (Reg.FC_BR_CFG_MINP b)) p q
      if 16 * L.get Reg.FC_SMP_CFG_WMIN ≤ 2 * min w.1 w.2 then setBit m i else m
    | _, _ => m) 0

/-- The two phases with the largest windows for duties on both sides (R247); of equal windows the lower phase (log entry 20). -/
def Lane.largest (L : Lane) (b : Nat) (ps : List Pulse) : List Nat :=
  let w (i : Nat) : Nat := match ps[i]? with
    | some p => min (wBefore (L.interval b) (L.get (Reg.FC_BR_CFG_DT b)) p) (wAfter (L.interval b) (L.get (Reg.FC_BR_CFG_DT b)) p)
    | none => 0
  let least := if w 0 < w 1 then (if w 0 < w 2 then 0 else 2) else if w 1 < w 2 then 1 else 2
  [0, 1, 2].filter (· ≠ least)

/-- A pulse moved for a forced window, toward the start of its interval before the instant or toward the end after it (R247), and, where
the edge of the interval is not enough, shortened (R248). -/
def forcePulse (l dt wmin : Nat) (before : Bool) (p : Pulse) : Pulse × Bool :=
  let need := 8 * wmin
  if p.len = 0 then (p, false)
  else
    let have_ := if before then wBefore l dt p else wAfter l dt p
    let exact_ : Int := if before then (16 * l : Int) - p.start - p.len - 16 * dt else (p.start : Int) - 16 * dt
    if need ≤ have_ then (p, false)
    else
      let k := ((need : Int) - exact_).toNat
      if before then
        if k ≤ p.start then ({ p with start := p.start - k }, false) else (⟨0, 16 * l - need - 16 * dt⟩, true)
      else if p.start + k + p.len ≤ 16 * l then ({ p with start := p.start + k }, false)
      else (⟨need + 16 * dt, 16 * l - need - 16 * dt⟩, true)

/-- The chosen phases' pulses forced: the pulses, the duties of shortened ones, and whether any was shortened. -/
def Lane.forcePulses (L : Lane) (b : Nat) (before : Bool) (chosen : List Nat) (ps : List Pulse) (ds : List Int) :
    List Pulse × List Int × Bool :=
  chosen.foldl (fun acc i =>
    match acc.1[i]? with
    | none => acc
    | some p =>
      let r := forcePulse (L.interval b) (L.get (Reg.FC_BR_CFG_DT b)) (L.get Reg.FC_SMP_CFG_WMIN) before p
      (acc.1.set i r.1, if r.2 then acc.2.1.set i (roundDiv ((r.1.len : Int) * 2 ^ 30) (16 * L.interval b)) else acc.2.1, acc.2.2 || r.2)) (ps, ds, false)

/-- A clamp of R248 counted and raised. -/
def Lane.forcedClamp (L : Lane) (b : Nat) (hit : Bool) : Lane :=
  if hit then (L.count (Reg.FC_CNT_CLAMP_COUNT b)).raise 50 b else L

/-! ### Sampling instants -/

/-- The status word's fixed part at an instant (Table 5.3). -/
def smpWord (pred forced clamp : Bool) (meas recon npred : Nat) (peak nopwm : Bool) (instant : Nat) : Nat :=
  b2n pred * 2 ^ 31 + b2n forced * 2 ^ 30 + b2n clamp * 2 ^ 29 + meas * 2 ^ 26 + recon * 2 ^ 23 + npred * 2 ^ 20 + b2n peak * 2 ^ 19 +
  b2n nopwm * 2 ^ 18 + instant % 2 ^ 16

/-- Duties clamped into 0 to 1.0 (R229). -/
def clampDuty (d : Int) : Int := clampI 0 one30 d

/-- The duties loaded at a loading point (R234, R235): those of the latest commit made 200 ns or more before it, with the clamp of R229; a later
commit waits for the next loading point. -/
def Lane.loadDuties (L : Lane) (b : Nat) : Lane :=
  let r := L.br b
  let pwm := L.get (Reg.FC_BR_STAT_STATE b) = 2 || L.get (Reg.FC_BR_STAT_STATE b) = 3
  match r.commits.find? fun c => decide (c.1 + 20 ≤ L.now) with
  | some (_, ds) =>
    let ds' := if pwm then ds.map clampDuty else []
    let L1 := L.setBr b { r with commits := r.commits.filter (fun c => decide (L.now < c.1 + 20)), duty := ds', base := ds' }
    if ds.any fun d => clampDuty d ≠ d then ((L1.set (Reg.FC_BR_STAT_DCLAMP b) 1).event 186).raise 49 b else L1
  | none => L.setBr b (if pwm then { r with duty := r.base } else { r with duty := [], base := [] })

/-- A sampling instant of bridge `b`, which is also its loading point: the new interval's pulses, the phases measured, the forcing of
a window, the status of the set to be written, and the count of ZERO periods. -/
def Lane.bridgeInstant (L : Lane) (b : Nat) (peak : Bool) (codes : List Nat) : Lane :=
  let L1 := L.loadDuties b
  let r := L1.br b
  let st := L1.get (Reg.FC_BR_STAT_STATE b)
  let pwm := st = 2 || st = 3
  let base := L1.pulsesOf b r.duty
  let inst := (r.instant + 1) % 2 ^ 32
  let common : FcBr := { r with
    dutyPrev := (L.br b).duty, instant := inst, sampled := codes.map (fun (c : Nat) => (c : Int)),
    measureAt := L.now, pulsePrev := r.pulse, zeroLeft := if st = 2 then r.zeroLeft - 1 else r.zeroLeft }
  if !pwm then
    L1.setBr b { common with pulse := [], nPred := 0, forcing := 0, chosen := [], status := smpWord false false false 7 0 0 peak true inst }
  else if r.forcing = 1 then
    let f := L1.forcePulses b false r.chosen base r.duty
    let meas := L1.measured b r.pulse f.1
    let n := countIf (bitAt meas) [0, 1, 2]
    let recon := if n = 2 then 7 - meas else 0
    let L2 := (L1.setBr b { common with
      pulse := f.1, duty := f.2.1, nPred := 0, forcing := 0, chosen := [],
      status := smpWord (n < 2) true (f.2.2 || r.aboveClamp) meas recon (b2n (n < 2)) peak false inst }).forcedClamp b f.2.2
    L2.count (Reg.FC_CNT_FORCE_COUNT b)
  else
    let meas := L1.measured b r.pulse base
    let n := countIf (bitAt meas) [0, 1, 2]
    if 2 ≤ n then
      L1.setBr b { common with pulse := base, nPred := 0, status := smpWord false false false meas (if n = 2 then 7 - meas else 0) 0 peak false inst }
    else
      let k := min 4 (r.nPred + 1)
      let w := smpWord true false false meas 0 k peak false inst
      if k = 4 then
        let ch := L1.largest b base
        let f := L1.forcePulses b true ch base r.duty
        (L1.setBr b { common with pulse := f.1, duty := f.2.1, nPred := 4, forcing := 1, chosen := ch, status := w, aboveClamp := f.2.2 }).forcedClamp b f.2.2
      else L1.setBr b { common with pulse := base, nPred := k, status := w }

/-- The codes of one instant taken into an offset calibration (R275): those of a bridge at its sampling instants, 64 of them. -/
def Lane.calInstant (L : Lane) (b : Nat) (codes : List Nat) : Lane :=
  if L.fc.calLeft.get b = 0 then L
  else
    { L with fc := { L.fc with
      calSum := (List.range 8).map fun i => nth L.fc.calSum i + if i / 4 = b then nth codes (i % 4) else 0
      calLeft := L.fc.calLeft.set b (L.fc.calLeft.get b - 1) } }

/-- The reference instant of the valleys at or after now, in subticks of LOCAL (R116). -/
def Lane.reference (L : Lane) : Int :=
  let c := L.carrierNow
  16 * ((L.now : Int) + ((c.2 : Int) - ((L.now : Int) + L.xf.off)) % ((max 1 c.1 * 2500 : Nat) : Int))

/-- A time carried on by whole carrier periods until it is not past, in subticks of LOCAL. -/
def Lane.notPast (L : Lane) (v : Int) : Int :=
  let p : Int := (max 1 L.carrierNow.1 * 40000 : Nat)
  let t : Int := 16 * (L.now : Int)
  if t ≤ v then v else v + p * ((t - v + p - 1) / p)

/-- The next valley and the next peak of the carrier, in subticks of LOCAL (R223). Before the lane's first valley the carrier is on its
reference. -/
def Lane.nextValley (L : Lane) : Int := if L.fc.valley.isSome then L.notPast L.fc.nextValley else L.reference
def Lane.nextPeak (L : Lane) : Int :=
  let half : Int := (max 1 L.carrierNow.1 * 20000 : Nat)
  match L.fc.valley with
  | some u => if L.fc.lastPeak then L.nextValley + half else L.notPast (u + half)
  | none => L.notPast (L.reference - half)

/-- The alignment error of a valley, in subticks: its ferry time less the nearest reference instant (R116). -/
def Lane.alignError (L : Lane) (v : Int) : Int :=
  let p : Int := (max 1 (L.get Reg.FC_CAR_DIV) * 40000 : Nat)
  let e := (v + 16 * L.xf.off - 16 * (L.get (Reg.FC_CAR_PHASE L.me) : Nat)) % p
  if p < 2 * e then e - p else e

/-- A valley: a carrier change takes effect (R224), the alignment error is measured (R116) and the next period's start moves toward the
reference: at once before DRIVE_OK, by at most 10 ns, 16 subticks, after it (R115; log entry 171). An error beyond ±20 ns (32 subticks) in
64 measurements in succession raises "carrier alignment" (R117). -/
def Lane.valley (L : Lane) : Lane :=
  let v := L.nextValley
  let err := L.alignError v
  let out := decide (32 < err.natAbs)
  let n := if out then min 64 (L.fc.misaligned + 1) else 0
  let driven := L.bit (Reg.FC_BR_STAT_DRIVE_OK 0) || L.bit (Reg.FC_BR_STAT_DRIVE_OK 1)
  let next := v + (max 1 (L.get Reg.FC_CAR_DIV) * 40000 : Nat) - (if driven then clampI (-16) 16 err else err)
  let L1 := { L with fc := { L.fc with alignErr := err, misaligned := n, carNext := none, valley := some v, nextValley := next }
                     xf := { L.xf with valleyBad := L.xf.valleyBad || out } }
  if n = 64 && L.fc.misaligned = 63 then L1.raise 3 else L1

/-- The next valley or peak of the carrier in force (R223), as the first LOCAL tick not before it; each instant comes once. -/
def Lane.instantDue (L : Lane) (peak : Bool) : Option Nat :=
  let t := ((if peak then L.nextPeak else L.nextValley) + 15) / 16
  let p : Int := (max 1 L.carrierNow.1 * 2500 : Nat)
  some (if t = L.now && L.fc.instAt = some L.now && L.fc.lastPeak = peak then t + p else t).toNat

/-- The raw codes of a bridge's channels shown, and range excursions (Tables 5.18 and 5.20). -/
def Lane.showRaw (L : Lane) (b : Nat) (codes : List Int) (instant : Nat) : Lane :=
  L.forEach (List.range 4) fun i L =>
    let ch := 4 * b + i
    let c := (codes.getD i 0).toNat
    let L1 := (L.set (Reg.AM_RAW_CODE ch) c).set (Reg.AM_RAW_INSTANT ch) instant
    if c = 0 || c = 4095 then L1.putBitOf Reg.AM_STAT_RANGE ch true else L1

/-- What bridge `b` takes of a valley or a peak with its codes: a sampling instant, with the sets in fusion then in force (R290). A peak of a
bridge in CENTRE is none (R227): its channels are converted (R237) and shown (log entry 172). -/
def Lane.instantOf (L : Lane) (b : Nat) (peak : Bool) (codes : List Nat) : Lane :=
  if peak && !L.bit (Reg.FC_BR_CFG_PAT b) then L.showRaw b (codes.map fun (c : Nat) => (c : Int)) ((L.br b).instant % 2 ^ 16)
  else ((L.setAct b { L.act b with instantSets := L.fusionMask b }).calInstant b codes).bridgeInstant b peak codes

/-- A valley or a peak (R237). -/
def execSamplingInstant (x : LaneId) (peak : Bool) (c0 c1 : List (BitVec 12)) (s : State) : Out :=
  atDue x (fun L => L.instantDue peak) (fun L =>
    let L0 := if peak then L else L.valley
    let L1 : Lane := { L0 with fc := { L0.fc with lastPeak := peak, instAt := some L0.now } }
    (L1.instantOf 0 peak (c0.map BitVec.toNat)).instantOf 1 peak (c1.map BitVec.toNat)) s

/-! ### The switch inputs that FC emits (R228, R231, R232, Table 5.4) -/

/-- The pulses of the interval after the next loading point, as the commits that load there and the forcing in progress give them now (R234,
R235, R247; log entry 173). -/
def Lane.nextPulses (L : Lane) (b : Nat) : List Pulse :=
  let r := L.br b
  let ds := (((r.commits.find? fun c => decide (c.1 + 20 ≤ r.measureAt + L.interval b)).map (·.2)).getD r.base).map clampDuty
  let base := L.pulsesOf b ds
  if r.forcing = 1 then (L.forcePulses b false r.chosen base ds).1
  else if r.nPred = 3 && countIf (bitAt (L.measured b r.pulse base)) [0, 1, 2] < 2 then (L.forcePulses b true (L.largest b base) base ds).1
  else base

/-- The times at which phase `i`'s low side is off for a high-side pulse, DT before it to DT after it, of the interval before, the present
one and the next, in subticks after the last loading point (R231). -/
def Lane.lowOffs (L : Lane) (b i : Nat) (p : Pulse) : List (Int × Int) :=
  let l : Int := (16 * L.interval b : Nat)
  let dt : Int := (16 * L.get (Reg.FC_BR_CFG_DT b) : Nat)
  let off (o : Int) (q : Pulse) : List (Int × Int) := if q.len = 0 then [] else [(o + q.start - dt, o + q.start + q.len + dt)]
  off (-l) ((L.br b).pulsePrev.getD i {}) ++ off 0 p ++ off l ((L.nextPulses b).getD i {})

/-- Whether FC wants a switch of phase `i` on, `t` subticks after the last loading point: the high side during its pulse; the low side outside
the times of R231, but for an on-interval shorter than MINP (R232). -/
def Lane.fcWants (L : Lane) (b i : Nat) (high : Bool) (p : Pulse) (t : Nat) : Bool :=
  if high then decide (p.start ≤ t && t < p.start + p.len)
  else
    let l : Int := (16 * L.interval b : Nat)
    let offs := L.lowOffs b i p
    let fall := (offs.map (·.1)).foldl (fun m s => if (t : Int) < s then min m s else m) (2 * l)
    let rise := (offs.map (·.2)).foldl (fun m e => if e ≤ (t : Int) then max m e else m) (-l)
    !(offs.any fun o => decide (o.1 ≤ (t : Int)) && decide ((t : Int) < o.2)) &&
      decide (((16 * L.get (Reg.FC_BR_CFG_MINP b) : Nat) : Int) ≤ fall - rise)

/-- When FC next emits an edge of a switch input in this interval, as a LOCAL tick: only in ZERO and RUN, from the first loading point on. -/
def Lane.fcEdge (L : Lane) (b i : Nat) (high on : Bool) (inp : Bool) : Option Nat :=
  let r := L.br b
  let st := L.get (Reg.FC_BR_STAT_STATE b)
  if (st ≠ 2 && st ≠ 3) || inp = on then none
  else match r.pulse[i]? with
    | none => none
    | some p =>
      let el := 16 * (L.now - r.measureAt)
      let fits (t : Nat) : Bool := el ≤ t && decide (t < 16 * L.interval b) && L.fcWants b i high p t = on
      let at_ := if high then [p.start, p.start + p.len] else (L.lowOffs b i p).flatMap fun o => [o.1.toNat, o.2.toNat]
      (((el :: at_).filter fits).foldl (fun best t =>
        match best with | none => some t | some u => some (min t u)) none).map fun t => r.measureAt + (t + 15) / 16

/-! ### Sample sets -/

/-- A code converted to Q1.30 (R239). -/
def Lane.amValue (L : Lane) (ch : Nat) (c : Int) : Int :=
  satW 32 ((c - L.get (Reg.AM_CAL_OFFSET ch)) * L.get (Reg.AM_CAL_GAIN ch) * 32)

/-- The predicted currents (R244) from the previous set, this instant's VDC and angle, the interval's duties and the latest speed; each
component of the vector carries a free offset within the bound of R245, and a free value beyond that bound's condition. -/
def Lane.predict (L : Lane) (b : Nat) (vdc : Int) (ang : Nat) (spd : Int) (free : Nat × Nat) : List Int :=
  let r := L.br b
  let d (i : Nat) : Int := r.dutyPrev.getD i 0
  let iq (i : Nat) : Int := r.prevI.getD i 0
  let g := sgn 32 (L.get (Reg.FC_PRED_G_VALUE b))
  let gr := sgn 32 (L.get (Reg.FC_PRED_GR_VALUE b))
  let psi := sgn 32 (L.get (Reg.FC_PRED_PSI_VALUE b))
  let s3 : Int := sqrt3
  let v2 := vdc + r.prevVdc
  let va := v2 * (3 * d 0 - (d 0 + d 1 + d 2)) / 6
  let vb := v2 * (d 1 - d 2) * 2 ^ 127 / s3
  let th := (2 * (r.prevAng : Int) + sgn 16 (uns 16 ((ang : Int) - r.prevAng))) % 131072
  let sn := sinHalf th.toNat
  let cs := sinHalf (th.toNat + 32768)
  let ea := -(spd * psi * sn) / 2 ^ 27
  let eb := spd * psi * cs / 2 ^ 27
  let ia0 := (2 * iq 0 - iq 1 - iq 2) * 2 ^ 30 / 3
  let ib0 := (iq 1 - iq 2) * 2 ^ 158 / s3
  let step (i0 v e : Int) : Int := i0 + g * (v - e) / 2 ^ 27 - gr * i0 / 2 ^ 27
  let bounded := decide ((spd * psi).natAbs ≤ 2 ^ 57)
  let off (f : Nat) : Int := if bounded then ((f % 2801 : Nat) : Int) - 1400 else sgn 32 f
  let ia := step ia0 va ea / 2 ^ 30 + off free.1
  let ib := step ib0 vb eb / 2 ^ 30 + off free.2
  let h := ib * s3 / 2 ^ 129
  [satW 32 ia, satW 32 (-ia / 2 + h), satW 32 (-ia / 2 - h)]

/-- The DC-link ceiling (R264): raised once for each entry. -/
def Lane.ceiling (L : Lane) (b : Nat) (vdc : Int) : Lane :=
  let hit := decide (L.getI (Reg.FC_REGEN_CFG_V_CEIL b) * 65536 ≤ vdc)
  let L1 := L.setBr b { L.br b with ceil := hit }
  if hit && !(L.br b).ceil then ((L1.set (Reg.FC_BR_STAT_CEIL b) 1).event 186).raise 52 b else L1

/-- When the conversion of sample set `b` ends (Table 5.2): 450 ns and 650 ns after the instant. -/
def Lane.setDue (L : Lane) (b : Nat) : Option Nat :=
  if (L.br b).sampled.isEmpty then none else some ((L.br b).measureAt + if b = 0 then 45 else 65)

/-- Sample set `b` is written and its ready event occurs (R238, R242, R243, R294, R306). -/
def Lane.sampleSet (L : Lane) (b : Nat) : Lane :=
  let r := L.br b
  let cur (i : Nat) : Int := L.amValue (4 * b + i) (r.sampled.getD i 0)
  let vdc := L.amValue (4 * b + 3) (r.sampled.getD 3 0)
  let meas := bitsOf r.status 28 26
  let n := countIf (bitAt meas) [0, 1, 2]
  let o := L.obsForSet b
  let t := L.ferryAt r.measureAt
  let ang := L.angWord b o.1 t
  let spd := L.spdWord b o.1 t
  let f1 := L.takeFree
  let f2 := f1.2.takeFree
  let Lf := if n < 2 then f2.2.count (Reg.FC_CNT_PRED_COUNT b) else L
  let is : List Int :=
    if n = 3 then [cur 0, cur 1, cur 2]
    else if n = 2 then (List.range 3).map fun i =>
      if bitAt meas i then cur i
      else satW 32 (-(((List.range 3).filter (· ≠ i)).foldl (fun a k => a + cur k) 0))
    else L.predict b vdc ang spd (f1.1, f2.1)
  let L1 := (Lf.showRaw b r.sampled (r.instant % 2 ^ 16)).setSigs (sampleBase b) (is.map (uns 32) ++ [uns 32 vdc, r.status])
  let L2 := L1.setSigs (angleBase b) [ang, uns 32 spd, L.aqOf b o.1 o.2 (L.act b).instantSets]
  let L3 := L2.setAct b { L2.act b with 
    late := (L2.act b).before.any (fun p => p.1 = L.now) && (L2.act b).tickEdges.any (fun u => decide (u < t)), lastInstant := t }
  let L4 := L3.setBr b { L3.br b with prevVdc := vdc, prevAng := ang, prevI := is, sampled := [] }
  ((((L4.ceiling b vdc).showAf b).lockCheck b).esWatch L).ready b

/-- The conversion of a sample set ends. -/
def execSampleSetReady (x : LaneId) (b : Fin 2) (s : State) : Out :=
  atDue x (fun L => L.setDue b) (fun L => L.sampleSet b) s

/-! ### Offset calibration (R275) -/

/-- A write of 1 to AM_CTRL.CAL: accepted only with both bridges in OFF. -/
def Lane.calRequest (L : Lane) : Lane :=
  if L.bothOff then
    if L.bit Reg.AM_CTRL_CAL then L
    else { L.set Reg.AM_CTRL_CAL 1 with fc := { L.fc with calSum := [], calLeft := ⟨64, 64⟩ } }
  else (L.set Reg.AM_STAT_CAL_REFUSED 1).fcRefused

/-- CAL written 1 to AM_CTRL. -/
def execAmCal (x : LaneId) (s : State) : Out := onUp x Lane.calRequest s

/-- The 64 sampling instants are over: each current channel's OFFSET takes its average. -/
def execAmCalEnd (x : LaneId) (s : State) : Out :=
  onUp x (fun L =>
    if L.bit Reg.AM_CTRL_CAL && L.fc.calLeft = ⟨0, 0⟩ then
      let L1 := L.forEach [0, 1, 2, 4, 5, 6] fun ch L => L.setI (Reg.AM_CAL_OFFSET ch) (roundDiv (nth L.fc.calSum ch) 64)
      { L1.set Reg.AM_CTRL_CAL 0 with fc := { L1.fc with calSum := [] } }.event 187
    else L) s

/-- A landed share taken as the received share of bridge `b` (R50). -/
def Lane.receiveShare (L : Lane) (b : Nat) (v : Int) : Lane := (L.setBr b { L.br b with received := v }).lockCheck b

end Sys2Proof.Machine
end

