-- ==== Sys2Proof/Machine/Rs.lean ====
section
/-! DEFINITION. The record store (15_power_thermal_test.md R659 to R664): records in their banks, and the writes that RS makes. -/

namespace Sys2Proof.Machine

/-! ### Banks -/

/-- The fixed records of Table 15.7 as (type, first slot, slots). -/
def fixedRecords : List (Nat × Nat × Nat) := [(1, 0, 2), (2, 2, 1), (3, 3, 1), (4, 4, 1), (5, 5, 1), (6, 6, 1), (7, 8, 17), (8, 25, 3)]

/-- Word `i` of bank `k` of slot `n` (R659). -/
def Lane.bankWord (L : Lane) (n k i : Nat) : Nat := spGet 0 (0x8000 * k + 0x200 * n + i) L.rs.store
def Lane.setBankWord (L : Lane) (n k i v : Nat) : Lane := { L with rs := { L.rs with store := spSet 0 (0x8000 * k + 0x200 * n + i) v L.rs.store } }

/-- The words of a record bank before its CRC word: header and payload (Table 15.8). -/
def recordLen (len : Nat) : Nat := 4 + (len + 3) / 4
def Lane.bankList (L : Lane) (n k : Nat) : List Nat := (List.range (recordLen (L.bankWord n k 2))).map (L.bankWord n k)

/-- The bytes of words in memory order, and the CRC word of a record (log entry 27). -/
def leBytes (l : List Nat) : List Byte := l.flatMap fun w => (beBytes 4 w).reverse
def recordCrc (l : List Nat) : Nat := crc32c (leBytes l)

/-- The identity word that a record's first slot asks for: TYPE and SLOTS of Table 15.7; a firmware record brings its own
(16 to 255, within the slots 28 to 63). -/
def identityOk (n w0 : Nat) : Bool :=
  let type := bitsOf w0 31 24
  let slots := bitsOf w0 15 8
  bitsOf w0 23 16 = n && bitsOf w0 7 1 = 0 &&
  (match fixedRecords.find? fun r => r.2.1 = n with
   | some r => type = r.1 && slots = r.2.2
   | none => decide (28 ≤ n ∧ 16 ≤ type ∧ 1 ≤ slots ∧ n + slots ≤ 64))

/-- Whether a bank qualifies (R661): identity, length and CRC. -/
def Lane.bankOk (L : Lane) (n k : Nat) : Bool :=
  let w0 := L.bankWord n k 0
  let len := L.bankWord n k 2
  identityOk n w0 && decide (4 * (recordLen len + 1) ≤ bitsOf w0 15 8 * 2048) &&
  L.bankWord n k (recordLen len) = recordCrc (L.bankList n k)

/-- The bank that is read (R661). -/
def Lane.chosenBank (L : Lane) (n : Nat) : Option Nat :=
  match L.bankOk n 0, L.bankOk n 1 with
  | false, false => none
  | true, false => some 0
  | false, true => some 1
  | true, true =>
    let d := (L.bankWord n 1 1 + 2 ^ 32 - L.bankWord n 0 1) % 2 ^ 32
    if 1 ≤ d ∧ d < 2 ^ 31 then some 1 else some 0

/-- The payload words of a record, where a bank qualifies. -/
def Lane.recordWords (L : Lane) (n : Nat) : Option (List Nat) := (L.chosenBank n).map fun k => (L.bankList n k).drop 4

/-- RS_SLOT of a record's first slot (Table 15.14). -/
def Lane.showSlot (L : Lane) (n : Nat) : Lane :=
  let L1 := L.set (Reg.RS_SLOT_VALID n) (b2n (L.bankOk n 0) + 2 * b2n (L.bankOk n 1))
  let k := (L.chosenBank n).getD 0
  (L1.set (Reg.RS_SLOT_CHOSEN n) k).set (Reg.RS_SLOT_SEQ n) (if (L.chosenBank n).isSome then L.bankWord n k 1 else 0)

/-- A bank found invalid: counted, raised, event 166. -/
def Lane.bankInvalid (L : Lane) : Lane := ((L.count Reg.RS_CNT_INVALID_COUNT).raise 156).event 166

/-- A record read (R661): each bank that fails is raised; where neither qualifies the record is lost. -/
def Lane.readRecord (L : Lane) (n : Nat) : Lane :=
  let L1 := L.forEach [0, 1] fun k M => if L.bankOk n k then M else M.bankInvalid
  (if (L.chosenBank n).isNone then L1.raise 157 else L1).showSlot n

/-! ### Writing (R662) -/

def Lane.rsPend (L : Lane) (n : Nat) : Option RsPend := spGet none n L.rs.pend
def Lane.setRsPend (L : Lane) (n : Nat) (p : Option RsPend) : Lane :=
  let L1 : Lane := { L with rs := { L.rs with pend := spSet none n p L.rs.pend } }
  L1.set (Reg.RS_SLOT_PEND n) (b2n p.isSome)

def Lane.nvOpen (L : Lane) : Bool := L.bit Reg.TM_STAT_NVOPEN

/-- The record's words as they will stand: SEQ one more than that of the bank in force, or 1; and the CRC. -/
def Lane.buildRecord (L : Lane) (n : Nat) (image : List Nat) : List Nat :=
  let seq := match L.chosenBank n with
    | none => 1
    | some k => (L.bankWord n k 1 + 1) % 2 ^ 32
  let l := listPut 0 seq 1 image
  l ++ [recordCrc l]

/-- A write begins: word 0 of the bank not in force is cleared (step 1). -/
def Lane.beginWrite (L : Lane) (n : Nat) (p : RsPend) : Lane :=
  let k := match L.chosenBank n with
    | some 0 => 1
    | _ => 0
  let L1 := ((L.setRsPend n none).setBankWord n k 0 0).set (Reg.RS_SLOT_PEND n) 1
  let L2 : Lane := { L1 with rs := { L1.rs with writing := some ⟨n, k, L.buildRecord n p.image, false, p.op⟩ } }
  ((L2.set Reg.RS_STAT_BUSY 1).set Reg.RS_STAT_SLOT n).set Reg.RS_STAT_WAITNV 0

/-- RS takes up the pending write of the lowest slot, where none is in progress and the window is open (R650, R664). -/
def Lane.serveWrites (L : Lane) : Lane :=
  if L.rs.writing.isSome then L
  else match L.rs.pend with
    | [] => L.set Reg.RS_STAT_WAITNV 0
    | (n, some p) :: _ => if L.nvOpen then L.beginWrite n p else L.set Reg.RS_STAT_WAITNV 1
    | (_, none) :: _ => L

/-- A write requested: it replaces an earlier request of the same record; a closed window defers it (R650). -/
def Lane.requestWrite (L : Lane) (n : Nat) (image : List Nat) (op : Option Nat) : Lane :=
  let L1 := L.setRsPend n (some ⟨image, op⟩)
  if L1.nvOpen then L1.serveWrites else ((L1.serveWrites).raise 146).event 165

/-- Whether a write of a record is pending or in progress. -/
def Lane.recordBusy (L : Lane) (n : Nat) : Bool := (L.rsPend n).isSome || L.rs.writing.any fun w => w.slot = n

/-- The write in progress is over; the next one follows. -/
def Lane.endWrite (L : Lane) (n : Nat) : Lane :=
  let L1 : Lane := { L with rs := { L.rs with writing := none } }
  let L2 := (L1.set Reg.RS_STAT_BUSY 0).set (Reg.RS_SLOT_PEND n) (b2n (L1.rsPend n).isSome)
  (L2.showSlot n).serveWrites

/-- The window closes: the write stops with the older bank in force and waits (R650). -/
def Lane.suspendWrite (L : Lane) : Lane :=
  match L.rs.writing with
  | none => L.serveWrites
  | some w =>
    let p : RsPend := (L.rsPend w.slot).getD ⟨w.image.dropLast, w.op⟩
    let L1 : Lane := { L with rs := { L.rs with writing := none } }
    (((L1.set Reg.RS_STAT_BUSY 0).setRsPend w.slot (some p)).serveWrites.raise 146).event 165

/-- TALLY reports of the sources that changed in a committed snapshot, in ascending order, up to 31 pairs each (R619). -/
def Lane.tallyReports (L : Lane) (image : List Nat) : Lane :=
  let srcs := (List.range 192).filter fun s => L.fm.reported.contains s
  let L1 : Lane := { L with fm := { L.fm with reported := [] } }
  L1.forEach (List.range ((srcs.length + 30) / 31)) fun i L =>
    L.reportSubscribed Reg.HL_RPT_CFG_TALLY 0x0B (((srcs.drop (31 * i)).take 31).flatMap fun s => [s, nth image (4 + s)])

/-- What follows the commit of a record that a block requested: the reports of the tallies, the thermal record's PEND. -/
def Lane.afterCommit (L : Lane) (n : Nat) (image : List Nat) : Lane :=
  if n = 5 then L.tallyReports image else if n = 4 then L.set Reg.TM_SHUT_PEND 0 else L

/-- Words stored from the first word of a bank. -/
def Lane.putBank (L : Lane) (n k : Nat) (l : List Nat) : Lane :=
  L.forEach (List.range l.length) fun i L => L.setBankWord n k i (nth l i)

/-- The read-back check ends (R662): the commit point, or one repetition, or a failed write. -/
def Lane.writeChecked (L : Lane) (ok : Bool) : Lane :=
  match L.rs.writing with
  | none => L
  | some w =>
    if ok then
      let L1 := ((L.putBank w.slot w.bank w.image).count Reg.RS_CNT_WRITE_COUNT).event 164
      ((L1.endOp? w.op true 0 none).endWrite w.slot).afterCommit w.slot w.image
    else if !w.repeated then { L with rs := { L.rs with writing := some { w with repeated := true } } }
    else (((L.endOp? w.op true 3 none).bankInvalid).event 165).endWrite w.slot

/-- RECORD_WRITE_COMMIT (R662). -/
def execRecordWriteCommit (x : LaneId) (ok : Bool) (s : State) : Out := onAwake x (fun L => L.writeChecked ok) s

/-- The abort of a record write (R663): accepted while the write waits or runs; else it is complete already. -/
def Lane.abortWriteCode (L : Lane) (n : Nat) : Nat := if L.recordBusy n then 0x00 else 0x0C

def Lane.abortWrite (L : Lane) (n : Nat) : Lane :=
  match L.rsPend n, L.rs.writing with
  | some p, _ => ((L.setRsPend n none).set (Reg.RS_SLOT_PEND n) (b2n (L.rs.writing.any fun w => w.slot = n))).endOp? p.op false 0 none |>.serveWrites
  | none, some w => if w.slot = n then (L.endOp? w.op false 0 none).endWrite n else L
  | none, none => L

/-- RECORD_WRITE_ABORT (R663). -/
def execRecordWriteAbort (x : LaneId) (slot : Fin 64) (s : State) : Out :=
  onUp x (fun L => ((L.abortWrite slot).set Reg.RS_CMD_SLOT slot).set Reg.RS_CMD_RESULT (L.abortWriteCode slot)) s

/-- The image staged in SRAM: header and payload words (R664). -/
def stagedImage (m : Mem) (a : Nat) : List Nat :=
  (List.range (recordLen (m.word (a + 8)))).map fun i => m.word (a + 4 * i)

/-- The code of a RECORD request (R664): BAD_ARG for slot 7, for the slots of TYPE 3 to 6, for a slot that begins no record, and for
an image beyond its slots (R660); BUSY while a write of the record is pending. -/
def Lane.recordCode (L : Lane) (n w0 len : Nat) : Nat :=
  let slots := match fixedRecords.find? fun r => r.2.1 = n with
    | some r => r.2.2
    | none => bitsOf w0 15 8
  if decide (3 ≤ n ∧ n ≤ 7) || !((fixedRecords.any fun r => r.2.1 = n) || decide (28 ≤ n ∧ n < 64)) ||
      decide (slots * 2048 < 4 * (recordLen len + 1)) || decide (64 < n + slots) then 0x11
  else if L.recordBusy n then 0x16 else 0x00

/-- The address in RS_STAGE. -/
def Lane.stageAddr (L : Lane) : Nat := 4 * L.get Reg.RS_STAGE_ADDR

/-- A RECORD request as it meets the staged image: its code, and the lane with an accepted write requested. -/
def Lane.record (L : Lane) (m : Mem) (n : Nat) (op : Option Nat) : Lane :=
  if L.recordCode n (m.word L.stageAddr) (m.word (L.stageAddr + 8)) = 0 then L.requestWrite n (stagedImage m L.stageAddr) op else L

/-- RECORD_WRITE_REQUEST (R664). -/
def execRecordWriteRequest (x : LaneId) (slot : Fin 64) (s : State) : Out :=
  let m := s.memOf x
  onUp x (fun L => ((L.record m slot none).set Reg.RS_CMD_SLOT slot).set Reg.RS_CMD_RESULT
    (L.recordCode slot (m.word L.stageAddr) (m.word (L.stageAddr + 8)))) s

/-! ### The records of other blocks -/

/-- The header of a record that a block writes; its format number is 0 (log entry 28). -/
def blockHeader (type slot clean len : Nat) : List Nat := [type * 2 ^ 24 + slot * 2 ^ 16 + 2 ^ 8 + clean, 0, len, 0]

/-- The tally record, without the events of some sources, and the recovery-counter record (R570), CLEAN as given (R571). -/
def Lane.tallyImage (L : Lane) (clean : Nat) (without : List Nat) : List Nat :=
  blockHeader 5 5 clean 768 ++ (List.range 192).map fun s =>
    (L.get (Reg.FM_TALLY_TALLY s) + 2 ^ 32 - countIf (fun t => decide (t = s)) without) % 2 ^ 32
def Lane.recImage (L : Lane) (clean : Nat) : List Nat :=
  blockHeader 6 6 clean 768 ++ (List.range 192).map fun s => L.get (Reg.FM_REC_REC s)

/-- Both records requested (R570, R571), for the sources that changed; `without` as in the tally record. -/
def Lane.commitTallies (L : Lane) (clean : Nat) (without : List Nat) : Lane :=
  let L1 : Lane := { L with fm := { L.fm with reported := L.fm.changed ++ L.fm.reported, changed := [], recChanged := false } }
  (L1.requestWrite 5 (L1.tallyImage clean without) none).requestWrite 6 (L1.recImage clean) none

/-- Whether an entry into OFF has committed both records: no other commit replaces them before its end (R571). -/
def Lane.offRecorded (L : Lane) : Bool := L.bit Reg.PM_STAT_ENTERING && L.get Reg.PM_STAT_TARGET = 4 && 3 ≤ L.pm.passed

/-- The snapshot at the start of a watch in which a tally or a recovery counter changed (R570). The events of this very tick go into the next
commit (Table 13.5). -/
def Lane.snapshotTallies (L : Lane) : Lane :=
  let L1 := L.foldTallied
  if (L1.fm.changed.isEmpty && !L1.fm.recChanged) || L1.offRecorded then L1 else L1.commitTallies 0 L1.fm.tallied

/-- The commit of an entry into OFF, with every event so far and CLEAN set (R571), or of one that was abandoned, with CLEAN clear. -/
def Lane.commitAll (L : Lane) (clean : Nat) : Lane :=
  let fm := { L.foldTallied.fm with changed := L.foldTallied.fm.tallied ++ L.foldTallied.fm.changed, tallied := [] }
  Lane.commitTallies { L with fm := fm } clean []

/-- The thermal record of a shutdown (R651), and the repair map (R655). -/
def Lane.commitThermal (L : Lane) : Lane :=
  L.requestWrite 4 (blockHeader 4 4 0 4 ++ [L.get Reg.TM_SHUT_PEND * 2 ^ 31 + L.get Reg.TM_SHUT_TJ * 2 ^ 16 + L.get Reg.TM_SHUT_TIME]) none
def Lane.commitRepair (L : Lane) : Lane := L.requestWrite 3 (blockHeader 3 3 0 (4 * L.st.repair.length) ++ L.st.repair) none

/-- The tallies and recovery counters as FM loads them at power-on reset (R572, R661); events of the load itself add to them. -/
def Lane.loadTallies (L : Lane) : Lane :=
  let L1 := L.readRecord 5
  let L2 := L1.readRecord 6
  let unsaved := match L.chosenBank 5 with
    | none => true
    | some k => !bitAt (L.bankWord 5 k 0) 0
  let t := (L.recordWords 5).getD []
  let r := (L.recordWords 6).getD []
  let L3 := L2.forEach (List.range 192) fun s M =>
    let n := nth t s + M.get (Reg.FM_TALLY_TALLY s)
    let M1 := if 2 ^ 32 ≤ n then M.set (Reg.FM_REC_TWRAP s) 1 else M
    (M1.set (Reg.FM_TALLY_TALLY s) (n % 2 ^ 32)).set (Reg.FM_REC_REC s) (nth r s % 2 ^ 8)
  L3.setBool Reg.FM_STAT_UNSAVED (unsaved || (L.recordWords 6).isNone)

end Sys2Proof.Machine
end

