-- ==== Sys2Proof/Machine/Tb.lean ====
section
/-! DEFINITION. Network time (11_network_time.md): domains (R492, R497 to R499), peer delay (R495), vehicle time (R493, R500 to R502),
comparators and reads (R505, R506). Times are in units of 2^-16 ns; a tick of LOCAL is 655,360 of them. -/

namespace Sys2Proof.Machine

def tickUnits : Int := 655360

/-- 1 in the units of a rate ratio, 2^-41. -/
def rateOne : Int := 2 ^ 41

/-- A base's time at a LOCAL tick. -/
def NetBase.read (n : NetBase) (t : Nat) : Int :=
  n.val + ((t : Int) - n.at_) * tickUnits * (rateOne + n.rate) / rateOne

/-- The first LOCAL tick at which a base reaches a time. -/
def NetBase.reaches (n : NetBase) (x : Int) : Nat :=
  ((n.at_ : Int) - (-((x - n.val) * rateOne)) / (tickUnits * (rateOne + n.rate))).toNat

def Lane.dom (L : Lane) (d : Nat) : Dom := L.tb.dom.get d
def Lane.setDom (L : Lane) (d : Nat) (m : Dom) : Lane := { L with tb := { L.tb with dom := L.tb.dom.set d m } }
def Lane.port (L : Lane) (p : Nat) : TbPort := L.tb.port.get p
def Lane.setPort (L : Lane) (p : Nat) (m : TbPort) : Lane := { L with tb := { L.tb with port := L.tb.port.set p m } }

/-- LOCAL in units. -/
def Lane.nowUnits (L : Lane) : Int := (L.now : Int) * tickUnits

/-! ### Vehicle time -/

/-- Vehicle time at a LOCAL tick: in holdover its own line; while slewing its own line, which never passes the followed domain's; else
the followed domain's (R493, R500, R501). -/
def Lane.vehAt (L : Lane) (t : Nat) : Int :=
  let d := (L.dom (L.get Reg.TB_STAT_SRC)).base
  if !L.bit Reg.TB_STAT_VALID then 0
  else if L.bit Reg.TB_STAT_HOLD then L.tb.veh.read t
  else if L.bit Reg.TB_STAT_SLEWING then
    if L.tb.veh.rate < d.rate then max (L.tb.veh.read t) (d.read t) else min (L.tb.veh.read t) (d.read t)
  else d.read t

def Lane.vehNow (L : Lane) : Int := L.vehAt L.now

/-- Vehicle time in ns and in µs, truncated. -/
def Lane.vehNs (L : Lane) : Nat := (L.vehNow / 65536).toNat
def Lane.vehUs (L : Lane) : Nat := L.vehNs / 1000

/-- SLEW ppm in units of a rate ratio. -/
def Lane.slewRate (L : Lane) : Int := (L.get Reg.TB_CTRL_SLEW : Int) * rateOne / 1000000

/-- Vehicle time goes on from `v` toward domain `d`'s time (R501). -/
def Lane.slewFrom (L : Lane) (d : Nat) (v : Int) : Lane :=
  let b := (L.dom d).base
  let diff := v - b.read L.now
  if diff = 0 then (L.set Reg.TB_STAT_SLEWING 0).set Reg.TB_STAT_SRC d
  else
    let r := if 0 < diff then b.rate - L.slewRate else b.rate + L.slewRate
    let L1 := (L.set Reg.TB_STAT_SLEWING 1).set Reg.TB_STAT_SRC d
    { L1 with tb := { L1.tb with veh := ⟨L.now, v, r⟩ } }

def Lane.synced (L : Lane) (d : Nat) : Bool := L.get (Reg.TB_DOM_STAT_STATE d) = 2

/-- The domain to follow afresh: PRI while SYNCED, else the other while it is (R500). -/
def Lane.freshFollow (L : Lane) : Option Nat :=
  let p := L.get Reg.TB_CTRL_PRI
  if L.synced p then some p else if L.synced (1 - p) then some (1 - p) else none

/-- A change of the followed domain, counted and raised where it is one (R501). -/
def Lane.follow (L : Lane) (d : Nat) (v : Int) : Lane :=
  let L1 := if L.get Reg.TB_STAT_SRC = d then L else (L.count Reg.TB_CNT_SWITCH_COUNT).raise 124
  (L1.set Reg.TB_STAT_HOLD 0).slewFrom d v

/-- Vehicle time after the domains changed, `v` being its value just before (R493, R500, R501): valid by one step; kept on its domain
while that stays SYNCED; else the other domain, or holdover at the last rate. Where both domains end a holdover in one tick, the PRI domain is
followed (Table 11.3). -/
def Lane.settleVeh (L : Lane) (v : Int) (rate : Int) : Lane :=
  if !L.bit Reg.TB_STAT_VALID then
    match L.freshFollow with
    | none => L
    | some d => (((L.set Reg.TB_STAT_VALID 1).set Reg.TB_STAT_SRC d).set Reg.TB_STAT_HOLD 0).set Reg.TB_STAT_SLEWING 0
  else if !L.bit Reg.TB_STAT_HOLD && L.synced (L.get Reg.TB_STAT_SRC) then
    let p := L.get Reg.TB_CTRL_PRI
    if L.tb.resumedAt = some L.now && L.get Reg.TB_STAT_SRC ≠ p && L.synced p then L.follow p v
    else L.slewFrom (L.get Reg.TB_STAT_SRC) v
  else match L.freshFollow with
    | some d =>
      let L1 := L.follow d v
      if L.bit Reg.TB_STAT_HOLD then { L1 with tb := { L1.tb with resumedAt := some L.now } } else L1
    | none =>
      if L.bit Reg.TB_STAT_HOLD then L
      else
        let L1 := (L.set Reg.TB_STAT_HOLD 1).set Reg.TB_STAT_SLEWING 0
        ({ L1 with tb := { L1.tb with veh := ⟨L.now, v, rate⟩ } }).raise 123

/-- The rate vehicle time runs at. -/
def Lane.vehRate (L : Lane) : Int :=
  if L.bit Reg.TB_STAT_HOLD || L.bit Reg.TB_STAT_SLEWING then L.tb.veh.rate else (L.dom (L.get Reg.TB_STAT_SRC)).base.rate

/-- A change of the domains with vehicle time settled after it. -/
def Lane.domainChange (L : Lane) (f : Lane → Lane) : Lane := (f L).settleVeh L.vehNow L.vehRate

/-! ### Domains -/

def domStateFld (d : Nat) : Fld := if d = 0 then Reg.TB_STAT_D0_STATE else Reg.TB_STAT_D1_STATE

/-- A domain's state, in TB_DOM_STAT and TB_STAT. -/
def Lane.setDomState (L : Lane) (d st : Nat) : Lane := (L.set (Reg.TB_DOM_STAT_STATE d) st).set (domStateFld d) st

/-- An interval of 2^log s in ticks, for a signed 4-bit logarithm. -/
def logTicks (v : Nat) : Nat :=
  let n := sgn 4 v
  if 0 ≤ n then 100000000 * 2 ^ n.toNat else 100000000 / 2 ^ (-n).toNat

/-- A port's rate ratio, mean link delay and asymmetry, in rate units and 2^-16 ns. -/
def Lane.nrr (L : Lane) (p : Nat) : Int := rateOne + L.getI (Reg.TB_PORT_NRR_NRR p)
def Lane.mld (L : Lane) (p : Nat) : Int := (L.get (Reg.TB_PORT_STAT_MLD p) : Int) * 4096
def Lane.asym (L : Lane) (p : Nat) : Int := L.getI (Reg.TB_PORT_ASYM_ASYM p) * 4096

/-- A timestamp of R496: 625 ps of resolution, 40,960 units. -/
def stamp (t : Nat) : Nat := t / 40960 * 40960

/-- The ingress and egress corrections of R496. -/
def Lane.rxDly (L : Lane) (p : Nat) : Int := (L.get (Reg.TB_PORT_CFG_RXDLY p) : Int) * 4096
def Lane.txDly (L : Lane) (p : Nat) : Int := (L.get (Reg.TB_PORT_CFG_TXDLY p) : Int) * 4096

/-- rr of R497 as an offset from 1, rounded to the register's units. -/
def Lane.rrOf (L : Lane) (p : Nat) (m : SyncMsg) : Int := roundDiv ((rateOne + m.rr) * L.nrr p) (2 ^ 41) - rateOne

/-- corr_out of R497 for a Sync received on port `p` and leaving at `t` (times at the media interfaces): with up_tx put in, it is
corr_in + (t_tx − t_rx) rr + mld rr_in + asym, rounded once. -/
def Lane.corrOut (L : Lane) (p : Nat) (m : SyncMsg) (tRx tTx : Int) : Int :=
  roundDiv ((m.corr + L.asym p) * 2 ^ 82 + (tTx - tRx) * (rateOne + m.rr) * L.nrr p + L.mld p * (rateOne + m.rr) * rateOne) (2 ^ 82)

/-! ### Bases and comparators -/

/-- The 64-bit value of a base in its own units: LOCAL, FERRY, D0, D1, VEHICLE; 0 until adopted, set or valid (Table 11.5). -/
def Lane.baseValue (L : Lane) (b : Nat) : Nat :=
  let ns (d : Nat) : Nat := if (L.dom d).set then ((L.dom d).base.read L.now / 65536).toNat else 0
  (match b with
  | 0 => L.now
  | 1 => L.ferry
  | 2 => ns 0
  | 3 => ns 1
  | 4 => L.vehNs
  | _ => 0) % 2 ^ 64

def Lane.cmpTime (L : Lane) (c : Nat) : Nat := L.get (Reg.TB_CMP_HI_TIME c) * 2 ^ 32 + L.get (Reg.TB_CMP_LO_TIME c)

/-- Comparators on a base that was stepped backward to before TIME fire again when it reaches TIME again (R505). -/
def Lane.rearm (L : Lane) (base : Nat) : Lane :=
  let keeps (c : Nat) : Bool := L.get (Reg.TB_CMP_CFG_BASE c) != base || decide (L.cmpTime c ≤ L.baseValue base)
  { L with tb := { L.tb with fired := L.tb.fired.filter fun e => keeps e.1 } }

/-- A domain set to the grandmaster's time by a step (R492). -/
def Lane.stepDomain (L : Lane) (d : Nat) (v rr : Int) : Lane :=
  let m := L.dom d
  let L1 := (L.setDom d { m with base := ⟨L.now, v, rr⟩, set := true }).count Reg.TB_CNT_STEP_COUNT
  if m.set && decide (v < m.base.read L.now) then L1.rearm (2 + d) else L1

/-- A Sync (with its Follow_Up) applied (R492, R497, R499): a step at the first one and beyond STEP_TH, else a rate that removes the
offset within one sync interval (log entry 23). -/
def Lane.applySync (L : Lane) (d p : Nat) (m : SyncMsg) : Lane :=
  let tRx := (stamp m.tRx : Int) + L.rxDly p
  let rr := L.rrOf p m
  let gm := (m.originNs : Int) * 65536 + L.corrOut p m tRx L.nowUnits
  let cur := (L.dom d).base.read L.now
  let ofs := cur - gm
  let L1 := (L.setI (Reg.TB_DOM_OFS_OFS d) (satW 32 (truncDiv ofs 65536))).setI (Reg.TB_DOM_RR_RR d) rr
  let L2 := if !(L.dom d).set || decide (L.get (Reg.TB_DOM_CFG_STEP_TH d) * 65536000 < ofs.natAbs) then L1.stepDomain d gm rr
    else
      let t : Int := (logTicks (L.get (Reg.TB_DOM_CFG_LOGSYNC d)) : Int) * tickUnits
      L1.setDom d { L1.dom d with base := ⟨L.now, cur, rr - truncDiv (ofs * rateOne) t⟩ }
  let L3 := L2.setDom d { L2.dom d with relay := some m, relayAt := L.now, waiting := none, wasSynced := true, syncAt := L.now,
                                         syncedAt := if L.synced d then (L2.dom d).syncedAt else L.now }
  L3.setDomState d 2

/-- The port in the slave role of a domain (R495): named by SLAVE under EXT, else the one an Announce was accepted on. -/
def Lane.slavePort (L : Lane) (d : Nat) : Nat :=
  if L.bit (Reg.TB_DOM_CFG_EXT d) then L.get (Reg.TB_DOM_CFG_SLAVE d) else L.get (Reg.TB_DOM_STAT_SLAVE_PORT d)

/-- A Sync received on the slave port of a domain that has a grandmaster; a two-step one waits for its Follow_Up. -/
def Lane.syncIn (L : Lane) (d p : Nat) (m : SyncMsg) : Lane :=
  if L.bit (Reg.TB_DOM_CFG_EN d) && L.slavePort d = p && L.get (Reg.TB_DOM_STAT_STATE d) ≠ 0 then
    if m.twoStep then L.setDom d { L.dom d with waiting := some m }
    else L.domainChange fun L => L.applySync d p m
  else L

/-- One sync interval after a two-step Sync that still waits (R498). -/
def Lane.followUpDue (L : Lane) (d : Nat) : Option Nat :=
  (L.dom d).waiting.map fun m => m.tRx / 655360 + logTicks (L.get (Reg.TB_DOM_CFG_LOGSYNC d))

/-- A gPTP frame discarded (R495, R498). -/
def Lane.gptpDiscard (L : Lane) (i : Nat) : Lane := (L.count Reg.TB_CNT_DISC_COUNT).raise 121 i

/-- A two-step Sync whose Follow_Up has not come is discarded (R498). -/
def Lane.dropWaiting (L : Lane) (d : Nat) : Lane := (L.setDom d { L.dom d with waiting := none }).gptpDiscard d

/-- The Follow_Up of the waiting Sync, matched by its sequence number: corr_in and rr_in are those it carries (R497). One that comes after the
sync interval finds its Sync discarded (R498). -/
def Lane.followUp (L : Lane) (d : Nat) (m : SyncMsg) : Lane :=
  match (L.dom d).waiting with
  | none => L
  | some w =>
    if (L.followUpDue d).any fun t => t < L.now then L.dropWaiting d
    else if w.seq = m.seq then
      L.domainChange fun L => L.applySync d (L.slavePort d) { w with originNs := m.originNs, corr := m.corr, rr := m.rr }
    else L

/-- A gPTP message leaves. -/
def Lane.gptpSend (L : Lane) (o : GptpOut) : Lane := { L with tb := { L.tb with out := L.tb.out ++ [o] } }

/-- The clockIdentity of the lane: VF_MAC with FF-FE between its halves (log entry 220). -/
def Lane.clockId (L : Lane) : Nat :=
  let mac := L.get Reg.VF_MAC_HI_MAC * 2 ^ 32 + L.get Reg.VF_MAC_LO_MAC
  mac / 2 ^ 24 * 2 ^ 40 + 0xFFFE * 2 ^ 24 + mac % 2 ^ 24

/-- 2^log s in ticks, for the interval that a message names. -/
def secTicks (n : Int) : Nat := if 0 ≤ n then 100000000 * 2 ^ n.toNat else 100000000 / 2 ^ (-n).toNat

/-- An Announce of an acceptable grandmaster (R495, R499): the port becomes the slave port, and the other one, a master port, sends the
Announce on with one step more and the lane in its path trace. One that has passed this lane already is not acceptable, and a path trace of more
than 16 entries is not supported. -/
def Lane.announce (L : Lane) (d p gm : Nat) (msg : AnnounceMsg) : Lane :=
  let path := msg.path.map BitVec.toNat
  if !L.bit (Reg.TB_DOM_CFG_EN d) || (L.bit (Reg.TB_DOM_CFG_EXT d) && L.get (Reg.TB_DOM_CFG_SLAVE d) ≠ p) || path.contains L.clockId then L
  else if 16 < path.length then L.gptpDiscard p
  else
    let st := L.get (Reg.TB_DOM_STAT_STATE d)
    let old := L.get (Reg.TB_DOM_GM_HI_GM d) * 2 ^ 32 + L.get (Reg.TB_DOM_GM_LO_GM d)
    let L1 := if st ≠ 0 && old ≠ gm then L.set (Reg.TB_DOM_STAT_GMCHG d) 1 else L
    let L2 := (((L1.set (Reg.TB_DOM_GM_HI_GM d) (gm / 2 ^ 32)).set (Reg.TB_DOM_GM_LO_GM d) gm).set (Reg.TB_DOM_STAT_HOPS d)
      (min 255 msg.hops)).set (Reg.TB_DOM_STAT_SLAVE_PORT d) p
    let L3 := L2.setDom d { L2.dom d with annAt := L.now, annTicks := secTicks msg.logInterval }
    let L4 := if st = 0 then L3.setDomState d 1 else L3
    L4.gptpSend (.announce d (1 - p) gm (msg.hops + 1) ((path ++ [L.clockId]).take 16))

/-- When a domain is lost (R499, Table 11.2): 3 announce intervals after the latest Announce, or, once SYNCED, SRTO sync intervals after the
latest Sync. -/
def Lane.receiptDue (L : Lane) (d : Nat) : Option Nat :=
  let a := (L.dom d).annAt + 3 * (L.dom d).annTicks
  match L.get (Reg.TB_DOM_STAT_STATE d) with
  | 0 => none
  | 2 => some (min a ((L.dom d).syncAt + L.get (Reg.TB_DOM_CFG_SRTO d) * logTicks (L.get (Reg.TB_DOM_CFG_LOGSYNC d))))
  | _ => some a

/-- An announce or sync receipt timeout (R499). -/
def Lane.domainLost (L : Lane) (d : Nat) : Lane :=
  if L.get (Reg.TB_DOM_STAT_STATE d) = 0 then L
  else L.domainChange fun L => ((L.setDomState d 0).setDom d { L.dom d with waiting := none, relay := none }).raise 122 d

/-- Whether a relayed Sync may leave by a master port at a time (R498): none leaves more than 50 µs after it could. -/
def Lane.mayRelay (L : Lane) (d p tTx : Nat) : Bool :=
  p ≠ L.slavePort d && decide (tTx ≤ ((L.dom d).relayAt + 50 * usTicks) * 655360)

/-- The departure of a relayed Sync on a master port, with its origin, corr_out and rr (R497). -/
def Lane.syncOut (L : Lane) (d p tTx : Nat) : Lane :=
  match (L.dom d).relay with
  | none => L
  | some m =>
    if !L.mayRelay d p tTx then L
    else
      let s := L.slavePort d
      let c := L.corrOut s m ((stamp m.tRx : Int) + L.rxDly s) ((stamp tTx : Int) + L.txDly p)
      (L.setDom d { L.dom d with relay := none, sent := some (m.originNs, c, L.rrOf s m) }).gptpSend (.sync d p m.originNs c (L.rrOf s m))

/-! ### Peer delay (log entry 24) -/

/-- When the next peer-delay request of a port is due. -/
def Lane.pdelayDue (L : Lane) (p : Nat) : Nat :=
  match (L.port p).t1 with
  | none => L.now
  | some t => t / 655360 + logTicks (L.get (Reg.TB_PORT_ASYM_LOGPDELAY p))

/-- A completed measurement: neighbour rate ratio from two answers in succession, mean link delay, asCapable. -/
def Lane.linkDelay (L : Lane) (p t3 : Nat) : Lane :=
  let q := L.port p
  match q.t1 with
  | none => L
  | some t1 =>
    if !q.reqOut then L
    else
      let t4 := (stamp q.t4 : Int) + L.rxDly p
      let nrr := match q.prev with
        | none => L.getI (Reg.TB_PORT_NRR_NRR p)
        | some (p3, p4) => if stamp q.t4 ≤ p4 then L.getI (Reg.TB_PORT_NRR_NRR p)
            else roundDiv (((t3 : Int) - p3) * rateOne) (stamp q.t4 - p4) - rateOne
      let twice := roundDiv ((t4 - ((t1 : Int) + L.txDly p)) * (rateOne + nrr)) (2 ^ 41) - ((t3 : Int) - q.t2)
      let mld := max 0 (roundDiv twice 8192)
      let L1 := (L.setI (Reg.TB_PORT_NRR_NRR p) nrr).set (Reg.TB_PORT_STAT_MLD p) (min (2 ^ 24 - 1) mld.toNat)
      let L2 := L1.setBool (Reg.TB_PORT_STAT_ASCAP p) (decide (mld ≤ (L.get (Reg.TB_PORT_ASYM_THRESH p) * 160 : Nat)))
      L2.setPort p { q with reqOut := false, prev := some (t3, stamp q.t4) }

/-- A peer-delay message (R495): a neighbour's request is answered at once, with the times of its arrival and of the answer's departure at the
media interface. -/
def Lane.pdelay (L : Lane) (p : Nat) : PdelayMsg → Lane
  | .req tRx => (L.gptpSend (.pdelayResp p ((stamp tRx : Int) + L.rxDly p))).gptpSend (.pdelayRespFollowUp p (L.nowUnits + L.txDly p))
  | .resp t2 t4 => if (L.port p).reqOut then L.setPort p { L.port p with t2 := t2, t4 := t4 } else L
  | .followUp t3 => L.linkDelay p t3

/-! ### Comparators and reads -/

/-- The LOCAL tick at which a base reaches a value; `none` while the base has no time. -/
def Lane.baseReaches (L : Lane) (b v : Nat) : Option Nat :=
  let x : Int := (v : Int) * 65536
  match b with
  | 0 => some v
  | 1 => if L.xf.adopted then some (L.localOf v) else none
  | 2 => if (L.dom 0).set then some ((L.dom 0).base.reaches x) else none
  | 3 => if (L.dom 1).set then some ((L.dom 1).base.reaches x) else none
  | 4 =>
    let d := (L.dom (L.get Reg.TB_STAT_SRC)).base
    if !L.bit Reg.TB_STAT_VALID then none
    else if L.bit Reg.TB_STAT_HOLD then some (L.tb.veh.reaches x)
    else if L.bit Reg.TB_STAT_SLEWING then
      if L.tb.veh.rate < d.rate then some (min (L.tb.veh.reaches x) (d.reaches x)) else some (max (L.tb.veh.reaches x) (d.reaches x))
    else some (d.reaches x)
  | _ => none

/-- When an enabled comparator fires (R505). -/
def Lane.cmpDue (L : Lane) (c : Nat) : Option Nat :=
  if L.bit (Reg.TB_CMP_CFG_EN c) && !spGet false c L.tb.fired then L.baseReaches (L.get (Reg.TB_CMP_CFG_BASE c)) (L.cmpTime c) else none

def Lane.setCmpTime (L : Lane) (c v : Nat) : Lane :=
  (L.set (Reg.TB_CMP_LO_TIME c) v).set (Reg.TB_CMP_HI_TIME c) (v / 2 ^ 32)

def Lane.setFired (L : Lane) (c : Nat) (b : Bool) : Lane := { L with tb := { L.tb with fired := spSet false c b L.tb.fired } }

/-- A comparator fires: TS event c; with a period, TIME moves on until it lies in the future, and skipped periods count (R505). -/
def Lane.cmpFire (L : Lane) (c : Nat) : Lane :=
  let per := L.get (Reg.TB_CMP_PER_PERIOD c)
  let L1 := if per = 0 then L.setFired c true
    else
      let skipped := (L.baseValue (L.get (Reg.TB_CMP_CFG_BASE c)) - L.cmpTime c) / per
      (L.setCmpTime c (L.cmpTime c + (skipped + 1) * per)).countBy (Reg.TB_CMP_CFG_MISSED c) skipped
  L1.event c

/-- The five bases captured in one tick (R506). -/
def Lane.snapAll (L : Lane) : Lane :=
  L.forEach (List.range 5) fun b M =>
    (M.set (Reg.TB_SNAP_VAL_WORD (2 * b)) (L.baseValue b)).set (Reg.TB_SNAP_VAL_WORD (2 * b + 1)) (L.baseValue b / 2 ^ 32)

/-- Where the HI word of a pair is latched for a requester: the time registers of LOCAL, FERRY and VEHICLE, the snapshot pairs of the others. -/
def latchKey (r b : Nat) : Nat := 16 * r + (if b = 2 || b = 3 then 8 + b else b)

/-- The value that a LO read of a time pair returns with its HI: LOCAL, FERRY and VEHICLE as they stand, D0 and D1 from their
snapshot pair (Table 11.1). -/
def Lane.pairValue (L : Lane) (b : Nat) : Nat :=
  if b = 2 || b = 3 then L.get (Reg.TB_SNAP_VAL_WORD (2 * b)) + L.get (Reg.TB_SNAP_VAL_WORD (2 * b + 1)) * 2 ^ 32 else L.baseValue b

/-- The LO and HI registers of a time pair. -/
def pairFlds : Nat → Option (Fld × Fld)
  | 0 => some (Reg.TB_LOCAL_LO_WORD, Reg.TB_LOCAL_HI_WORD)
  | 1 => some (Reg.TB_FERRY_LO_WORD, Reg.TB_FERRY_HI_WORD)
  | 4 => some (Reg.TB_VEH_LO_WORD, Reg.TB_VEH_HI_WORD)
  | _ => none

/-- A read of a LO register latches its HI for the reading requester (R506). -/
def Lane.readLo (L : Lane) (r b : Nat) : Lane :=
  if 5 ≤ b then L
  else
    let v := L.pairValue b
    let L1 := match pairFlds b with
      | some (lo, hi) => (L.set lo v).set hi (v / 2 ^ 32)
      | none => L
    { L1 with tb := { L1.tb with hi := spSet none (latchKey r b) (some (v / 2 ^ 32)) L1.tb.hi } }

/-- A write of RESYNC (R494). -/
def Lane.doResync (L : Lane) : Lane :=
  if L.bit Reg.VF_CTRL_EN then L.raise 120
  else
    let was : Resync := ⟨L.now, L.get Reg.TB_STAT_VALID, L.get Reg.TB_STAT_SRC, L.get Reg.TB_STAT_HOLD, L.get Reg.TB_STAT_SLEWING, L.tb.veh, L.tb.fired⟩
    let L0 : Lane := { L with tb := { L.tb with resync := some was } }
    let L1 := (L0.set Reg.TB_STAT_VALID 0).set Reg.TB_STAT_SLEWING 0
    let L2 := (L1.set Reg.TB_STAT_HOLD 0).settleVeh 0 0
    if L2.vehNow < L.vehNow then L2.rearm 4 else L2

/-- VF_CTRL.EN written 1 in the tick of a RESYNC: the RESYNC is refused after all (Table 11.3). -/
def Lane.refuseResync (L : Lane) : Lane :=
  match L.tb.resync with
  | none => L
  | some r =>
    if r.at_ ≠ L.now then L
    else
      let L1 := (((L.set Reg.TB_STAT_VALID r.valid).set Reg.TB_STAT_SRC r.src).set Reg.TB_STAT_HOLD r.hold).set Reg.TB_STAT_SLEWING r.slewing
      ({ L1 with tb := { L1.tb with veh := r.veh, fired := r.fired, resync := none } }).raise 120

/-- A change of SLEW while vehicle time slews: it goes on at the new rate (R501). -/
def Lane.slewChanged (L old : Lane) : Lane :=
  if L.bit Reg.TB_STAT_SLEWING && L.get Reg.TB_CTRL_SLEW ≠ old.get Reg.TB_CTRL_SLEW then L.slewFrom (L.get Reg.TB_STAT_SRC) old.vehNow else L

/-- SLAVE_PORT under EXT is the port that SLAVE names (Table 11.6). -/
def Lane.showSlave (L : Lane) (d : Nat) : Lane :=
  if L.bit (Reg.TB_DOM_CFG_EXT d) then L.set (Reg.TB_DOM_STAT_SLAVE_PORT d) (L.get (Reg.TB_DOM_CFG_SLAVE d)) else L

/-- When a slew ends: the tick at which the difference has reached 0 (R501). -/
def Lane.slewDue (L : Lane) : Option Nat :=
  if L.bit Reg.TB_STAT_SLEWING then
    let d := (L.dom (L.get Reg.TB_STAT_SRC)).base
    let diff := (L.tb.veh.read L.tb.veh.at_ - d.read L.tb.veh.at_).natAbs
    let perTick : Int := 655360 * L.slewRate
    some (L.tb.veh.at_ + (-(-((diff : Int) * rateOne) / perTick)).toNat)
  else none

/-- When the return to the PRI domain qualifies (R502). -/
def Lane.revertDue (L : Lane) : Option Nat :=
  let p := L.get Reg.TB_CTRL_PRI
  if L.bit Reg.TB_CTRL_REVERT && L.bit Reg.TB_STAT_VALID && !L.bit Reg.TB_STAT_HOLD && L.get Reg.TB_STAT_SRC ≠ p && L.synced p then
    some ((L.dom p).syncedAt + L.get Reg.TB_CTRL_QUAL * 100000000)
  else none

/-- The return to the PRI domain; where that domain is lost at the same instant there is none (R502, Table 11.3). -/
def Lane.revert (L : Lane) : Lane :=
  let p := L.get Reg.TB_CTRL_PRI
  if (L.receiptDue p).any fun t => t ≤ L.now then L else L.follow p L.vehNow

/-! ### Meanings -/

/-- SYNC_RECEIVED (R497). -/
def execSyncReceived (x : LaneId) (d port : Fin 2) (msg : SyncMsg) (s : State) : Out := onUp x (·.syncIn d port msg) s

/-- FOLLOW_UP_RECEIVED (R497). -/
def execFollowUpReceived (x : LaneId) (d : Fin 2) (msg : SyncMsg) (s : State) : Out := onUp x (·.followUp d msg) s

/-- FOLLOW_UP_TIMEOUT (R498). -/
def execFollowUpTimeout (x : LaneId) (d : Fin 2) (s : State) : Out :=
  atDue x (·.followUpDue d) (·.dropWaiting d) s

/-- ANNOUNCE_RECEIVED (R499). -/
def execAnnounceReceived (x : LaneId) (d port : Fin 2) (gm : BitVec 64) (msg : AnnounceMsg) (s : State) : Out :=
  onUp x (·.announce d port gm.toNat msg) s

/-- PDELAY_MESSAGE (R495). -/
def execPdelayMessage (x : LaneId) (port : Fin 2) (msg : PdelayMsg) (s : State) : Out := onUp x (·.pdelay port msg) s

/-- A peer-delay request leaves within the tick, at a 625 ps step that is a free value (R496). -/
def Lane.pdelayRequest (L : Lane) (p : Nat) : Lane :=
  let g := L.takeFree
  (g.2.setPort p { g.2.port p with t1 := some (L.now * 655360 + g.1 % 16 * 40960), reqOut := true }).gptpSend (.pdelayReq p)

/-- PDELAY_REQ_TIMER (R495). -/
def execPdelayReqTimer (x : LaneId) (port : Fin 2) (s : State) : Out := atDue x (fun L => some (L.pdelayDue port)) (·.pdelayRequest port) s

/-- RECEIPT_TIMEOUT (R499). -/
def execReceiptTimeout (x : LaneId) (d : Fin 2) (s : State) : Out := atDue x (·.receiptDue d) (·.domainLost d) s

/-- SLEW_COMPLETE (R501). -/
def execSlewComplete (x : LaneId) (s : State) : Out := atDue x (·.slewDue) (·.set Reg.TB_STAT_SLEWING 0) s

/-- REVERT_QUALIFIED (R502). -/
def execRevertQualified (x : LaneId) (s : State) : Out :=
  atDue x (·.revertDue) (·.revert) s

/-- COMPARATOR_FIRE (R505). -/
def execComparatorFire (x : LaneId) (c : Fin 16) (s : State) : Out := atDue x (·.cmpDue c) (·.cmpFire c) s

/-- SNAPSHOT (R506). -/
def execSnapshot (x : LaneId) (s : State) : Out := onUp x (·.snapAll) s

/-- TIME_LO_READ (R506). -/
def execTimeLoRead (x : LaneId) (requester : Fin 11) (base : Fin 8) (s : State) : Out := onUp x (·.readLo requester base) s

/-- RESYNC (R494). -/
def execResync (x : LaneId) (s : State) : Out := onUp x (·.doResync) s

end Sys2Proof.Machine
end

