-- ==== Sys2Proof/Machine/Manifest.lean ====
section
/-! DEFINITION. The check of a manifest and what enabling a ferry does with it (10_ferry.md R457), and what a lane takes from its
configuration record as a reset is released (R489, Table 2.10). -/

namespace Sys2Proof.Machine

/-! ### The check of a manifest (R457) -/

/-- The KIND of a ferry's manifest. -/
def kindOf : Ferry → Nat
  | .lane => 1
  | .vehicle => 2

/-- REASON 7: KIND, NODES and ELEMS of word 0, and every unused bit 0. The fields that a lane manifest holds at 0 count among those bits: ARRIVE and
BERTH (log entry 100). -/
def Lane.manHeaderOk (L : Lane) (f : Ferry) : Bool :=
  let w0 := L.manWord f 0
  let w1 := L.manWord f 1
  let nodes := L.manNodes f
  let elems := L.manElems f
  let heads := match f with
    | .lane => nodes = 3 && bitsOf w1 15 1 = 0 && L.manWord f 2 = 0
    | .vehicle => decide (2 ≤ nodes ∧ nodes ≤ 16) && bitsOf w1 11 1 = 0
  bitsOf w0 31 24 = kindOf f && bitsOf w0 7 0 = 0 && decide (1 ≤ elems ∧ elems ≤ 128) && heads &&
  ((List.range nodes).all fun i => bitsOf (L.manWord f (3 + 2 * i)) 11 8 = 0 &&
    (match f with
     | .lane => L.manWord f (4 + 2 * i) = 0
     | .vehicle => bitsOf (L.manWord f (4 + 2 * i)) 15 0 = 0)) &&
  (List.range elems).all fun e => bitsOf (L.manWord f (3 + 2 * nodes + e)) 8 6 = 0 && (f = .vehicle || (L.desc f e).berth = 0)

/-- The bytes of an element in its berth: the AGE byte and the coded data. -/
def Lane.elemLen (L : Lane) (f : Ferry) (e : Nat) : Nat := 1 + codedLen (L.desc f e).coding (L.desc f e).words

/-- REASON 1: placement and overlap. -/
def Lane.placedOk (L : Lane) (f : Ferry) (e : Nat) : Bool :=
  let d := L.desc f e
  let first := if L.manSlew f then 9 else 4
  (f = .lane || decide (d.berth < L.manNodes f)) && decide (first ≤ d.offset) && decide (d.offset + L.elemLen f e + 4 ≤ L.berthLen f d.berth) &&
  (List.range e).all fun k =>
    let g := L.desc f k
    g.berth ≠ d.berth || decide (g.offset + L.elemLen f k ≤ d.offset) || decide (d.offset + L.elemLen f e ≤ g.offset)

/-- REASON 5: where a source may stand, and with how many words (Tables 1.1, 2.1 and 6.2). -/
def sourceOk (f : Ferry) (d : Desc) : Bool :=
  match f with
  | .lane => decide (d.src < 8) &&
      (if d.src = 2 then decide (d.sub < 8) && d.words = [1, 1, 1, 1, 2, 6, 1, 16].getD d.sub 0
       else if d.src = 3 then decide (d.sub < 2) && d.words = 1
       else if d.src = 4 then decide (d.sub < 2) && d.words = 5
       else true)
  | .vehicle => decide (d.src ≤ 8) && !([2, 3, 4, 7].contains d.src) && d.coding ≠ 5

/-- The elements that a lane manifest must have. -/
def requiredSources : List (Nat × Nat) := (List.range 8).map (fun i => (2, i)) ++ [(3, 0), (3, 1), (4, 0), (4, 1)]

/-- The checks of R457 in their order: the REASON of the first that fails, or 0. -/
def Lane.manCheck (L : Lane) (f : Ferry) : Nat :=
  let es := List.range (L.manElems f)
  let ds := es.map (L.desc f)
  let berths := match f with
    | .lane => [0]
    | .vehicle => List.range (L.manNodes f)
  let inBerth (b : Nat) : List Desc := ds.filter fun d => d.berth = b
  let total (l : List Desc) : Nat := l.foldl (fun a d => a + d.words) 0
  let checks : List (Nat × Bool) :=
    [(7, L.manHeaderOk f),
     (1, es.all (L.placedOk f)),
     (2, ds.all fun d => decide (d.coding ≤ 5) && codedLen d.coding d.words ≠ 0),
     (3, berths.all fun b => decide (countIf (fun d : Desc => isSlew d.coding) (inBerth b) ≤ 16) &&
       decide (countIf (fun d : Desc => d.input) (inBerth b) ≤ 16)),
     (4, match f with
       | .lane => decide (total ds ≤ 128)
       | .vehicle => decide (total ds ≤ 768)),
     (5, ds.all (sourceOk f) &&
       (match f with
        | .lane => requiredSources.all fun r => ds.any fun d => d.src = r.1 && d.sub = r.2
        | .vehicle => true)),
     (6, match f with
       | .lane => true
       | .vehicle => decide (2 * L.vehLap + 1000 ≤ L.vehCyc * 12500) && (List.range (L.manNodes f)).all fun i =>
           decide (28 ≤ L.nodeOffset f i) && decide (L.nodeOffset f i + L.berthLen f i ≤ L.vehFrame))]
  match checks.find? fun c => !c.2 with
  | none => 0
  | some c => c.1

/-- A manifest newly accepted carries the marks that its SENT and analog sources hold (R318, R320). -/
def Lane.markSources (L : Lane) (f : Ferry) : Lane :=
  let sent := (List.range 2).map fun s => (5, s, L.bit (Reg.AF_SENT_STAT_IMPL s))
  let analog := (List.range 4).map fun a => (6, a, L.bit (Reg.AF_AN_VAL_IMPL a))
  L.forEach (sent ++ analog) fun e L => if e.2.2 then L.markImpl f e.1 e.2.1 true else L

/-- XF_ENABLE (R457): the other fields of XF_CTRL under R704, then the check. A manifest accepted takes part from the next departure
on (Table 10.12); one that differs from the last starts with its elements never refreshed. -/
def Lane.xfEnable (L : Lane) (v : Nat) : Lane :=
  let fs := [Reg.XF_CTRL_LOCK, Reg.XF_CTRL_WIN, Reg.XF_CTRL_LAUNCH]
  if L.bit Reg.XF_CTRL_LOCK && L.changesLocked fs v then L.raise 101
  else
    let L1 := L.writeFlds fs v
    let r := L1.manCheck .lane
    let L2 := L1.set Reg.XF_MAN_REASON r
    if r = 0 then
      let same := L2.get Reg.XF_MAN_CRC_CRC = L2.manCrc .lane
      let L3 := (((L2.set Reg.XF_CTRL_EN 1).set Reg.XF_MAN_VALID 1).set Reg.XF_MAN_ELEMS (L2.manElems .lane)).set Reg.XF_MAN_CRC_CRC
        (L2.manCrc .lane)
      Lane.markSources { L3 with xf := { L3.xf with
          readOnly := true, frameAt := L3.now, mismatch := false, elems := if same then L3.xf.elems else []
          slewTx := if same then L3.xf.slewTx else [], slewRx := if same then L3.xf.slewRx else [] } } .lane
    else ((L2.set Reg.XF_CTRL_EN 0).set Reg.XF_MAN_VALID 0).set Reg.XF_MAN_ELEMS 0

/-- VF_ENABLE (R457), as XF_ENABLE. -/
def Lane.vfEnable (L0 : Lane) (v : Nat) : Lane :=
  let L := L0.refuseResync
  let fs := [Reg.VF_CTRL_LOCK, Reg.VF_CTRL_LAUNCH, Reg.VF_CTRL_MCAST, Reg.VF_CTRL_NODE, Reg.VF_CTRL_LTMO, Reg.VF_CTRL_WIN]
  if L.bit Reg.VF_CTRL_LOCK && L.changesLocked fs v then L.raise 116
  else
    let L1 := L.writeFlds fs v
    let r := L1.manCheck .vehicle
    let L2 := L1.set Reg.VF_MAN_REASON r
    if r = 0 then
      let same := L2.get Reg.VF_MAN_CRC_CRC = L2.manCrc .vehicle
      let L3 := (((L2.set Reg.VF_CTRL_EN 1).set Reg.VF_MAN_VALID 1).set Reg.VF_MAN_ELEMS (L2.manElems .vehicle)).set Reg.VF_MAN_CRC_CRC
        (L2.manCrc .vehicle)
      Lane.markSources { L3 with vf := { L3.vf with
          readOnly := true, frameAt := L3.now, mismatch := false, elems := if same then L3.vf.elems else []
          slewTx := if same then L3.vf.slewTx else [], slewRx := if same then L3.vf.slewRx else [] } } .vehicle
    else (((L2.set Reg.VF_CTRL_EN 0).set Reg.VF_MAN_VALID 0).set Reg.VF_MAN_ELEMS 0).stopOriginating

/-! ### The configuration record (R89, R180, R489, R549, R574) -/

/-- The payload of the configuration record as pairs of a register's address and its word: spec/ gives no layout (log entry 161). -/
def pairsOf : List Nat → List (Nat × Nat)
  | a :: v :: t => (a, v) :: pairsOf t
  | _ => []
def Lane.configPairs (L : Lane) : List (Nat × Nat) := pairsOf ((L.recordWords 0).getD [])

/-- The word that the record gives a register, if it does. -/
def Lane.configWord (L : Lane) (a : Nat) : Option Nat := (L.configPairs.find? fun p => p.1 = a).map (·.2)

/-- The fields of a register that a program may write (RW, RWL), and their bits of a word. -/
def configFlds (fs : List Fld) : List Fld := fs.filter fun f => f.acc = .rw || f.acc = .rwl
def configBits (fs : List Fld) (v : Nat) : Nat := (configFlds fs).foldl (fun w f => w + f.of v * 2 ^ f.lo) 0

/-- A register loaded by the boot ROM: no LOCK and no command bit of it is touched. -/
def Lane.loadReg (L : Lane) (a v : Nat) : Lane :=
  match regFields L.me a with
  | none => L
  | some fs => L.writeFlds (configFlds fs) v

/-- The registers loaded as the reset is released: SYS_MODE_CFG, the manifests, the VF addresses and VF_GUARD. -/
def isEarly (a : Nat) : Bool :=
  a = 0x4000010C || (0x40081000 ≤ a && a < 0x40082000) || (0x40091000 ≤ a && a < 0x40092000) || (0x40090008 ≤ a && a < 0x4009001C)

/-- What BOOT takes from the configuration record before its self-tests (R489; log entry 161): XF_CTRL, which the boot ROM then enables, and
VF_CTRL, enabled where the record has its EN set, both with their LOCK. A record that cannot be read gives nothing. -/
def Lane.loadEarly (L : Lane) : Lane :=
  if L.configPairs.isEmpty then L
  else
    let L1 := L.forEach (L.configPairs.filter fun p => isEarly p.1) fun p L => L.loadReg p.1 p.2
    let xf := (L.configWord 0x40080000).getD (L1.word [Reg.XF_CTRL_WIN, Reg.XF_CTRL_LAUNCH])
    let L2 := L1.xfEnable (setBit xf 0)
    match L.configWord 0x40090000 with
    | none => L2
    | some v => if bitAt v 30 then L2.vfEnable v else (L2.loadReg 0x40090000 v).when (bitAt v 31) fun L => L.set Reg.VF_CTRL_LOCK 1

end Sys2Proof.Machine
end

