-- ==== Sys2Proof/Machine/Reset.lean ====
section
/-! DEFINITION. Lane reset and power-on reset: what survives them (15_power_thermal_test.md R641, Table 15.5), the lane's identity
(R90, R91), the supply, the reset ball and the crystal (R676 to R684, R697), and failed boots (R113, R652, Table 2.3). -/

namespace Sys2Proof.Machine

/-! ### Identity (R90, R91) -/

/-- The straps and fuse codes sampled at the release of a reset. -/
def Lane.sampleId (L : Lane) : Lane :=
  let p := L.pins
  let ok := p.strap ≠ 3 && p.parityOk && p.strap = p.lFuse && p.strap = p.pFuse
  let L1 := ((L.set Reg.SYS_LANE_ID_STRAP p.strap.toNat).set Reg.SYS_LANE_ID_LDIE_FUSE p.lFuse.toNat).set
    Reg.SYS_LANE_ID_PDIE_FUSE p.pFuse.toNat
  (L1.setBool Reg.SYS_LANE_ID_PARITY_ERR (!p.parityOk)).setBool Reg.SYS_LANE_ID_MATCH ok

/-- "Lane identity" is raised where the identity does not hold (R91). -/
def Lane.checkId (L : Lane) : Lane := if L.bit Reg.SYS_LANE_ID_MATCH then L else L.raise 0

/-! ### Memories -/

/-- A memory without the bytes of an address range. -/
def Mem.clear (m : Mem) (lo hi : Nat) : Mem := m.filter fun c => !(decide (lo ≤ c.1) && decide (c.1 ≤ hi))

/-- SRAM set to 0 (Table 15.5), and the retention SRAM. -/
def Mem.clearSram (m : Mem) : Mem := m.clear 0x20000000 0x207FFFFF
def Mem.clearRetention (m : Mem) : Mem := m.clear 0x2F000000 0x2F00FFFF

/-- The SRAM macro of an address. -/
def macroOf (a : Nat) : Nat := a / 2 ^ 20 % 8

/-! ### Lane reset -/

/-- FM at a lane reset: every status cleared, then set, without an event, where the cause is still held (R569). -/
def Lane.fmAfterReset (L : Lane) : Lane :=
  let L1 := { L with fm := { L.fm with trapBits := [], trapSet := none, lastE := none, prel := false } }
  let L2 := L1.forEach (List.range 6) fun g L => L.set (Reg.FM_STATUS_STATUS g) 0
  L2.forEach ((List.range 192).filter fun s => sourceExists s && L2.causeHeld s) fun s L => L.setStatus s true

/-- The blocks' hidden state at a lane reset (Table 15.5): what the column "Lane reset" does not keep starts anew. -/
def Lane.dropBlocks (L : Lane) : Lane :=
  let keep (p : Peer) : Peer := { down := p.down, toggled := p.toggled, aliveAt := p.aliveAt }
  { L with
    run := .on
    md := { bootFails := L.md.bootFails, bootStop := L.md.bootStop }
    le := {}, fc := {}, af := {}, cp := { resetAt := L.now }, ts := {}, ix := {}, sm := {}
    xf := { peer := ⟨keep L.xf.peer.a, keep L.xf.peer.b, keep L.xf.peer.c⟩ }
    vf := { out := L.vf.out }
    tb := { local_ := L.tb.local_, out := L.tb.out }
    sx := { out := L.sx.out }
    hl := { L.hl with run := none, ramps := [], relayQ := [], await := [], target := [], inbox := [], linkUp := 0, canState := .active }
    pm := { pads := L.pm.pads, vcoreHigh := L.pm.vcoreHigh, phyClk := L.pm.phyClk, wakes := L.pm.wakes }
    tm := { L.tm with deviant := [] }
    st := {}
    rs := { store := L.rs.store } }

/-- A lane reset (R560, R641, R617, R594): gate outputs off, every register to its lane-reset value, BOOT, whose ROM then takes what R489
names from the configuration record. -/
def Lane.laneReset (L : Lane) : Lane :=
  let L1 := (((L.allOff.resetRegs fun _ => true).dropBlocks).sampleId).fmAfterReset
  (((L1.checkId).setBool Reg.GD_STAT_EN L1.pins.en).ordersAfterReset).loadEarly

/-- A lane reset of the machine's lane: its SRAM reads 0 afterwards. -/
def State.laneReset (s : State) (x : LaneId) : State :=
  (s.setLane x (s.lane x).laneReset).setMem x (s.memOf x).clearSram

/-! ### Power-on reset -/

/-- A lane at the release of its power-on reset: registers at their power-on values but for the fuses, tallies from the records
(R572, Table 15.5); the pad holds are those given. -/
def Lane.powerOn (L : Lane) (padHold : Nat) (pads : List Nat) : Lane :=
  let fused := (List.range 8).foldl (fun l m => spSet 0 (Reg.ST_REPAIR_FUSED m).key (L.get (Reg.ST_REPAIR_FUSED m)) l) []
  let L1 : Lane := { me := L.me, run := .on, regs := fused, free := L.free, pins := L.pins, rs := { store := L.rs.store },
                     pm := { pads := pads }, gd := { enLow := L.gd.enLow.map fun t => t - L.now } }
  ((((L1.set Reg.PM_STAT_PADHOLD padHold).loadTallies).sampleId.checkId).setBool Reg.GD_STAT_EN L1.pins.en).loadEarly

/-- The machine with a lane released from power-on reset: only MRAM keeps its contents. -/
def State.powerOn (s : State) (x : LaneId) (padHold : Nat) (pads : List Nat) : State :=
  (s.setLane x ((s.lane x).powerOn padHold pads)).setMem x (s.memOf x).clearSram.clearRetention

/-- POWER_ON_RESET_RELEASE (R90, R679): the straps are sampled and the lane starts BOOT, with no pad hold. -/
def execPowerOnResetRelease (x : LaneId) (strap : BitVec 2) (s : State) : Out :=
  if (s.lane x).run = .unpowered then
    let L := s.lane x
    .next ((s.setLane x { L with pins := { L.pins with strap := strap, vsup := max L.pins.vsup 4800 } }).powerOn x 0 [])
  else .next s

/-- SUPPLY_LOSS (R679): the lane enters power-on reset. Its gate outputs are off; nothing of it runs. -/
def execSupplyLoss (x : LaneId) (s : State) : Out :=
  onLane x (fun L => { L.allOff with run := .unpowered, pins := { L.pins with vsup := min L.pins.vsup 4299 } }) s

/-! ### The reset ball and the crystal -/

/-- RESET_PIN (R676): 1 µs or more resets the lane, 200 ns or less does not; between them spec/ leaves it open. A lane held in reset for
another reason stays held; one that stays in BOOT after its last failure boots again (R113). -/
def execResetPin (x : LaneId) (lowNs : Nat) (strap : BitVec 2) (s : State) : Out :=
  let L := s.lane x
  let f := L.takeBit
  let act := decide (1000 ≤ lowNs) || (decide (200 < lowNs) && f.1)
  let s1 := if 200 < lowNs ∧ lowNs < 1000 then s.setLane x f.2 else s
  if L.run = .unpowered || L.run = .off || !act then .next s1
  else
    let s2 := (s1.setLane x { s1.lane x with pins := { L.pins with strap := strap }, md := { L.md with bootStop := false } }).laneReset x
    if L.run = .held then .next (s2.setLane x { s2.lane x with run := .held }) else .next s2

/-- CRYSTAL_FAILURE (R697): refuge, then held in lane reset. -/
def execCrystalFailure (x : LaneId) (s : State) : Out :=
  let L := s.lane x
  let bad := { L with pins := { L.pins with crystal := false } }
  if L.run = .on || L.run = .sleep then
    let s1 := (s.setLane x bad.enterRefuge).laneReset x
    .next (s1.setLane x { s1.lane x with run := .held })
  else .next (s.setLane x bad)

/-- CRYSTAL_RECOVERY (R697): PHYCLK_x starts anew, and the lane leaves reset, unless a thermal shutdown holds it (R645). -/
def execCrystalRecovery (x : LaneId) (s : State) : Out :=
  let L := s.lane x
  let good := if L.pins.crystal then L else { L with pins := { L.pins with crystal := true }, pm := { L.pm with phyClk := some L.now } }
  if L.run = .held && !L.tm.hold && !L.pins.crystal then .next ((s.setLane x good).laneReset x) else .next (s.setLane x good)

/-! ### The supply thresholds and the PHY reset (R679, R680, R683) -/

/-- SUPPLY_THRESHOLD_CROSSING: "supply low" below 6.0 V, "supply high" above 58 V, each raised at the crossing; event 175 at a crossing in
either direction (Table 15.15). Below 6.0 V the NV window closes at once, and its 100 ms of opening start anew (R649). -/
def execSupplyThresholdCrossing (x : LaneId) (mv : Nat) (s : State) : Out :=
  onAwake x (fun L =>
    let was := L.pins.vsup
    let L1 : Lane := { L with pins := { L.pins with vsup := mv } }
    let low := decide (mv < 6000)
    let high := decide (58000 < mv)
    let L2 := if low = decide (was < 6000) then L1 else if low then (L1.event 175).raise 140 else L1.event 175
    let L3 := if high = decide (58000 < was) then L2 else if high then (L2.event 175).raise 141 else L2.event 175
    let L4 : Lane := if low then { L3 with tm := { L3.tm with nvSince := none } } else L3
    if low && L4.nvOpen then ((L4.set Reg.TM_STAT_NVOPEN 0).event 178).suspendWrite else L4) s

/-- PHY_RESET_RELEASE (R683): after a lane reset and 10 ms after PHYCLK_x started, PHYRST_x_N rises. -/
def execPhyResetRelease (x : LaneId) (s : State) : Out :=
  awakeAtDue x (fun L => if L.pm.phyUp then none else L.pm.phyClk.map (· + 10 * msTicks))
    (fun L => { L with pm := { L.pm with phyUp := true } }) s

/-! ### The end of BOOT -/

/-- XF_REJOIN at a stage of Table 1.4. Stage 4 begins with nothing recorded, and T2 is held from then on: a firing of it that waits is
dropped (R705; log entry 159). -/
def Lane.setStage (L : Lane) (n : Nat) : Lane :=
  let L1 := (L.set Reg.XF_REJOIN_STAGE n).setBool Reg.XF_REJOIN_ACTIVE (decide (n ≠ 6))
  if n = 4 then
    { L1 with
      xf := { L1.xf with gather := none, record := [], replay := none, replayRun := false, release := none }
      le := { L1.le with pending := L1.le.pending.filter fun f => f.trig ≠ 2 } }
  else L1

/-- START_DONE, SEEN_HIGH and SEEN_LOW as STARTUP begins: the input states held at entry count for nothing (R123, R124). -/
def Lane.startTests (L : Lane) : Lane := ((L.set Reg.SYS_START_SEEN_HIGH 0).set Reg.SYS_START_SEEN_LOW 0).startDone

/-- A mode entered by this lane: SYS_MODE, its count, and the MODE_CHANGED report on each route (R127, Table 14.7). -/
def Lane.enterMode (L : Lane) (m cause cycle : Nat) : Lane :=
  let old := L.mode
  let L1 := ((L.set Reg.SYS_MODE_PREV old).set Reg.SYS_MODE_MODE m).set Reg.SYS_MODE_CAUSE cause
  let L2 := (L1.set Reg.SYS_MODE_ENTRY_CYCLE cycle).count Reg.SYS_MODE_CNT_CHANGES
  L2.reportAll 0x01 [m * 2 ^ 29 + old * 2 ^ 26 + cause * 2 ^ 22 + L.get Reg.XF_VSTAT_QUAL_SET, cycle]

/-- Whether the lane is in BOOT with what guard 2 of Table 2.3 asks of identity and self-tests, and has retries left (R113). -/
def Lane.bootable (L : Lane) : Bool :=
  L.mode = 0 && !L.md.bootStop && L.bit Reg.SYS_LANE_ID_MATCH && !L.st.sigFail && !L.st.memFail && !L.st.exhausted

/-- The sources a failed BOOT raises (R652, R653); its condition lasts until reset. -/
def Lane.bootFault (L : Lane) (c : BootCause) : Lane :=
  match c with
  | .selfTest => { L with st := { L.st with sigFail := true } }.raise 152
  | .memory => { L with st := { L.st with memFail := true } }.raise 153
  | .record => L.raise 157
  | .image | .clock => L

/-- A failed boot of lane `x`, now as `L` (R113): counted; a lane reset while retries remain, and after the last failure the lane stays in
BOOT until RST_x_N or power-on reset. -/
def State.failBoot (s : State) (x : LaneId) (L : Lane) : State :=
  let L1 : Lane := { L with md := { L.md with bootFails := L.md.bootFails + 1 } }
  if L.md.bootFails < L.get Reg.SYS_MODE_CFG_BOOT_RETRY then (s.setLane x L1).laneReset x
  else s.setLane x { L1 with md := { L1.md with bootStop := true } }

/-- BOOT_FAILURE (R113). -/
def execBootFailure (x : LaneId) (cause : BootCause) (s : State) : Out :=
  let L := s.lane x
  if L.up && L.mode = 0 && !L.md.bootStop then .next (s.failBoot x (L.noteHeld.bootFault cause)) else .next s

/-- LANE_RESET_REACTION (R560, R39): the lane reset that follows the first departure after refuge entry, or follows at once where the lane
takes no part in a sailing, as in SLEEP (R562 keeps a request back in LAST-LANE until then). -/
def execLaneResetReaction (x : LaneId) (s : State) : Out :=
  let L := s.lane x
  let alone := L.run = .sleep || !(L.xf.adopted && L.bit Reg.XF_CTRL_EN)
  if L.awake && (L.md.resetReady || (L.md.resetNext && alone)) then .next (s.laneReset x) else .next s

end Sys2Proof.Machine
end

