-- ==== Sys2Proof/Machine/Vote.lean ====
section
/-! DEFINITION. What a lane sees of the others, and what follows (01_triplex.md): health words, eligibility and command (R46 to R58),
reachability and quorum (R60, R61), the vote (R38 to R45, R707), and the shares (R62 to R69). -/

namespace Sys2Proof.Machine

/-! ### Elements in the bytes of a berth (Table 10.5) -/

/-- The AGE byte and the coded data of element `e` in a berth's bytes. -/
def Lane.berthAge (L : Lane) (bs : List Byte) (e : Nat) : Nat := (bs.getD (L.desc .lane e).offset 0).toNat
def Lane.berthData (L : Lane) (bs : List Byte) (e : Nat) : List Byte :=
  let d := L.desc .lane e
  slice bs (d.offset + 1) (codedLen d.coding d.words)

/-- Word `i` of the element of a source, as a berth's bytes carry it. -/
def Lane.berthWord (L : Lane) (bs : List Byte) (src sub i : Nat) : Nat :=
  match L.findElem .lane src sub with
  | none => 0
  | some e => nth (decodeWords (L.desc .lane e).coding (L.desc .lane e).words (L.berthData bs e)) i

/-- Whether the element of a source stands in a berth's bytes with AGE 0. -/
def Lane.berthFresh (L : Lane) (bs : List Byte) (src sub : Nat) : Bool :=
  match L.findElem .lane src sub with
  | none => false
  | some e => L.berthAge bs e = 0

/-! ### Views of the lanes -/

def Lane.peerOf (L : Lane) (y : LaneId) : Peer := L.xf.peer.get y
def Lane.setPeer (L : Lane) (y : LaneId) (p : Peer) : Lane := { L with xf := { L.xf with peer := L.xf.peer.set y p } }

/-- The mask of the lanes that satisfy a test; bit 0 is lane A. -/
def laneMask (p : LaneId → Bool) : Nat := allLanes.foldl (fun a y => a + b2n (p y) * 2 ^ laneNum y) 0

/-- Whether a lane's berth was present in the sailing judged last (REACH of Table 1.2). The lane never judges itself: its own bit stays 0
(log entry 155). -/
def Lane.arrived (L : Lane) (y : LaneId) : Bool := (L.peerOf y).missing = 0 && (L.peerOf y).health.isSome

/-- A lane is reachable while its berth has been missing in fewer than two sailings in succession (R60). -/
def Lane.reaches (L : Lane) (y : LaneId) : Bool := y = L.me || decide ((L.peerOf y).missing < 2)

/-- A lane counts as alive while its berth arrives fresh or its line has toggled within 75 µs (R60). -/
def Lane.aliveLane (L : Lane) (y : LaneId) : Bool :=
  y = L.me || L.arrived y || (match (L.peerOf y).aliveAt with
    | none => false
    | some t => decide (L.now < t + 75 * usTicks))

/-- The lane's own health word (Table 1.2). -/
def Lane.healthWord (L : Lane) : Nat :=
  laneNum L.me * 2 ^ 30 + L.mode * 2 ^ 27 + b2n L.md.refuge * 2 ^ 26 + b2n L.selfOk * 2 ^ 25 + b2n (L.lockstep && !L.cp.afterRejoin) * 2 ^ 24 +
  L.get Reg.XF_VSTAT_IN_STEP * 2 ^ 23 + L.get Reg.XF_VSTAT_QUALIFIED * 2 ^ 22 + L.get Reg.XF_VSTAT_SELF_CMD * 2 ^ 21 +
  L.get (Reg.FC_BR_STAT_DRIVE_OK 1) * 2 ^ 20 + L.get (Reg.FC_BR_STAT_DRIVE_OK 0) * 2 ^ 19 + L.xf.disagree * 2 ^ 16 +
  laneMask (fun y => (L.peerOf y).outvoted) * 2 ^ 13 + L.get Reg.CP_STAT_DEBUG_SPLIT * 2 ^ 12 + b2n L.xf.single * 2 ^ 11 +
  laneMask L.arrived * 2 ^ 8 + L.xf.tick.getD 0 % 2 ^ 8

/-- The health word of a lane as this lane has it: its own, or that of a reachable lane. -/
def Lane.health (L : Lane) (y : LaneId) : Option Nat :=
  if y = L.me then some L.healthWord else if L.reaches y then (L.peerOf y).health else none

/-- Whether a lane's health word satisfies a test. -/
def Lane.shows (L : Lane) (y : LaneId) (p : Nat → Bool) : Bool := (L.health y).any p

/-- The lanes in precedence order (XF_VCTRL). -/
def Lane.precedence (L : Lane) : List LaneId :=
  [L.get Reg.XF_VCTRL_FIRST, L.get Reg.XF_VCTRL_SECOND, L.get Reg.XF_VCTRL_THIRD].filterMap laneOf

/-- Whether a lane is eligible for command in this lane's view (R46, R707); a lane declared lost under R51 is not, this lane itself included. -/
def Lane.eligible (L : Lane) (y : LaneId) : Bool :=
  L.shows y (fun h => [hQualified, hInStep, hPairLock, hSelfOk].all (bitAt h) && !bitAt h hRefuge && !bitAt h hDebugSplit) &&
  !(L.peerOf y).outvoted && decide ((L.peerOf y).stale < 2) && !(y = L.me && L.bit Reg.XF_VSTAT_ISOLATED)

/-- Whether a lane's berth shows CLAIM, the own one included (R47). -/
def Lane.claims (L : Lane) (y : LaneId) : Bool := if y = L.me then L.xf.ownClaim else L.shows y (bitAt · hClaim)

/-- The command lane in this lane's view (R47, R57). -/
def Lane.commandLane (L : Lane) : Option LaneId := L.precedence.find? fun y => L.claims y && L.eligible y
def Lane.isCommand (L : Lane) : Bool := L.commandLane = some L.me

/-- Whether a lane belongs to QUAL_SET (Table 1.12). -/
def Lane.qualified (L : Lane) (y : LaneId) : Bool :=
  L.shows y (fun h => bitAt h hQualified && !bitAt h hRefuge) && !(L.peerOf y).outvoted
def Lane.qualCount (L : Lane) : Nat := countIf L.qualified allLanes

/-- The drive set D_b: DRIVE_OK[b] set, REFUGE clear, reachable. -/
def Lane.inDrive (L : Lane) (b : Nat) (y : LaneId) : Bool := L.shows y fun h => bitAt h (19 + b) && !bitAt h hRefuge
def Lane.driveSet (L : Lane) (b : Nat) : List LaneId := L.precedence.filter (L.inDrive b)

/-- XF_VSTAT as the lane stands (Table 1.12); CLAIM_CONFLICT, SELF_CMD, IN_STEP, QUALIFIED, UNRESOLVED and ISOLATED are kept there. -/
def Lane.showVote (L : Lane) : Lane :=
  let L1 := (L.set Reg.XF_VSTAT_CMD_LANE (match L.commandLane with
    | none => 3
    | some y => laneNum y)).set Reg.XF_VSTAT_QUAL_SET (laneMask L.qualified)
  let L2 := (L1.set Reg.XF_VSTAT_REACH_SET (laneMask L.reaches)).set Reg.XF_VSTAT_ALIVE_SET (laneMask L.aliveLane)
  let L3 := (L2.set Reg.XF_VSTAT_DRIVE_SET0 (laneMask (L.inDrive 0))).set Reg.XF_VSTAT_DRIVE_SET1 (laneMask (L.inDrive 1))
  let L4 := (L3.setBool Reg.XF_BOOST_ACTIVE0 ((L.driveSet 0).length = 1)).setBool Reg.XF_BOOST_ACTIVE1 ((L.driveSet 1).length = 1)
  L4.setBool Reg.XF_VSTAT_ADVISORY (L.bit Reg.XF_VSTAT_IN_STEP && !L.bit Reg.XF_VSTAT_QUALIFIED)

/-! ### Claims (R47, R51, R53, R56, R77) -/

/-- Whether the lane is to claim command from the coming sailing on. -/
def Lane.wantsClaim (L : Lane) : Bool :=
  let higher := L.precedence.takeWhile (· ≠ L.me)
  let lower := (L.precedence.dropWhile (· ≠ L.me)).drop 1
  if !L.eligible L.me then false
  else if higher.any fun y => L.claims y && L.eligible y then false
  else if L.bit Reg.XF_VSTAT_SELF_CMD then true
  else if lower.any fun y => L.claims y && L.eligible y then L.bit Reg.XF_VCTRL_REVERT && L.xf.justQual
  else !higher.any L.eligible

/-- The claim decided at a judgement (R706). -/
def Lane.decideClaim (L : Lane) : Lane := L.setBool Reg.XF_VSTAT_SELF_CMD L.wantsClaim

/-- Whether lane `y` comes before lane `z` in the precedence order. -/
def Lane.precedes (L : Lane) (y z : LaneId) : Bool := (L.precedence.takeWhile (· ≠ z)).contains y

/-- The declaration of R51, counted: the command lane of this lane's view is out-voted or no longer eligible, or no longer claims without
a claim from a lane of higher precedence. A take-over under R77 is none. -/
def Lane.declareLost (L : Lane) : Lane :=
  let cmd := L.commandLane
  if cmd = L.xf.cmdWas then L
  else
    let L1 : Lane := { L with xf := { L.xf with cmdWas := cmd } }
    match L.xf.cmdWas with
    | none => L1
    | some p => if L.eligible p && cmd.any fun c => L.precedes c p then L1 else L1.count Reg.XF_CNT_SWITCH_COUNT

/-! ### Presence, reachability and quorum at a judgement (R51, R60, R61, R706, R707) -/

/-- What the judgement of a sailing makes of one lane's berth; of this lane's own, as it came round, only whether R51 declares the lane lost.
`tickPassed`: an outer tick fell since the latch point before. -/
def Lane.judgePeer (L : Lane) (tickPassed : Bool) (y : LaneId) : Lane :=
  let p := L.peerOf y
  let due := p.due || tickPassed
  match L.xf.got.get y with
  | none =>
    L.setPeer y { p with missing := min 2 (p.missing + 1), due := due, stale := min 2 (p.stale + 1) }
  | some bs =>
    let h := L.berthWord bs 2 0 0
    let fresh := L.berthFresh bs 2 4
    let q := bitAt h hQualified
    L.setPeer y { p with
      missing := 0, health := if y = L.me then none else some h
      due := due && !fresh, stale := if due && !fresh then min 2 (p.stale + 1) else 0
      seenClear := p.outvoted && !q || (p.seenClear && !q)
      outvoted := p.outvoted && !(p.seenClear && q) }

/-- Whether this lane's reachable group meets the quorum (R61). A lane that cannot be reached counts as alive there only where its line
toggled at the departure of the judged sailing. -/
def Lane.quorum (L : Lane) (departure : Nat) : Bool :=
  let alive := allLanes.filter fun y => L.aliveLane y &&
    (L.reaches y || (match (L.peerOf y).toggled with
      | none => false
      | some t => decide (departure < t + 1250)))
  let group := alive.filter L.reaches
  decide (alive.length < 2 * group.length) ||
  (2 * group.length = alive.length && ((L.precedence.filter alive.contains).head?.any group.contains))

/-- R61 at a judgement: refuge without a lane reset; an isolated lane counts the sailings in which it would have met the quorum. In
BOOT a lane is not in service. -/
def Lane.judgeQuorum (L : Lane) (departure : Nat) : Lane :=
  let met := L.quorum departure
  if L.mode = 0 then L
  else if L.bit Reg.XF_VSTAT_ISOLATED then { L with xf := { L.xf with isoRun := if met then L.xf.isoRun + 1 else 0 } }
  else if L.md.refuge || met then L
  else { L.enterRefuge.set Reg.XF_VSTAT_ISOLATED 1 with xf := { L.enterRefuge.xf with isoRun := 0 } }

/-! ### The vote (R38 to R45) -/

/-- The cycle of a lane's latest result. -/
def Lane.lastResult (L : Lane) (y : LaneId) : Option Nat := ((L.xf.results.filter fun r => r.lane = y).getLast?).map (·.cycle)

/-- Whether a lane's DEMAND stands in the import area from this landing, fresh or repeated (R16). -/
def Lane.showsResult (L : Lane) (y : LaneId) : Bool :=
  (L.findElem .lane 2 4).any fun e =>
    L.impPresent y e && L.bit (Reg.XF_IMPS_DECODED (laneNum y) e) && decide (L.get (Reg.XF_IMPS_AGE (laneNum y) e) < 255)

/-- A lane's landed result, where this landing brings it first: its cycle, and DEMAND[0], DEMAND[1] and SIGNATURE. A repeated result counts
where the berth that carried it fresh was lost or not written (R16, R38; log entry 200). -/
def Lane.resultOf (L : Lane) (y : LaneId) : Option (Nat × List Nat) :=
  if L.showsResult y && (L.freshSrc y 2 4 || L.lastResult y ≠ some (L.impWord y 2 1 0)) then
    some (L.impWord y 2 1 0, [L.impWord y 2 4 0, L.impWord y 2 4 1, L.impWord y 2 3 0])
  else none

/-- Whether a lane is in step and not in refuge; a landed health word tells of another lane. -/
def Lane.inStep (L : Lane) (y : LaneId) : Bool :=
  if y = L.me then L.bit Reg.XF_VSTAT_IN_STEP && !L.md.refuge
  else bitAt (L.healthOf y) hInStep && !bitAt (L.healthOf y) hRefuge
/-- Whether a lane's vote counts: QUALIFIED as its own register or its landed health word shows it, and not out-voted (R707). -/
def Lane.voteCounts (L : Lane) (y : LaneId) : Bool :=
  !(L.peerOf y).outvoted && (if y = L.me then L.bit Reg.XF_VSTAT_QUALIFIED && !L.md.refuge else bitAt (L.healthOf y) hQualified)
def Lane.selfOkOf (L : Lane) (y : LaneId) : Bool := if y = L.me then L.selfOk else bitAt (L.healthOf y) hSelfOk

/-- A lane whose vote is advisory for SELF_OK alone (Table 1.6, K5): R40 and R44 still judge it as a qualified lane (log entry 153). -/
def Lane.suspect (L : Lane) (y : LaneId) : Bool :=
  if y = L.me then L.xf.unqual
  else !bitAt (L.healthOf y) hSelfOk && !bitAt (L.healthOf y) hQualified && bitAt (L.healthOf y) hPairLock && !(L.peerOf y).outvoted

/-- Whether a lane's landed digest differs from the command lane's: its vote is ignored (R35). -/
def Lane.digestDiffers (L : Lane) (y : LaneId) : Bool :=
  match L.commandLane with
  | none => false
  | some c => c ≠ y && L.freshSrc c 2 2 && L.freshSrc y 2 2 && L.impWord c 2 2 0 ≠ L.impWord y 2 2 0

/-- What a vote decides: the lanes out-voted (R39, R41, R45), those that leave on SELF_OK (R40, R44), and those left in an unresolved
split (R42). -/
structure Verdict where
  out : List LaneId := []
  leave : List LaneId := []
  split : List LaneId := []
  deriving DecidableEq, Repr

/-- The decision on the results `res` of the qualified lanes `q` and the advisory lanes `adv`. -/
def decideVote (q adv : List LaneId) (res : LaneId → List Nat) (ok : LaneId → Bool) : Verdict :=
  if q.all fun y => q.all fun z => res y = res z then {}
  else
    let pair := q.find? fun y => q.length = 3 &&
      ((q.filter (· ≠ y)).all fun z => res z ≠ res y) && ((q.filter (· ≠ y)).all fun z => (q.filter (· ≠ y)).all fun w => res z = res w)
    match pair with
    | some y => { out := [y] }
    | none =>
      let bad := q.filter fun y => !ok y
      let leave := if bad.length = q.length then [] else bad
      let rest := q.filter fun y => !leave.contains y
      if rest.length < 2 then { leave := leave }
      else
        let agreeing := adv.find? fun a => rest.length = 2 && countIf (fun y => res y = res a) rest = 1
        match agreeing with
        | some a => { out := rest.filter fun y => res y ≠ res a, leave := leave }
        | none => if rest.all fun y => rest.all fun z => res y = res z then { leave := leave } else { leave := leave, split := rest }

/-- What stands of a verdict on the lanes `q` of which those in `strict` have votes that count: an advisory vote out-votes no lane without
a qualified one beside it, and a split is one of qualified lanes (Table 1.6, K5). -/
def Verdict.sound (v : Verdict) (q : List LaneId) (strict : LaneId → Bool) : Verdict :=
  let beside (y : LaneId) : Nat := countIf (fun z => z ≠ y && strict z) q
  { out := v.out.filter fun y => decide (2 ≤ beside y) || (beside y = 1 && strict y)
    leave := v.leave
    split := if v.split.all strict then v.split else [] }

/-- The unresolved split ends (R43). -/
def Lane.releaseSplit (L : Lane) : Lane :=
  { L.set Reg.XF_VSTAT_UNRESOLVED 0 with
    xf := { L.xf with split := 0, equalRun := 0, voted := none, unresolvedAt := none }
    md := { L.md with splitHeld := false } }

/-- The unresolved split begins: counted; set, raised and reported in its lanes (R42). A third lane, whose vote is advisory, only counts
it (log entry 156). -/
def Lane.enterSplit (L : Lane) (m : Nat) : Lane :=
  let L0 := L.releaseSplit
  let L1 := ({ L0 with xf := { L0.xf with split := m } }).count Reg.XF_CNT_SPLIT_COUNT
  if bitAt m (laneNum L.me) then
    let L2 := { L1.set Reg.XF_VSTAT_UNRESOLVED 1 with xf := { L1.xf with unresolvedAt := some L1.now } }
    let cmd := match L2.commandLane with
      | none => 3
      | some y => laneNum y
    (L2.raise 7).reportAll 0x08 [cmd * 2 ^ 30 + laneMask L2.qualified]
  else L1

/-- The lanes of the split in force. -/
def Lane.splitLanes (L : Lane) : List LaneId := allLanes.filter fun y => bitAt L.xf.split (laneNum y)

/-- The split ends where one of its lanes has left service or is no longer qualified (R43). -/
def Lane.reviewSplit (L : Lane) : Lane :=
  if L.splitLanes.all fun y => L.voteCounts y && (if y = L.me then !L.md.refuge else L.reaches y && !bitAt (L.healthOf y) hRefuge) then L
  else L.releaseSplit

/-- The split in force looked at with the results of cycle `c` (R43): PERSIST equal results in consecutive cycles end it. -/
def Lane.countEqual (L : Lane) (c : Nat) (res : LaneId → Option (List Nat)) : Lane :=
  let ys := L.splitLanes
  if ys.isEmpty || !(ys.all fun y => (res y).isSome) then L
  else if ys.all fun y => ys.all fun z => res y = res z then
    if L.xf.voted = some c then L
    else
      let n := if L.xf.voted = some ((c + 2 ^ 32 - 1) % 2 ^ 32) then L.xf.equalRun + 1 else 1
      if L.get Reg.XF_AGR_CFG_PERSIST ≤ n then L.releaseSplit else { L with xf := { L.xf with equalRun := n, voted := some c } }
  else { L with xf := { L.xf with equalRun := 0, voted := none } }

/-- A lane counted as out-voted (R707). -/
def Lane.outvote (L : Lane) (y : LaneId) : Lane :=
  if (L.peerOf y).outvoted then L
  else (L.setPeer y { L.peerOf y with outvoted := true, seenClear := false }).count Reg.XF_CNT_OUTVOTE_COUNT

/-- What a verdict does in this lane. -/
def Lane.applyVerdict (L : Lane) (v : Verdict) : Lane :=
  let L1 := if v.out.any fun y => bitAt L.xf.split (laneNum y) then L.releaseSplit else L
  let L2 := L1.forEach v.out fun y L => L.outvote y
  let m := laneMask v.split.contains
  let L3 := if m ≠ 0 && m ≠ L2.xf.split then L2.enterSplit m else L2
  if v.out.contains L.me || v.leave.contains L.me then L3.refugeReset else L3

/-- The words of lane `y`'s result of cycle `c`, where it has landed. -/
def Lane.resultIn (L : Lane) (c : Nat) (y : LaneId) : Option (List Nat) :=
  (L.xf.results.find? fun r => r.cycle = c && r.lane = y).map (·.words)

/-- The results that this landing brought are kept beside those of the last sailings, four of each lane. -/
def Lane.landResults (L : Lane) : Lane :=
  let new := allLanes.filterMap fun y => (L.resultOf y).map fun r => ⟨r.1, y, r.2⟩
  let last (y : LaneId) : List VoteResult := (L.xf.results ++ new).filter fun r => r.lane = y
  { L with xf := { L.xf with results := allLanes.flatMap fun y => (last y).drop ((last y).length - 4) } }

/-- The vote on cycle `c` with every result of it that has landed, in this sailing or an earlier one (R38 to R45). R40 asks that no other
qualified lane exists. A lane counted as out-voted that is in step still serves R41 as an advisory lane (log entry 201). -/
def Lane.voteCycle (L : Lane) (c : Nat) : Lane :=
  let ys := allLanes.filter fun y => L.inStep y && !L.digestDiffers y && (L.resultIn c y).isSome
  let res (y : LaneId) : Option (List Nat) := if ys.contains y then L.resultIn c y else none
  let mine := ys.contains L.me
  let differs := mine && ys.any fun y => res y ≠ res L.me
  let diff := if mine && L.lastResult L.me = some c then
      laneMask fun y => if ys.contains y then res y ≠ res L.me else bitAt L.xf.disagree (laneNum y) && L.inStep y
    else L.xf.disagree
  let L1 : Lane := { L with xf := { L.xf with disagree := diff }, cp := { L.cp with sawDisagree := L.cp.sawDisagree || differs } }
  let L2 := if differs && L1.get Reg.XF_REJOIN_STAGE = 5 then L1.set Reg.XF_REJOIN_COUNT 0 else L1
  let q := ys.filter fun y => L.voteCounts y || L.suspect y
  let third := allLanes.any fun y => L.qualified y && !q.contains y
  let v := decideVote q (ys.filter fun y => !q.contains y) (fun y => (res y).getD []) (fun y => L.selfOkOf y || (third && q.length = 2))
  (L2.countEqual c res).applyVerdict (v.sound q L.voteCounts)

/-- The vote at a landing: on each cycle of which a result landed. -/
def Lane.vote (L : Lane) : Lane :=
  let cs := (allLanes.filterMap fun y => (L.resultOf y).map (·.1)).eraseDups
  L.landResults.reviewSplit.forEach cs fun c L => L.voteCycle c

/-- A lane whose digest differs from the command lane's clears IN_STEP (R35); one in stage 5 returns to stage 4 (R76). -/
def Lane.checkDigest (L : Lane) : Lane :=
  match L.commandLane with
  | none => L
  | some c =>
    if c ≠ L.me && L.bit Reg.XF_VSTAT_IN_STEP && L.freshSrc c 2 2 && L.freshSrc L.me 2 2 && L.impWord c 2 2 0 ≠ L.impWord L.me 2 2 0 then
      let L1 : Lane := { L.set Reg.XF_VSTAT_IN_STEP 0 with cp := { L.cp with lostStep := true } }
      if L1.get Reg.XF_REJOIN_STAGE = 5 then 
        let L2 := (L1.set Reg.XF_REJOIN_COUNT 0).setStage 4
        { L2 with xf := { L2.xf with waitDigest := true } }
      else L1
    else L

/-! ### The last-lane rule and the shares (R62 to R69, R517, R646, R648) -/

/-- Whether the lane is under the last-lane rule (R646). -/
def Lane.lastLane (L : Lane) : Bool :=
  isService L.mode && ((L.isCommand && L.mode = 4) || L.driveSet 0 = [L.me] || L.driveSet 1 = [L.me])

/-- What R648 leaves of L_b. -/
def Lane.thermalLimit (L : Lane) (l : Int) : Int :=
  if !(L.isCommand && L.lastLane) || L.tm.tj < 1280 then l
  else
    let cut : Int := (8000 * 2 ^ 29 - 25 * 2 ^ 30 * max 0 (L.tm.tj - 1320)) / 8000
    min l (max 0 cut)

/-- BOOST[b] in force. -/
def Lane.boost (L : Lane) (b : Nat) : Nat := if b = 0 then L.get Reg.XF_BOOST_BUDGET0 else L.get Reg.XF_BOOST_BUDGET1
def Lane.setBoost (L : Lane) (b v : Nat) : Lane :=
  if b = 0 then L.set Reg.XF_BOOST_BUDGET0 (min 2000 v) else L.set Reg.XF_BOOST_BUDGET1 (min 2000 v)

/-- The weight of a lane (XF_SHARE_W), and the weights used over a drive set: 1 each where all are 0 (R66). -/
def Lane.weight (L : Lane) : LaneId → Nat
  | .A => L.get Reg.XF_SHARE_W_W_A
  | .B => L.get Reg.XF_SHARE_W_W_B
  | .C => L.get Reg.XF_SHARE_W_W_C
def Lane.weightIn (L : Lane) (d : List LaneId) (y : LaneId) : Nat := if d.all fun z => L.weight z = 0 then 1 else L.weight y

/-- L_b (R62, R67, R648), rounded down to a whole LSB of Q1.30 (log entry 202). -/
def Lane.torqueLimit (L : Lane) (b : Nat) : Int :=
  let d := L.driveSet b
  let w := d.map (L.weightIn d)
  let total := w.foldl (· + ·) 0
  let l : Nat :=
    if 2 ≤ d.length then min (2 ^ 30) (2 ^ 29 * total / max 1 (w.foldl max 0))
    else if d.length = 1 then (if 100 < L.boost b then 2 ^ 30 else 2 ^ 29 + 2 ^ 29 * L.boost b / 100)
    else 0
  L.thermalLimit l

/-- The commanded torque of actuator `b` (R62, R517). -/
def Lane.torque (L : Lane) (b : Nat) : Int :=
  let e := (L.findElem .lane 2 4).map fun e => nth (L.elem .lane e).words b
  let d := sgn 32 (e.getD 0)
  let d := if (0 < d && L.restrained b false) || (d < 0 && L.restrained b true) then 0 else d
  clampI (-L.torqueLimit b) (L.torqueLimit b) d

/-- The share of each lane in order A, B, C for a torque (R63 to R66). -/
def Lane.split63 (L : Lane) (b : Nat) (t : Int) : List Int :=
  let d := L.driveSet b
  let w := L.weightIn d
  let total := (d.map w).foldl (· + ·) 0
  let live := d.filter fun y => w y ≠ 0
  let rem := if live.contains L.me then some L.me else live.head?
  let part (y : LaneId) : Int := if d.contains y then truncDiv (t * (w y : Nat)) (max 1 total : Nat) else 0
  allLanes.map fun y =>
    if rem = some y then t - ((d.filter (· ≠ y)).map part).foldl (· + ·) 0 else part y

/-- SHARE and BOOST computed and refreshed for the coming sailing (R49, R63). -/
def Lane.publishShares (L : Lane) : Lane :=
  let t := (L.torque 0, L.torque 1)
  let L1 : Lane := { L with xf := { L.xf with torque := ⟨t.1, t.2⟩ } }
  let L2 := L1.refreshSrc .lane 2 5 ((L1.split63 0 t.1 ++ L1.split63 1 t.2).map (uns 32)) false
  L2.refreshSrc .lane 2 6 [L2.boost 1 * 2 ^ 16 + L2.boost 0] false

/-- The command lane's landed shares and boost budgets taken (R50, R57, R69). -/
def Lane.takeShares (L : Lane) : Lane :=
  match L.commandLane with
  | none => L
  | some c =>
    let L1 := if L.freshSrc c 2 5 && bitAt (L.healthOf c) hClaim then
        (L.receiveShare 0 (sgn 32 (L.impWord c 2 5 (laneNum L.me)))).receiveShare 1 (sgn 32 (L.impWord c 2 5 (3 + laneNum L.me)))
      else L
    if c ≠ L.me && L.freshSrc c 2 6 && bitAt (L.healthOf c) hClaim then
      (L1.setBoost 0 (L.impWord c 2 6 0 % 2 ^ 16)).setBoost 1 (L.impWord c 2 6 0 / 2 ^ 16)
    else L1

/-- A millisecond of the boost budgets in the command lane (R68, R648). After a falling millisecond the 10 ms toward the next rise start anew
(log entry 157). -/
def Lane.boostMs (L : Lane) (b : Nat) : Lane :=
  let n := L.xf.boostMs.get b
  if (L.driveSet b).length = 1 && decide (2 ^ 29 < (L.xf.torque.get b).natAbs) then
    let L1 : Lane := { L with xf := { L.xf with boostMs := L.xf.boostMs.set b 0 } }
    if L.lastLane && decide (1280 ≤ L.tm.tj) then L1 else L1.setBoost b (L.boost b - 1)
  else if 9 ≤ n then ({ L with xf := { L.xf with boostMs := L.xf.boostMs.set b 0 } }).setBoost b (L.boost b + 1)
  else { L with xf := { L.xf with boostMs := L.xf.boostMs.set b (n + 1) } }

/-- BOOST_UPDATE. -/
def execBoostUpdate (x : LaneId) (s : State) : Out :=
  atDue x (fun L => some (L.xf.boostAt + msTicks)) (fun L =>
    let L1 := if L.isCommand then (L.boostMs 0).boostMs 1 else L
    ({ L1 with xf := { L1.xf with boostAt := L1.now } }).showVote) s

/-- The command lane's shares against this lane's deputy in an outer cycle (R518): at the fourth cycle in succession, and at each
further one, "restraint disregarded" (log entry 177). -/
def Lane.checkRestraint (L : Lane) (b : Nat) : Lane :=
  let n := match L.commandLane with
    | none => 0
    | some c =>
      let sum := [0, 1, 2].foldl (fun a i => a + sgn 32 (L.impWord c 2 5 (3 * b + i))) (0 : Int)
      if c ≠ L.me && ((0 < sum && L.restrained b false) || (sum < 0 && L.restrained b true)) then L.xf.disregard.get b + 1 else 0
  let L1 : Lane := { L with xf := { L.xf with disregard := L.xf.disregard.set b (min 4 n) } }
  if n = 4 then L1.raise 129 b else L1

end Sys2Proof.Machine
end

