-- ==== Sys2Proof/Machine/Modes.lean ====
section
/-! DEFINITION. Operating modes (02_modes.md): standstill (R106 to R108), the transitions and guards of Table 2.3, requests (R98 to R100,
R111), publication and adoption (R94, R95, R101 to R103), and the watch. -/

namespace Sys2Proof.Machine

/-! ### Standstill and recovery faults (R106 to R108) -/

/-- The number of the target element among the input elements (R24), where HL has one declared. -/
def Lane.targetInput (L : Lane) : Option Nat :=
  let ins := (L.elemsOf .lane (L.ownIndex .lane)).filter fun e => (L.desc .lane e).input
  if L.bit Reg.HL_ELEM_EN then
    (List.range ins.length).find? fun i => ins.getD i 128 = L.get Reg.HL_ELEM_TELEM
  else none

/-- The actuators-at-rest condition (R107), and the standstill condition (R106). -/
def Lane.atRest (L : Lane) : Bool :=
  match L.md.stillSince with
  | none => false
  | some t => decide (t + L.get Reg.SYS_STILL_CFG_HOLD * msTicks ≤ L.now)
def Lane.standstill (L : Lane) : Bool :=
  L.atRest &&
  (match L.targetInput, L.md.targetAt with
   | some i, some t => bitAt (nth L.xf.set.agr i) 0 && decide (L.now ≤ t + 100 * msTicks)
   | _, _ => false)

/-- The speed sample of an outer tick (R106). -/
def Lane.sampleRest (L : Lane) : Lane :=
  let L1 := (L.showAf 0).showAf 1
  let lim := L1.get Reg.SYS_STILL_CFG_SPEED_MAX
  let within (b : Nat) : Bool := decide ((L1.getI (Reg.AF_SPD_SPD b)).natAbs ≤ lim)
  { L1 with md := { L1.md with stillSince := if within 0 && within 1 then some (L1.md.stillSince.getD L1.now) else none } }

/-- The source number of a recovery fault that is present (R108); of several the first of this list (log entry 186). -/
def Lane.recoveryFault (L : Lane) : Option Nat :=
  if L.md.splitHeld then some 7
  else if 16 ≤ L.md.inputLost then some 6
  else if L.bit Reg.TM_STAT_CUTOFF then some 145
  else none

/-! ### Transitions (Table 2.3) -/

/-- What the guards of Table 2.3 ask of other lanes: an uncleared S-class fault, a MONITORED STOP, direct mode, a state other than RUN and
IDLE. spec/ does not say how a lane learns them; the model reads the lanes (log entry 29). -/
structure World where
  sFault : LaneId → Bool
  stopping : Bool
  direct : Bool
  lowPower : Bool

/-- The world as the machine's lanes stand; only present lanes count. -/
def State.world (s : State) : World :=
  let on := allLanes.filter fun y => (s.lane y).awake
  { sFault := fun y => (s.lane y).awake && (List.range 192).any fun n => srcIsS n && (s.lane y).status n
    stopping := on.any fun y => (s.lane y).stopping
    direct := on.any fun y => (List.range 2).any fun b => (s.lane y).get (Reg.FC_BR_STAT_STATE b) = 4
    lowPower := allLanes.any fun y => (s.lane y).run = .sleep || (s.lane y).run = .deep || (s.lane y).run = .off }

/-- START_DONE of a lane: its own, or as its MODE_VOTE landed (Table 2.1). -/
def Lane.startDoneOf (L : Lane) (y : LaneId) : Bool :=
  if y = L.me then L.bit Reg.SYS_START_DONE else bitAt (L.impWord y 3 0 0) 25

/-- The service-class mode for a number of qualified lanes (R97). -/
def serviceFor (n : Nat) : Nat := if n = 3 then 2 else if n = 2 then 3 else 4

/-- The lane-count guard of transitions No. 3, No. 4 and No. 13. -/
def Lane.countGuard (L : Lane) (frm : Nat) : Bool :=
  let n := L.qualCount
  if frm = 1 then n = 3 || (n = 2 && L.bit Reg.SYS_MODE_CFG_START_TWO)
  else n = 3 || n = 2 || (n = 1 && L.bit Reg.SYS_MODE_CFG_RESUME_ONE)

/-- A requested transition from mode `frm`: its code of Table 2.4, and the mode it leads to (No. 14's guard unmet: log entry 183). -/
def Lane.guard (L : Lane) (w : World) (frm target : Nat) : Nat × Nat :=
  let q := allLanes.filter L.qualified
  let prog (ok : Bool) : Nat := if ok then 0x00 else 0x09
  let service := isService frm
  if target = 2 && (frm = 1 || frm = 5) then
    (if !L.countGuard frm then 0x04 else if !q.all L.startDoneOf then 0x05 else if q.any w.sFault then 0x06
     else if frm = 5 && w.stopping then 0x09 else 0x00, serviceFor L.qualCount)
  else if (target = 5 || target = 7) && service then (if L.standstill then 0x00 else 0x03, target)
  else if target = 5 && frm = 1 then (0x00, 5)
  else if target = 7 && (frm = 1 || frm = 5) then (if L.atRest then prog (!w.stopping) else 0x03, 7)
  else if target = 1 && (frm = 5 || frm = 7) then (if w.lowPower then 0x01 else prog (!w.stopping), 1)
  else if target = 6 && (frm = 1 || frm = 5 || frm = 7) then (if L.standstill then prog (!w.stopping) else 0x03, 6)
  else if frm = 6 && (target = 1 || target = 7) then (prog (!w.stopping && !w.direct), target)
  else (0x01, frm)

/-- The code of a pending request (R99): a transition to or from WORKSHOP asks for SERVICE authority (No. 15, No. 16, R579). -/
def Lane.requestCode (L : Lane) (w : World) (frm : Nat) (r : ModeReq) : Nat :=
  let c := (L.guard w frm r.target).1
  if c = 0x01 then 0x01 else if (frm = 6 || r.target = 6) && r.rank ≠ 3 then 0x02 else c

/-- Whether a published change has not yet taken effect (R100). -/
def Lane.changePending (L : Lane) : Bool := L.md.publish.isSome || L.md.pending.isSome

/-- A request answered; a refusal by the command lane is counted. -/
def Lane.answerReq (L : Lane) (r : ModeReq) (code : Nat) : Lane :=
  let L1 := if code ≠ 0 && L.isCommand then L.count Reg.SYS_MODE_CNT_REFUSED else L
  L1.answer r.origin 0x04 code none []

/-- A request that reaches the command lane (R100). -/
def Lane.submit (L : Lane) (r : ModeReq) : Lane :=
  if L.changePending then L.answerReq r 0x08 else { L with md := { L.md with reqs := L.md.reqs ++ [r] } }

/-- Whether a request is evaluated before another (R99): SUPERVISOR orders, SERVICE orders, firmware; then the lower partition. Of two that
are equal in both the earlier arrival comes first (log entry 182). -/
def reqBefore (a b : ModeReq) : Bool :=
  let k (r : ModeReq) : Nat := (if r.rank = 2 then 0 else if r.rank = 3 then 1 else 2) * 4 + r.part
  decide (k a < k b)
def insertReq (r : ModeReq) : List ModeReq → List ModeReq
  | [] => [r]
  | q :: t => if reqBefore q r then q :: insertReq r t else r :: q :: t

/-- The requests evaluated in order against mode `m`: each gets its code; the first accepted one changes the outcome (R99). -/
def Lane.evalReqs (L : Lane) (w : World) : List ModeReq → Nat → Option (Nat × Nat) → Bool → Lane × Option (Nat × Nat)
  | [], _, out, _ => (L, out)
  | r :: t, m, out, true => (L.answerReq r 0x07).evalReqs w t m out true
  | r :: t, m, out, false =>
    let c := L.requestCode w m r
    if c = 0 then (L.answerReq r 0).evalReqs w t m (some ((L.guard w m r.target).2, if r.rank = 1 then 2 else 1)) true
    else (L.answerReq r c).evalReqs w t m out false

/-- The automatic transitions of one evaluation (R98, R94, R112): the mode they lead to, with its origin. -/
def Lane.autoMode (L : Lane) (w : World) : Option (Nat × Nat) :=
  let n := L.qualCount
  let counted := isService L.mode && n ≠ 0 && serviceFor n ≠ L.mode
  let m := if counted then serviceFor n else L.mode
  let recover := L.recoveryFault.isSome && L.bit Reg.SYS_MODE_CFG_AUTO_RECOVERY && (m = 1 || (isService m && L.standstill))
  let g := L.guard w 1 2
  if recover then some (5, 3)
  else if m = 1 && L.bit Reg.SYS_MODE_CFG_AUTO_SERVICE && g.1 = 0 then some (g.2, 0)
  else if counted then some (m, 0)
  else none

/-- One evaluation (R98 to R100): the lane with every request answered, and the transition that applies.
AUTO_SERVICE and the recovery faults come before the requests (log entry 181). -/
def Lane.evaluate (L : Lane) (w : World) : Lane × Option (Nat × Nat) :=
  let reqs := L.md.reqs.foldr insertReq []
  let L0 : Lane := { L with md := { L.md with reqs := [] } }
  if L0.changePending then (L0.forEach reqs fun r L => L.answerReq r 0x08, none)
  else
    let auto := L0.autoMode w
    L0.evalReqs w reqs ((auto.map (·.1)).getD L0.mode) auto false

/-! ### Adoption -/

/-- The words of the last unit put back in the target element, whose age goes on as it was (R611). -/
def Lane.restoreTarget (L : Lane) : Lane :=
  if L.bit Reg.HL_ELEM_EN then
    let e := L.get Reg.HL_ELEM_TELEM
    L.setElem .lane e { L.elem .lane e with words := L.hl.target.take (L.desc .lane e).words }
  else L

/-- The RAMPs closed by a mode change (R611, Table 14.11). -/
def Lane.closeRamps (L : Lane) (service : Bool) : Lane :=
  let L1 : Lane := { L with hl := { L.hl with ramps := [] } }
  if L.hl.ramps.isEmpty then L
  else
    (L1.forEach L.hl.ramps fun r L =>
      if r.committed then L.endOp? r.opid true 0 none
      else if service then L.endOp? r.opid false 1 none
      else L.endOp? r.opid true 3 none).restoreTarget

/-- Whether a lane has passed the commit point of its entry to a low-power state: it adopts no mode until it has left that state (R12, R633;
log entry 162). -/
def Lane.leaving (L : Lane) : Bool := L.bit Reg.PM_STAT_ENTERING && L.pm.passed = 4

/-- A lane in a service-class mode whose start-test is not complete has it pending (R125). -/
def Lane.pendStart (L : Lane) : Lane :=
  if isService L.mode && !L.bit Reg.SYS_START_DONE then ({ L with md := { L.md with startPend := true } }).raise 5 else L

/-- A mode adopted: SYS_MODE and its report (R127), bridges off in BOOT and PARK (R104), the deputy's service-class rules (R528, R530), the
reaction held back in LAST-LANE (R562), the RAMP, catch-spin after PARK (R636), the start-test of a rejoining lane (R125). -/
def Lane.adoptMode (L : Lane) (m cause cycle : Nat) : Lane :=
  if L.leaving then L
  else
  let L1 := ((L.enterMode m cause cycle).set Reg.SYS_MODE_PENDING 0).set Reg.SYS_MODE_PEND_TARGET 0
  let L2 : Lane := { L1 with md := { L1.md with pending := none } }
  let L3 := if m = 0 || m = 7 then L2.allOff else L2
  let L4 := if isService m && L3.stopping then L3.endMonitored 4 false 1 else L3
  let L5 := if isService m && !L4.md.refuge then L4.releaseToff else L4
  let L6 := (L5.closeRamps (isService m)).deputy
  let L7 := if L6.bit Reg.FM_STAT_LRST_PEND && m ≠ 4 then (L6.set Reg.FM_STAT_LRST_PEND 0).refugeReset else L6
  let L8 := if m ≠ 7 then (L7.rejoinCatch 0).rejoinCatch 1 else L7
  if cause = 6 then L8.pendStart else L8

/-- SYS_MODE.CAUSE of a MODE_VOTE origin (R94, Table 2.8). -/
def causeOf (origin : Nat) : Nat := [3, 2, 5, 4].getD origin 3

/-- A published change is adopted at its cycle (R95); a lane in refuge keeps its mode (R102). What this lane published ends there. -/
def Lane.modeTick (L : Lane) (k : Nat) : Lane :=
  let L1 : Lane := match L.md.publish with
    | some ⟨_, _, some c⟩ => if c ≤ k then { L with md := { L.md with publish := none } } else L
    | _ => L
  match L1.md.pending with
  | none => L1
  | some (m, o, c) =>
    if k < c then L1
    else if k = c && !L1.md.refuge then L1.adoptMode m (causeOf o) k
    else (({ L1 with md := { L1.md with pending := none } }).set Reg.SYS_MODE_PENDING 0).set Reg.SYS_MODE_PEND_TARGET 0

/-- MODE_VOTE of the coming sailing (R93, R94): the command lane's decision takes effect four cycles after the departure's.
While VALID is 0 the other bits carry the lane's own mode and 0 (log entry 180). -/
def Lane.modeVote (L : Lane) (cycle : Nat) : Lane :=
  let mine := b2n (L.bit Reg.SYS_START_DONE) * 2 ^ 25 + b2n L.standstill * 2 ^ 24
  match L.md.publish, L.isCommand with
  | some p, true =>
    let c := p.cycle.getD (cycle + 4)
    let L1 : Lane := { L with md := { L.md with publish := some { p with cycle := some c } } }
    L1.refreshSrc .lane 3 0 [p.target * 2 ^ 29 + 2 ^ 28 + p.origin * 2 ^ 26 + mine + c % 2 ^ 24] false
  | _, _ => ({ L with md := { L.md with publish := none } }).refreshSrc .lane 3 0 [L.mode * 2 ^ 29 + mine] false

/-- How far EFFECTIVE of a MODE_VOTE lies ahead of the outer cycle now, in its 24 bits (R95). -/
def Lane.voteAhead (L : Lane) (w : Nat) : Nat := (w % 2 ^ 24 + 2 ^ 24 - L.xf.tick.getD 0 % 2 ^ 24) % 2 ^ 24

/-- The command lane's MODE_VOTE as landed: a lane in step takes note of the change (R95). A lane in rejoin stage 5 shows STARTUP still and adopts
the module's mode at stage 6 (R101; log entry 82). -/
def Lane.landVote (L : Lane) : Lane :=
  match L.commandLane with
  | none => L
  | some c =>
    let w := L.impWord c 3 0 0
    let d := L.voteAhead w
    if L.freshSrc c 3 0 && bitAt w 28 && !L.md.refuge && L.bit Reg.XF_VSTAT_IN_STEP && L.get Reg.XF_REJOIN_STAGE ≠ 5 &&
        0 < d && d < 2 ^ 23 then
      let L1 : Lane := { L with md := { L.md with pending := some (bitsOf w 31 29, bitsOf w 27 26, L.xf.tick.getD 0 + d) } }
      (L1.set Reg.SYS_MODE_PENDING 1).set Reg.SYS_MODE_PEND_TARGET (bitsOf w 31 29)
    else L

/-- The module mode as command lane `c` publishes it: its health word's, or the target of a landed change whose cycle has come. -/
def Lane.publishedMode (L : Lane) (c : LaneId) : Nat :=
  let w := L.impWord c 3 0 0
  let d := L.voteAhead w
  if bitAt w 28 && (d = 0 || 2 ^ 23 ≤ d) then bitsOf w 31 29 else bitsOf ((L.health c).getD 0) 29 27

/-- STARTUP, which a lane shows in rejoin stages 2 to 5 (R101); one in refuge keeps its mode (R102). -/
def Lane.showStartup (L : Lane) : Lane :=
  if L.md.refuge || L.mode = 1 then L else L.adoptMode 1 6 (L.xf.tick.getD 0)

/-- The module mode adopted at rejoin stage 6 (R101), and STARTUP by a lane that kept PARK until the module left it (R101, R636). -/
def Lane.adoptPublished (L : Lane) : Lane :=
  match L.commandLane with
  | none => L
  | some c =>
    let m := L.publishedMode c
    if c = L.me || m = 0 then L else if m = L.mode then L.pendStart else L.adoptMode m 6 (L.xf.tick.getD 0)
def Lane.leavePark (L : Lane) : Lane :=
  match L.commandLane with
  | none => L
  | some c =>
    let m := bitsOf ((L.health c).getD 0) 29 27
    if L.mode = 7 && !L.md.refuge && L.bit Reg.XF_REJOIN_ACTIVE && !L.bit Reg.XF_VSTAT_IN_STEP && c ≠ L.me && m ≠ 7 && m ≠ 0 then
      L.adoptMode 1 6 (L.xf.tick.getD 0)
    else L

/-! ### The watch -/

/-- A recovery fault held back outside the standstill condition is reported once (R112, R129; log entries 185 and 186). -/
def Lane.reportDeferred (L : Lane) : Lane :=
  match L.recoveryFault with
  | none => { L with md := { L.md with deferred := false } }
  | some n =>
    if isService L.mode && L.bit Reg.SYS_MODE_CFG_AUTO_RECOVERY && !L.standstill && !L.md.deferred then
      ({ L with md := { L.md with deferred := true } }).reportAll 0x03 [n]
    else L

/-- The mode evaluation of a watch (R94, R103). -/
def Lane.watchModes (L : Lane) (w : World) : Lane :=
  if L.mode = 0 then L
  else
    let L1 := match L.md.localMode with
      | none => L
      | some (m, o) =>
        let L1 : Lane := { L with md := { L.md with localMode := none } }
        if L1.md.refuge then L1 else L1.adoptMode m (causeOf o) (L1.xf.tick.getD 0)
    let L2 := L1.reportDeferred
    if L2.isCommand then
      let e := L2.evaluate w
      match e.2 with
      | none => e.1
      | some (m, o) => if m = e.1.mode then e.1 else { e.1 with md := { e.1.md with publish := some ⟨m, o, none⟩ } }
    else
      let L3 := L2.forEach L2.md.reqs fun r L => L.answerReq r 0x0A
      let L4 : Lane := { L3 with md := { L3.md with reqs := [] } }
      if allLanes.any L4.eligible || L4.md.refuge || !L4.bit Reg.XF_VSTAT_IN_STEP then L4
      else match L4.autoMode w with
        | none => L4
        | some r => if r.1 = L4.mode then L4 else { L4 with md := { L4.md with localMode := some r } }

/-- The deputy's self-check of a watch (R511, R512). -/
def Lane.deputyCheck (L : Lane) (bad : Bool) : Lane :=
  let was := L.bit Reg.SM_STAT_INTFLT
  let L1 := L.setBool Reg.SM_STAT_INTFLT bad
  (if bad && !was then L1.raise 128 else L1).internalToff

/-- The crack-detect loop of a watch (R85). -/
def Lane.crackCheck (L : Lane) (isOpen : Bool) : Lane :=
  let L1 : Lane := { L with pins := { L.pins with crack := isOpen } }
  if isOpen && !L.pins.crack then L1.raise 1 else L1

/-- WATCH_START, 10 ms after the last watch (R8): TS event 16, the checks, the snapshot of R570, the mode evaluation of R94. -/
def execWatchStart (x : LaneId) (crackOpen deputyFault : Bool) (s : State) : Out :=
  let w := s.world
  atDue x (fun L => some (match L.md.watchAt with
    | none => L.now
    | some t => t + 10 * msTicks)) (fun L =>
    let L1 : Lane := { L.event 16 with md := { (L.event 16).md with watchAt := some L.now } }
    (((L1.snapshotTallies.crackCheck crackOpen).deputyCheck deputyFault).watchModes w).showVote) s

/-- WATCH_OVERRUN (R8): "watch overrun"; nothing of the fast plane waits. -/
def execWatchOverrun (x : LaneId) (s : State) : Out := onUp x (·.raise 9) s

/-- UNRESOLVED_TIMEOUT (R108): the split has lasted 100 ms without a break. -/
def execUnresolvedTimeout (x : LaneId) (s : State) : Out :=
  atDue x (fun L => if L.md.splitHeld then none else L.xf.unresolvedAt.map (· + 100 * msTicks))
    (fun L => { L with md := { L.md with splitHeld := true } }) s

/-- START_TEST_PENDING_REPORT (R128), once per second while the condition holds. -/
def execStartTestPendingReport (x : LaneId) (s : State) : Out :=
  atDue x (fun L =>
    if L.mode = 1 && L.countGuard 1 && !(allLanes.filter L.qualified).all L.startDoneOf then some (L.md.testReportAt + 1000 * msTicks) else none)
    (fun L =>
      let L1 : Lane := { L with md := { L.md with testReportAt := L.now } }
      let seen := Nat.land (L.get Reg.SYS_START_SEEN_HIGH) (L.get Reg.SYS_START_SEEN_LOW)
      L1.reportAll 0x02 [L.get Reg.SYS_START_MASK - Nat.land (L.get Reg.SYS_START_MASK) seen]) s

/-! ### Firmware requests (R111) -/

/-- A write of SYS_MODE_REQ.GO: TARGET takes the written value, and a request that still waits goes on; a request without FW_SUPER is refused,
and counted by the command lane (Table 2.13); the command lane evaluates its own at its next watch; another lane
passes it on through the relay element (log entries 154 and 184). -/
def Lane.modeRequest (L : Lane) (target : Nat) : Lane :=
  if L.bit Reg.SYS_MODE_REQ_GO then L.set Reg.SYS_MODE_REQ_TARGET target
  else
    let L1 := (L.set Reg.SYS_MODE_REQ_TARGET target).set Reg.SYS_MODE_REQ_GO 1
    if !L1.bit Reg.SYS_MODE_CFG_FW_SUPER then L1.answerReq ⟨1, 0, target, .firmware⟩ 0x02
    else if L1.isCommand then L1.submit ⟨1, 0, target, .firmware⟩
    else match L1.commandLane with
      | none => L1.answer .firmware 0x04 0x0A none []
      | some c =>
        if !L1.bit Reg.HL_ELEM_EN || 16 ≤ L1.hl.relayQ.length then L1.answer .firmware 0x04 0x0A none []
        else
          let m := [relayWord false L1.me 0 0 (2 ^ laneNum c) true 0xFF, 0x04 * 2 ^ 24 + 1, target, 0, 0, 0, 0, 0]
          { L1.relayPush m with md := { L1.md with fwAt := some L1.now } }

/-- MODE_REQUEST (R111). -/
def execModeRequest (x : LaneId) (target : Fin 8) (s : State) : Out := onUp x (fun L => L.modeRequest target) s

end Sys2Proof.Machine
end

