-- ==== Sys2Proof/Machine/Rejoin.lean ====
section
/-! DEFINITION. Agreed inputs (R23 to R31, R439, R710), rejoin and formation (Table 1.4, R70 to R77, R114 to R122, R705), and the outer
tick. -/

namespace Sys2Proof.Machine

/-! ### Agreed inputs -/

/-- The input elements of the template, in manifest order (R24). -/
def Lane.inputs (L : Lane) : List Nat := (L.elemsOf .lane (L.ownIndex .lane)).filter fun e => (L.desc .lane e).input

/-- The copies a landing brings: AGE 0 and the tag of the next outer tick `k` (R25, R439). The tag of a lane's berth is its ITAG byte. A
lane in rejoin stage 1 or 2 marks its inputs implausible (Lane.implBits), so that they take part from stage 3 (Table 1.5). -/
def Lane.landCopies (L : Lane) (k : Nat) : Lane :=
  L.forEach allLanes fun y L =>
    match L.xf.got.get y with
    | none => L
    | some bs =>
      if (bs.getD 1 0).toNat ≠ k % 2 ^ 8 then L
      else L.forEach (List.range (min 16 L.inputs.length)) fun i L =>
        let e := L.inputs.getD i 0
        if L.impFresh y e then
          let c : InCopy := ⟨sgn 32 (L.get (Reg.XF_IMP_WORD (laneNum y) (L.impBase .lane e))), k, !L.bit (Reg.XF_IMPS_IMPL (laneNum y) e)⟩
          { L with xf := { L.xf with copies := spSet {} (16 * laneNum y + i) c L.xf.copies } }
        else L

def Lane.inCopy (L : Lane) (y : LaneId) (i : Nat) : InCopy := spGet {} (16 * laneNum y + i) L.xf.copies
def Lane.exclOf (L : Lane) (y : LaneId) (i : Nat) : Excl := spGet {} (16 * laneNum y + i) L.xf.excl
def Lane.setExcl (L : Lane) (y : LaneId) (i : Nat) (e : Excl) : Lane :=
  { L with xf := { L.xf with excl := spSet {} (16 * laneNum y + i) e L.xf.excl } }

/-- Whether lane `y`'s copy of input `i` stands for cycle `k`. -/
def Lane.hasCopy (L : Lane) (k : Nat) (y : LaneId) (i : Nat) : Bool := (L.inCopy y i).ok && (L.inCopy y i).tag = k

/-- The agreed value of the elements taking part (R26 to R29). -/
def agreedValue (vs : List Int) (old : Int) : Int :=
  match vs with
  | [a, b, c] => median3 a b c
  | [a, b] => mean2 a b
  | [a] => a
  | _ => old

/-- Exclusion and admission of one lane's element of input `i` (R30, R31), with the agreed value and how many took part. -/
def Lane.trackExcl (L : Lane) (k i : Nat) (v : Int) (n : Nat) (y : LaneId) : Lane :=
  let tol := L.get (Reg.XF_AGR_TOL_TOL i)
  let e := L.exclOf y i
  let persist := L.get Reg.XF_AGR_CFG_PERSIST
  let far := decide ((tol : Int) < ((L.inCopy y i).value - v).natAbs)
  if tol = 0 then L
  else if e.out then
    if L.hasCopy k y i && !far then
      L.setExcl y i (if persist ≤ e.count + 1 then {} else { e with count := e.count + 1 })
    else L.setExcl y i { e with count := 0 }
  else if n = 3 && far then
    if persist ≤ e.count + 1 then (L.setExcl y i { out := true, count := 0 }).count Reg.XF_CNT_EXCL_COUNT
    else L.setExcl y i { e with count := e.count + 1 }
  else L.setExcl y i { e with count := 0 }

/-- A change of XF_AGR_TOL[i]: its counts restart, and with 0 every element takes part again (R31). -/
def Lane.toleranceChanged (L : Lane) (i : Nat) : Lane :=
  L.forEach allLanes fun y L => L.setExcl y i { out := (L.exclOf y i).out && L.get (Reg.XF_AGR_TOL_TOL i) ≠ 0, count := 0 }

/-- The agreed set of cycle `k` (R25 to R31, R439, R710). -/
def Lane.agree (L : Lane) (k : Nat) : Lane :=
  let n := min (L.get Reg.XF_AGR_CFG_N_IN) L.inputs.length
  let part (i : Nat) : List LaneId := allLanes.filter fun y => L.hasCopy k y i && !(L.exclOf y i).out
  let value (i : Nat) : Int := agreedValue ((part i).map fun y => (L.inCopy y i).value) (sgn 32 (nth L.xf.set.agr i))
  let agr := (List.range 16).map fun i => if i < n then uns 32 (value i) else 0
  let lost := (List.range n).any fun i => (part i).isEmpty
  let L1 := L.forEach (List.range n) fun i M => M.forEach allLanes fun y M => M.trackExcl k i (value i) (part i).length y
  let fresh := match L.targetInput with
    | none => false
    | some i => decide (i < n) && !(part i).isEmpty
  let L2 : Lane := { L1 with
    xf := { L1.xf with set := ⟨k % 2 ^ 32, agr⟩, copies := [], single := (List.range n).any fun i => (part i).length = 1 }
    md := { L1.md with
      inputLost := if lost then min 16 (L1.md.inputLost + 1) else 0
      targetAt := if fresh then some L1.now else L1.md.targetAt } }
  if lost then L2.raise 6 else L2

/-! ### Rejoin stages 2 and 3, and formation -/

/-- Whether a bridge is held off by a latched gate-drive fault (R350). -/
def Lane.latchedOff (L : Lane) (b : Nat) : Bool := L.bit (Reg.GD_FLT_SHORT b) || L.bit Reg.GD_STAT_LINK

/-- The exit condition of stage 3 (Table 1.4). -/
def Lane.driveDone (L : Lane) : Bool :=
  let ok (b : Nat) : Bool := L.bit (Reg.FC_BR_STAT_DRIVE_OK b)
  (ok 0 || ok 1) && (ok 0 || L.latchedOff 0) && (ok 1 || L.latchedOff 1)

/-- Stage 3 begins: catch-spin is requested on both bridges (R708). -/
def Lane.enterDrive (L : Lane) : Lane :=
  let L1 := L.setStage 3
  (({ L1 with xf := { L1.xf with okSeen := ⟨false, false⟩ } }).rejoinCatch 0).rejoinCatch 1

/-- The digest of a lane as it landed; its own as it stands. -/
def Lane.digestOf (L : Lane) (y : LaneId) : Option Nat :=
  if y = L.me then some L.digest else if L.freshSrc y 2 2 then some (L.impWord y 2 2 0) else none

/-- The formation lead (R118): the first in precedence with DRIVE_OK and a matching digest. -/
def Lane.formationLead (L : Lane) : Option LaneId :=
  L.precedence.find? fun y => (L.inDrive 0 y || L.inDrive 1 y) && L.digestOf y = some L.digest

/-- Whether the other present lanes have set DRIVE_OK (R118). -/
def Lane.othersDrive (L : Lane) : Bool :=
  ((others L.me).filter fun y => L.arrived y && L.shows y fun h => !bitAt h hRefuge).all fun y => L.inDrive 0 y || L.inDrive 1 y

/-- When the lane may publish a formation cycle (R118): at once, or at the end of FORM_WAIT. -/
def Lane.formationDue (L : Lane) : Option Nat :=
  if L.get Reg.XF_REJOIN_STAGE = 3 && L.mode = 1 && L.driveDone && L.xf.formF.isNone && !L.xf.formPub && L.commandLane.isNone &&
      !L.md.refuge && L.formationLead = some L.me then
    if L.othersDrive then some L.now
    else L.xf.driveAt.map (· + L.get Reg.SYS_MODE_CFG_FORM_WAIT * msTicks)
  else none

/-- FORMATION_PUBLISH (R119): F is published from the coming sailing on. -/
def execFormationPublish (x : LaneId) (s : State) : Out :=
  atDue x Lane.formationDue (fun L => { L with xf := { L.xf with formPub := true } }) s

/-- FORM of the coming sailing (R119): F is the first multiple of 64 at least 16 cycles after publication. -/
def Lane.formElement (L : Lane) (cycle : Nat) : Lane :=
  let L1 : Lane := if L.xf.formPub then
      { L with xf := { L.xf with formPub := false, formLead := true, formF := some ((cycle + 16 + 63) / 64 * 64 % 2 ^ 32) } }
    else L
  let w := match L1.xf.formLead, L1.xf.formF with
    | true, some f => f % 2 ^ 32
    | _, _ => 0xFFFFFFFF
  L1.refreshSrc .lane 3 1 [w] false

/-- F read from the lead's FORM element at its publication (R119, R120); a differing digest then excludes the lane from that formation
(R122). -/
def Lane.readForm (L : Lane) : Lane :=
  if L.xf.formF.isSome then L
  else
    match (others L.me).find? fun y => L.freshSrc y 3 1 && L.impWord y 3 1 0 ≠ 0xFFFFFFFF with
    | none => L
    | some y =>
      let c := L.impWord y 3 1 0
      if L.xf.formOut = some c then L
      else if L.digestOf y = some L.digest then { L with xf := { L.xf with formF := some c } }
      else ({ L with xf := { L.xf with formOut := some c } }).raise 4

/-- Stage 5 begins (Table 1.4): IN_STEP set, COUNT 0. -/
def Lane.enterQualify (L : Lane) : Lane :=
  (((L.setStage 5).set Reg.XF_REJOIN_COUNT 0).set Reg.XF_VSTAT_IN_STEP 1).set Reg.XF_VSTAT_ADVISORY 1

/-- What a landing moves in stages 2 and 3. In PARK the lane holds at the start of stage 3 (R636). -/
def Lane.landStages (L : Lane) : Lane :=
  let run := if L.xf.valleyBad then 0 else min 64 (L.xf.alignRun + 1)
  let st := L.get Reg.XF_REJOIN_STAGE
  let L1 : Lane := { L with xf := { L.xf with valleyBad := false, alignRun := run } }
  let L0 := if (st = 2 || st = 3) && !L1.md.refuge && L1.commandLane.isNone && L1.mode = 1 then L1.readForm else L1
  if L0.md.refuge then L0
  else if st = 2 then if run = 64 then L0.enterDrive else L0
  else if st = 3 && L0.driveDone && L0.xf.formF.isNone && L0.commandLane.isSome && L0.commandLane ≠ some L0.me then L0.setStage 4
  else L0

/-! ### The state snapshot (R72, R705) -/

/-- Whether some reachable lane asks for a snapshot (R72). -/
def Lane.snapshotNeeded (L : Lane) : Bool :=
  (others L.me).any fun y => L.shows y fun h => !bitAt h hRefuge && !bitAt h hInStep && (bitAt h 19 || bitAt h 20)

/-- STATE of the coming sailing `n`, in which this lane claims or not: the part of the series in progress, else zeros (R37, R72). -/
def Lane.stateElement (L : Lane) (n : Nat) : Lane :=
  let sends := L.bit Reg.XF_VSTAT_SELF_CMD
  let start := n % 8 = 0 && sends && L.snapshotNeeded
  let L1 : Lane :=
    if start then { L with xf := { L.xf with series := some ⟨n, L.me, L.xf.kept.cycle, L.xf.kept.agr⟩ } }
    else match L.xf.series with
      | none => L
      | some q => if sends && q.first ≤ n && n < q.first + 8 then L else { L with xf := { L.xf with series := none } }
  let ws := match L1.xf.series with
    | none => List.replicate 16 0
    | some q => (List.range 16).map fun i => nth q.words (16 * (n - q.first) + i)
  L1.refreshSrc .lane 2 7 ws false

/-- The snapshot loaded, and the replay begun (R705): more than 32 cycles, or a cycle not recorded, discards it. -/
def Lane.import72 (L : Lane) (j : Nat) (ws : List Nat) : Lane :=
  let d := (L.xf.tick.getD 0 + 2 ^ 32 - j) % 2 ^ 32
  let m := (j + 1) % 2 ^ 32
  let L0 : Lane := { L with xf := { L.xf with gather := none } }
  if 32 < d || !(d = 0 || L.xf.record.any fun a => a.cycle = m) then L0 else (L0.loadImport ws).replayCycle m

/-- Whether, as the berths of the sailing before stand, some lane's health word asks for a snapshot: only then does the coming sailing begin a
series (R72; log entry 158). -/
def Lane.asksSnapshot (L : Lane) : Bool :=
  allLanes.any fun y =>
    let h := L.healthOf y
    (L.xf.got.get y).isSome && !bitAt h hRefuge && !bitAt h hInStep && (bitAt h 19 || bitAt h 20)

/-- What the landing of sailing `n` brings an importing lane (R72, R76). -/
def Lane.gatherPart (L : Lane) (n : Nat) : Lane :=
  if L.get Reg.XF_REJOIN_STAGE ≠ 4 || L.md.refuge || L.xf.replay.isSome || L.xf.replayRun then L
  else match L.commandLane with
    | none => { L with xf := { L.xf with gather := none } }
    | some c =>
      let match72 := !L.xf.waitDigest || L.digestOf c = some L.digest
      let L1 : Lane :=
        if n % 8 = 0 && L.xf.asked && match72 && L.impPresent c ((L.findElem .lane 2 1).getD 0) then
          { L with xf := { L.xf with gather := some ⟨n, c, L.impWord c 2 1 0, []⟩, waitDigest := false } }
        else L
      match L1.xf.gather with
      | none => L1
      | some g =>
        let part := (List.range 16).map fun i => L1.impWord c 2 7 i
        if g.lane ≠ c || !L1.freshSrc c 2 7 || n ≠ g.first + g.words.length / 16 then { L1 with xf := { L1.xf with gather := none } }
        else if n = g.first + 7 then L1.import72 g.cycle (g.words ++ part)
        else { L1 with xf := { L1.xf with gather := some { g with words := g.words ++ part } } }

/-! ### The outer tick -/

/-- The number of the outer tick that comes next. -/
def Lane.nextTick (L : Lane) : Nat :=
  match L.xf.tick with
  | none => (L.ferry + L.outerPeriod - 1) / L.outerPeriod
  | some k => max (k + 1) (L.ferry / L.outerPeriod)

/-- When the next outer tick falls: XF enabled and ferry time adopted. -/
def Lane.tickDue (L : Lane) : Option Nat :=
  if L.xf.adopted && L.bit Reg.XF_CTRL_EN then some (L.localOf (L.nextTick * L.outerPeriod)) else none

/-- The mode whose row of Table 2.2 says whether targets are acted on: the module's, which a lane not yet at rejoin stage 6 takes from the
command lane (R105; log entry 163). -/
def Lane.moduleMode (L : Lane) : Nat :=
  if L.get Reg.XF_REJOIN_STAGE = 6 then L.mode
  else match L.commandLane with
    | none => L.mode
    | some c => L.publishedMode c

/-- The agreed set as the outer law gets it: in a mode that does not act on targets, only the vehicle-still flag of the target word (R105,
R106). -/
def Lane.actedSet (L : Lane) : AgrSet :=
  if permitted .motion L.moduleMode then L.xf.set
  else match L.targetInput with
    | none => L.xf.set
    | some i => { L.xf.set with agr := listPut 0 (nth L.xf.set.agr i % 2) i L.xf.set.agr }

/-- The agreed set written into the input window, except while a replay runs (R439, R705); in stage 4 it is recorded, the last 32. -/
def Lane.deliverSet (L : Lane) : Lane :=
  let a := L.actedSet
  let L1 : Lane := if L.get Reg.XF_REJOIN_STAGE = 4 then
      { L with xf := { L.xf with record := (L.xf.record ++ [a]).drop (L.xf.record.length + 1 - 32) } }
    else L
  if L1.xf.replay.isSome then L1 else L1.writeSet a

/-- Formation at cycle F (R120), and the count of stage 5 (Table 1.4, R76). -/
def Lane.stageTick (L : Lane) (k : Nat) : Lane :=
  let st := L.get Reg.XF_REJOIN_STAGE
  if L.md.refuge then L
  else if st = 3 then
    match L.xf.formF with
    | none => L
    | some f =>
      let d := (f + 2 ^ 32 - k % 2 ^ 32) % 2 ^ 32
      if 0 < d && d < 2 ^ 31 then L
      else
        let L1 : Lane := { L with xf := { L.xf with formF := none, formLead := false } }
        if d = 0 && L1.driveDone then (L1.loadImport L1.le.initBlock).enterQualify else L1
  else if st = 5 then
    let c := L.get Reg.XF_REJOIN_COUNT + 1
    if c < 2048 then L.set Reg.XF_REJOIN_COUNT c
    else
      let L1 := ((L.set Reg.XF_REJOIN_COUNT 2048).set Reg.XF_VSTAT_QUALIFIED 1).setStage 6
      let L2 : Lane := { L1 with xf := { L1.xf with justQual := true } }
      L2.adoptPublished
  else L

/-- The outer tick of cycle `k` (R436, Table 9.2): TS event 17, the mode due, formation, the agreed set, SELF_OK's cycles (R555), the
standstill sample (R106), the deputy's check (R518), and the LE's scheduled changes. The LE's own firing is TRIGGER_FIRING. -/
def Lane.outerTick (L : Lane) (k : Nat) : Lane :=
  let L1 : Lane := { L with xf := { L.xf with tick := some k }, fm := { L.fm with selfHold := L.fm.selfHold - 1 } }
  let L2 := ((L1.event 17).modeTick k).stageTick k
  let L3 := ((L2.agree k).deliverSet).sampleRest
  let L4 := (((L3.checkRestraint 0).checkRestraint 1).leOuterTick k).showVote
  { L4 with xf := { L4.xf with tick := some k } }

end Sys2Proof.Machine
end

