-- ==== Sys2Proof/Machine/Berth.lean ====
section
/-! DEFINITION. Berths of both ferries (10_ferry.md): manifests enabled (R457), commits (R460, R487), the bytes of a berth (Table 10.5,
R461 to R468), and its landing (R456, R463). -/

namespace Sys2Proof.Machine

/-! ### Manifests enabled (R457) -/

def execXfEnable (x : LaneId) (v : Word) (s : State) : Out := onUp x (fun L => L.xfEnable v.toNat) s

def execVfEnable (x : LaneId) (v : Word) (s : State) : Out := onUp x (fun L => L.vfEnable v.toNat) s

/-! ### Commits (R460, R487, R488) -/

/-- A word of the export area. -/
def Lane.expWord (L : Lane) (f : Ferry) (w : Nat) : Nat :=
  if w < 128 then
    match f with
    | .lane => L.get (Reg.XF_EXP_WORD w)
    | .vehicle => L.get (Reg.VF_EXP_WORD w)
  else 0

/-- Whether a commit of an element is accepted (R487): a manifest is accepted, and the element is one of its firmware elements. -/
def Lane.mayCommit (L : Lane) (f : Ferry) (e : Nat) : Bool :=
  L.manValid f && decide (e < L.manElems f) && (L.desc f e).src = 0

/-- A commit of the back buffer of element `e`; the refusal source is given. An element of another node's berth has no buffer here. -/
def Lane.commitElem (L : Lane) (f : Ferry) (e : Nat) (impl : Bool) (src : Nat) : Lane :=
  if L.mayCommit f e then
    if !(L.elemsOf f (L.ownIndex f)).contains e then L
    else L.refresh f e ((List.range (L.desc f e).words).map fun i => L.expWord f (L.expBase f e + i)) (impl && (L.desc f e).input)
  else L.raise src

/-- XF_COMMIT (R460, R487). -/
def Lane.xfCommit (L : Lane) (v : Nat) : Lane := L.commitElem .lane (Reg.XF_COMMIT_ELEM.of v) (Reg.XF_COMMIT_IMPL.of v = 1) 101
def execXfCommit (x : LaneId) (v : Word) (s : State) : Out := onUp x (fun L => L.xfCommit v.toNat) s

/-- VF_COMMIT (R460, R488). -/
def Lane.vfCommit (L : Lane) (v : Nat) : Lane := L.commitElem .vehicle (Reg.VF_COMMIT_ELEM.of v) (Reg.VF_COMMIT_IMPL.of v = 1) 116
def execVfCommit (x : LaneId) (v : Word) (s : State) : Out := onUp x (fun L => L.vfCommit v.toNat) s

/-! ### The bytes of a berth (Table 10.5, R461, R466) -/

/-- Bytes put into a list at a position. -/
def putBytes (l : List Byte) (i : Nat) (d : List Byte) : List Byte := l.take i ++ d ++ l.drop (i + d.length)

/-- A list of words cut or filled with 0 to `n` words. -/
def fitWords (ws : List Nat) (n : Nat) : List Nat := (List.range n).map (nth ws)

/-- The value of a SLEW8 source. -/
def slewValue (coding w : Nat) : Int := if coding = 2 then sgn 16 w else sgn 32 w

/-- The element that the anchor slot carries in sailing `n` (R466). -/
def Lane.anchorOf (L : Lane) (f : Ferry) (i n : Nat) : Option Nat :=
  if L.manSlew f then ((L.elemsOf f i).filter fun e => isSlew (L.desc f e).coding)[n % 16]? else none

/-- One element as it is sent: its AGE and coded data put into the bytes, its state moved on (R461, R466, R468). -/
def Lane.sendElem (L : Lane) (f : Ferry) (departure : Nat) (anchor : Option Nat) (bs : List Byte) (e : Nat) : Lane × List Byte :=
  let d := L.desc f e
  let el := L.elem f e
  let age := if el.fresh then 0 else min 255 (el.age + 1)
  let L1 := L.setElem f e { el with age := age, fresh := false }
  let ws := fitWords el.words d.words
  if isSlew d.coding then
    let v := slewValue d.coding (nth ws 0)
    if anchor = some e then (L1.setSlew f true e (some v), putBytes bs d.offset (beBytes 1 age ++ [0]))
    else match L.slew f true e with
      | none => (L1, putBytes bs d.offset (beBytes 1 age ++ [0]))
      | some r =>
        let step := clampI (-127) 127 (v - r)
        (L1.setSlew f true e (some (r + step)), putBytes bs d.offset (beBytes 1 age ++ beBytes 1 (uns 8 step)))
  else (L1, putBytes bs d.offset (beBytes 1 age ++ codeBytes d.coding departure ws))

/-- All elements of a berth in manifest order. -/
def Lane.sendElems (L : Lane) (f : Ferry) (departure : Nat) (anchor : Option Nat) (bs : List Byte) : List Nat → Lane × List Byte
  | [] => (L, bs)
  | e :: t =>
    let r := L.sendElem f departure anchor bs e
    r.1.sendElems f departure anchor r.2 t

/-- IMPL: bit `i` for the berth's i-th input element (Table 10.5). In rejoin stages 1 and 2 the lane marks every input of its lane berth, so
that its elements take part from stage 3 (Table 1.5; log entry 160). -/
def Lane.implBits (L : Lane) (f : Ferry) (i : Nat) : Nat :=
  let ins := (L.elemsOf f i).filter fun e => (L.desc f e).input
  let early := f = .lane && decide (L.get Reg.XF_REJOIN_STAGE < 3)
  (List.range (min 16 ins.length)).foldl (fun a k => a + b2n (early || (L.elem f (ins.getD k 0)).impl) * 2 ^ k) 0

/-- CHECK over the sailing number of the frame and the berth's other bytes (R453). -/
def berthCheck (n : Nat) (bs : List Byte) : Nat := crc32c (beBytes 4 (n % 2 ^ 32) ++ bs.take (bs.length - 4))

/-- The own berth of sailing `n`, and the lane with its elements sent. -/
def Lane.makeBerth (L : Lane) (f : Ferry) (node n itag : Nat) : Lane × List Byte :=
  let i := L.ownIndex f
  let len := L.berthLen f i
  let anchor := L.anchorOf f i n
  let head := beBytes 1 (0x80 + node) ++ beBytes 1 itag ++ beBytes 2 (L.implBits f i)
  let slot := if L.manSlew f then
      match anchor with
      | none => [0xFF, 0, 0, 0, 0]
      | some e => beBytes 1 e ++ beBytes 4 (uns 32 (slewValue (L.desc f e).coding (nth (L.elem f e).words 0)))
    else []
  let bare := putBytes (List.replicate len 0) 0 (head ++ slot)
  let r := L.sendElems f (n * 2500) anchor bare (L.elemsOf f i)
  (r.1, putBytes r.2 (len - 4) (beBytes 4 (berthCheck n r.2)))

/-- Whether a berth's bytes are present: OWNER names its node and the check passes (R454). -/
def berthOwner (node : Nat) (bs : List Byte) : Bool := (bs.getD 0 0).toNat = 0x80 + node
def berthPasses (n : Nat) (bs : List Byte) : Bool := ofBe (bs.drop (bs.length - 4)) = berthCheck n bs

/-! ### Landing (R456, R462, R463, R466, R468) -/

/-- The words of TIME10 data: word 0 as coded, then per edge the departure less the offset (Table 10.8; log entry 14). -/
def timeWords (departure : Nat) (bs : List Byte) : List Nat :=
  let w0 := [0, 1, 2, 3].foldl (fun a i => a + (bs.getD (1 + 3 * i) 0).toNat % 8 * 2 ^ (8 + 3 * i)) (bs.getD 0 0).toNat
  w0 :: [0, 1, 2, 3].map fun i => uns 32 ((departure : Int) - (ofBe (slice bs (2 + 3 * i) 2) : Nat))

/-- An element landed as decoded: its words, age and status. -/
def Lane.putImp (L : Lane) (f : Ferry) (i e age : Nat) (decoded impl : Bool) (ws : List Nat) : Lane :=
  let base := L.impBase f e
  let L1 := L.forEach (List.range ws.length) fun k L => L.set (impFld f i (base + k)) (nth ws k)
  (((L1.set (impsAge f i e) age).set (impsPresent f i e) 1).setBool (impsDecoded f i e) decoded).setBool (impsImpl f i e) impl

/-- One element of a berth that is present. -/
def Lane.landElem (L : Lane) (f : Ferry) (i departure : Nat) (bs : List Byte) (e : Nat) : Lane :=
  let d := L.desc f e
  let age := (bs.getD d.offset 0).toNat
  let data := slice bs (d.offset + 1) (codedLen d.coding d.words)
  let ins := (L.elemsOf f i).filter fun k => (L.desc f k).input
  let impl := d.input && bitAt (ofBe (slice bs 2 2)) ((ins.idxOf? e).getD 16)
  if isSlew d.coding then
    let key := 128 * i + e
    let anchored := L.manSlew f && (bs.getD 4 0).toNat = e
    let v := if anchored then some (sgn 32 (ofBe (slice bs 5 4))) else (L.slew f false key).map fun r => r + sgn 8 (ofBe data)
    match v with
    | none => L.putImp f i e 255 false impl []
    | some r => (L.setSlew f false key (some r)).putImp f i e age true impl [uns 32 r]
  else if d.coding = 5 then L.putImp f i e age true impl (timeWords departure data)
  else L.putImp f i e age true impl (decodeWords d.coding d.words data)

/-- An element of an absent berth keeps its words and shows PRESENT clear (R463); a SLEW8 element's state is dropped, and until the next anchor
it shows DECODED clear and AGE 255 (R468). -/
def Lane.dropElem (L : Lane) (f : Ferry) (i e : Nat) : Lane :=
  let L1 := L.set (impsPresent f i e) 0
  if isSlew (L.desc f e).coding then L1.dropSlew f i e else L1

/-- A berth lands, or is absent. -/
def Lane.landBerth (L : Lane) (f : Ferry) (i departure : Nat) (b : Option (List Byte)) (absent : Fld) : Lane :=
  match b with
  | some bs => L.forEach (L.elemsOf f i) fun e L => L.landElem f i departure bs e
  | none => (L.count absent).forEach (L.elemsOf f i) fun e L => L.dropElem f i e

/-! ### Registers of XF that have rules of their own (R48, R88, R75) -/

/-- PRECEDENCE_WRITE (R48, R88, R704): refused as a whole unless FIRST, SECOND and THIRD form a permutation and may change. -/
def Lane.writePrecedence (L : Lane) (v : Nat) : Lane :=
  let ord := [Reg.XF_VCTRL_FIRST, Reg.XF_VCTRL_SECOND, Reg.XF_VCTRL_THIRD]
  let fs := Reg.XF_VCTRL_LOCK :: Reg.XF_VCTRL_REVERT :: ord
  let new := ord.map (·.of v)
  if !(new.contains 0 && new.contains 1 && new.contains 2) then L.raise 8
  else if L.changes ord v && (!L.permits .precedence || L.bit Reg.XF_VCTRL_LOCK) then L.raise 8
  else if L.bit Reg.XF_VCTRL_LOCK && L.changesLocked fs v then L.raise 8
  else L.writeFlds fs v

def execPrecedenceWrite (x : LaneId) (v : Word) (s : State) : Out := onUp x (fun L => L.writePrecedence v.toNat) s

/-- IMPORT_WRITE (R75). No LOCK bit names the import list. -/
def Lane.writeImport (L : Lane) (i v : Nat) : Lane :=
  let fs := [Reg.XF_IMPORT_EN i, Reg.XF_IMPORT_COUNT i, Reg.XF_IMPORT_BASE i]
  let n := (Reg.XF_IMPORT_COUNT i).of v + 1
  let base := (Reg.XF_IMPORT_BASE i).of v
  let rest := (List.range 8).filter fun j => j ≠ i && L.bit (Reg.XF_IMPORT_EN j)
  let len (j : Nat) : Nat := L.get (Reg.XF_IMPORT_COUNT j) + 1
  let total := rest.foldl (fun a j => a + len j) n
  let clash := rest.any fun j => decide (base < L.get (Reg.XF_IMPORT_BASE j) + len j) && decide (L.get (Reg.XF_IMPORT_BASE j) < base + n)
  if (Reg.XF_IMPORT_EN i).of v = 1 && (decide (128 < total) || decide (base < 0x80) || decide (0x1000 < base + n) || clash) then L.raise 101
  else L.writeFlds fs v

def execImportWrite (x : LaneId) (i : Fin 8) (v : Word) (s : State) : Out := onUp x (fun L => L.writeImport i v.toNat) s

end Sys2Proof.Machine
end

