-- ==== Sys2Proof/Machine/Fm.lean ====
section
/-! DEFINITION. Fault collection (13_faults.md): forced events (R567), recovery (R564 to R566), the trap's acknowledgement (R561) and
the primary error ball (R557). Raising, counting and reacting are in Sys2Proof/Machine/Events.lean. -/

namespace Sys2Proof.Machine

/-- A write of force bits (R567): each bit of a source that exists raises one forced event while FENABLE is set. -/
def Lane.force (L : Lane) (g v : Nat) : Lane :=
  if v % 2 ^ 32 = 0 then L
  else if !L.bit Reg.FM_CTRL_FENABLE then L.set Reg.FM_STAT_FREFUSED 1
  else L.forEach ((bitList v 32).filter fun i => sourceExists (32 * g + i)) fun i L => L.raiseAs (32 * g + i) 0 true

/-- Whether a source's cause is held at this instant: by its condition, or in the tick of its event (R554). -/
def Lane.held554 (L : Lane) (s : Nat) : Bool := L.causeHeld s || spGet 0 s L.fm.busyAt = L.now + 1

/-- A write of 1s to status bits: each clears unless its cause is held (R564). -/
def Lane.clearStatus (L : Lane) (g v : Nat) : Lane :=
  L.forEach ((bitList v 32).filter fun i => !L.held554 (32 * g + i)) fun i L => L.setStatus (32 * g + i) false

/-- The trap is taken, by both cores of the pair or by the lead of a split one (R560): its set is fixed and SRC names the lowest source of it
(R561). -/
def Lane.takeTrap (L : Lane) : Lane :=
  if !L.cp.trap then L
  else
    let c : Option Word := some 0x80000010
    let causes := if L.lockstep then ⟨c, c⟩ else L.cp.mcause.set (L.get Reg.CP_STAT_LEAD) c
    let L1 := { L with cp := { L.cp with trap := false, mcause := causes }, fm := { L.fm with trapSet := some L.fm.trapBits } }
    match L.fm.trapBits with
    | [] => L1
    | s :: t => L1.set Reg.FM_NMT_SRC (t.foldl min s)

/-- ACK clears the bits of the set; bits still set raise the trap again at once (R561). -/
def Lane.ackTrap (L : Lane) : Lane :=
  match L.fm.trapSet with
  | none => L
  | some l =>
    let rest := L.fm.trapBits.filter fun s => !l.contains s
    let L1 := ({ L with fm := { L.fm with trapSet := none, trapBits := rest } }).set Reg.FM_NMT_SRC 0
    if rest.isEmpty then L1 else { L1.wakeCores with cp := { L1.wakeCores.cp with trap := true } }

/-- The primary ball rises once 100 µs have passed since the latest event with E and PREL was written after it (R557). -/
def Lane.settleErrp (L : Lane) : Lane :=
  if L.errpLow then L else { L with fm := { L.fm with lastE := none, prel := false } }

/-- A write of PREL (R557): it releases the events that came before it, not one of the same tick (Table 13.5). -/
def Lane.writePrel (L : Lane) : Lane :=
  if L.fm.lastE.any (· < L.now) then ({ L with fm := { L.fm with prel := true } }).settleErrp else L

/-- The instant 100 µs after the latest event with E. -/
def Lane.errpDue (L : Lane) : Option Nat := L.fm.lastE.map (· + 100 * usTicks)

/-- The quiet periods of Table 13.2, in ms. -/
def quietMs (c : Nat) : Nat := [1, 2, 5, 10, 20, 50, 100, 200, 500, 1000, 2000, 5000].getD c 10000

/-- The end of a source's quiet period: under compatibility recovery, counted from its event or the end of its cause (R565). -/
def Lane.quietDue (L : Lane) (s : Nat) : Option Nat :=
  if L.bit (Reg.FM_REACT_COMPAT s) && L.status s && !L.causeHeld s then
    some (spGet 0 s L.fm.busyAt - 1 + quietMs (L.get (Reg.FM_REACT_QUIET s)) * msTicks)
  else none

/-- An automatic clearing (R565, R566). -/
def Lane.quietEnd (L : Lane) (s : Nat) : Lane :=
  let L1 := (L.setStatus s false).count (Reg.FM_REC_REC s)
  let now := match L.fm.recovered with
    | some (t, l) => if t = L.now then l else []
    | none => []
  { L1 with fm := { L1.fm with recChanged := true, recovered := some (L.now, (s, L.get (Reg.FM_REC_REC s)) :: now) } }

/-- FM_STAT, FM_BALL and FM_CAUSE as the lane stands (Tables 13.7 and 13.8): the registers are views. -/
def Lane.showFm (L : Lane) : Lane :=
  let n (k : Bool) : Nat := countIf (fun s => srcIsS s = k && L.status s) (List.range 192)
  let L1 := ((L.setBool Reg.FM_STAT_ERRS_LOW L.errsLow).setBool Reg.FM_STAT_ERRP_LOW L.errpLow).setBool Reg.FM_STAT_TRAP_PEND
    (!L.fm.trapBits.isEmpty)
  let L2 := ((L1.set Reg.FM_STAT_SCOUNT (n true)).set Reg.FM_STAT_OCOUNT (n false)).setBool Reg.FM_BALL_BOOTHOLD
    (L.run = .held || L.mode = 0)
  L2.forEach (List.range 6) fun g M =>
    M.set (Reg.FM_CAUSE_CAUSE g) ((List.range 32).foldl (fun a i => a + b2n (L.held554 (32 * g + i)) * 2 ^ i) 0)

/-- The reactions an allowed write of FM_REACT may hold: B and L only where R559 allows them. -/
def reactMask (s v : Nat) : Nat :=
  let v1 := if (blockOf s).isSome then v else clrBit v 2
  let v2 := if noLaneReset s || !sourceExists s then clrBit v1 3 else v1
  v2

/-- A write of FM_REACT[s] (R559, R704). -/
def Lane.writeReact (L : Lane) (s v : Nat) : Lane :=
  let fs := [Reg.FM_REACT_COMPAT s, Reg.FM_REACT_QUIET s, Reg.FM_REACT_LINE s, Reg.FM_REACT_E s, Reg.FM_REACT_L s,
    Reg.FM_REACT_B s, Reg.FM_REACT_T s, Reg.FM_REACT_I s]
  let w := reactMask s v
  if L.bit Reg.FM_CTRL_LOCK && L.changes fs w then L else L.writeFlds fs w

/-! ### Meanings -/

/-- FM_FORCE (R567). -/
def execFmForce (x : LaneId) (g : Fin 6) (v : Word) (s : State) : Out := onAwake x (·.force g v.toNat) s

/-- FM_STATUS_CLEAR (R564). -/
def execFmStatusClear (x : LaneId) (g : Fin 6) (v : Word) (s : State) : Out := onAwake x (·.clearStatus g v.toNat) s

/-- FM_NMT_ACK (R561). -/
def execFmNmtAck (x : LaneId) (s : State) : Out := onAwake x (·.ackTrap) s

/-- FM_BALL_PREL (R557). -/
def execFmBallPrel (x : LaneId) (s : State) : Out := onAwake x Lane.writePrel s

/-- ERRP_HOLD_EXPIRY (R557). -/
def execErrpHoldExpiry (x : LaneId) (s : State) : Out := awakeAtDue x (·.errpDue) (·.settleErrp) s

/-- QUIET_PERIOD_END (R565, R566). -/
def execQuietPeriodEnd (x : LaneId) (src : Fin 192) (s : State) : Out := awakeAtDue x (·.quietDue src) (·.quietEnd src) s

end Sys2Proof.Machine
end

