-- ==== Sys2Proof/Machine/Gd.lean ====
section
/-! DEFINITION. Gate drive and bridge protection (07_gate_drive.md): switch inputs with interlock and dead time, edge profiles, supply
supervision, short detection and sequences, and the enable ball. Times are ticks of 10 ns. -/

namespace Sys2Proof.Machine

/-! ### Switches (R323 to R334) -/

/-- A bridge's sequence anchor, if one runs. -/
def Lane.shortOf (L : Lane) (b : Nat) : Option ShortSeq := L.gd.short.get b
def Lane.setShort (L : Lane) (b : Nat) (q : Option ShortSeq) : Lane := { L with gd := { L.gd with short := L.gd.short.set b q } }

/-- Whether GD takes a turn-on request of bridge `b` (R327, R340, R347, R350, R353, R356); FC and direct mode drive inputs only in ZERO,
RUN and DIRECT (Table 5.4). -/
def Lane.gdAccepts (L : Lane) (b : Nat) : Bool :=
  L.pins.en && !L.bit Reg.SM_STAT_TOFF && !L.bit Reg.GD_STAT_LINK && !L.bit Reg.GD_STAT_VGD_UV && (L.shortOf b).isNone &&
  !L.bit (Reg.GD_FLT_SHORT b) && 2 ≤ L.get (Reg.FC_BR_STAT_STATE b)

/-- The other switch of a phase. -/
def otherKey (k : Nat) : Nat := if k % 2 = 0 then k + 1 else k - 1

/-- The first tick at which a switch may turn on: DT_MIN after the turn-off of the other switch of its phase began (R329). -/
def Lane.deadEnd (L : Lane) (k : Nat) : Nat := (L.sw (otherKey k)).start + L.get Reg.GD_CTRL_DT_MIN

/-- A switch begins its turn-on profile (R332). -/
def Lane.swOn (L : Lane) (k : Nat) : Lane :=
  L.setSw k { L.sw k with edge := .on, phase := 1, prof := L.profile (k / 6) 0, start := L.now, waiting := false, onAt := L.now }

/-- A requested turn-on: at once, or after the dead time (R329); not while the phase's bootstrap undervoltage lasts (R338). -/
def Lane.tryOn (L : Lane) (k : Nat) : Lane :=
  if (L.sw k).edge = .on then L
  else if k % 2 = 1 && L.bitOf (Reg.GD_FLT_BSUV (k / 6)) (k % 6 / 2) then L
  else if (L.sw (otherKey k)).edge ≠ .on && L.deadEnd k ≤ L.now then L.swOn k
  else L.setSw k { L.sw k with waiting := true }

/-- A switch input's edge (R323 to R330). Both inputs of a phase on keep both switches off until one request ends (R328). While GD takes no
request the input moves and no switch follows it. -/
def Lane.switchEdge (L : Lane) (k : Nat) (on : Bool) : Lane :=
  let b := k / 6
  let o := otherKey k
  if (L.sw k).inp = on then L
  else
    let L1 := L.setSw k { L.sw k with inp := on }
    if !L.gdAccepts b then L1
    else if on then
      if (L.sw o).inp then (((L1.swOff k).swOff o).count (Reg.GD_CNT_XLOCK_COUNT b)).raise 83 b else L1.tryOn k
    else if (L.sw o).inp then (L1.swOff k).tryOn o else L1.swOff k

/-- SWITCH_INPUT_EDGE: an edge that FC emits (R231, Table 5.4) reaches GD. -/
def execSwitchInputEdge (x : LaneId) (b : Fin 2) (ph : Fin 3) (high on : Bool) (s : State) : Out :=
  atDue x (fun L => L.fcEdge b ph high on (L.sw (swKey b ph high)).inp) (fun L => L.switchEdge (swKey b ph high) on) s

/-- When a delayed turn-on may begin. -/
def Lane.deadDue (L : Lane) (k : Nat) : Option Nat :=
  if (L.sw k).waiting && (L.sw k).inp && (L.sw (otherKey k)).edge ≠ .on && L.gdAccepts (k / 6) then some (L.deadEnd k) else none

/-- The dead time of a delayed turn-on ends (R329). -/
def execDeadTimeEnd (x : LaneId) (b : Fin 2) (ph : Fin 3) (high : Bool) (s : State) : Out :=
  atDue x (fun L => L.deadDue (swKey b ph high)) (fun L => L.swOn (swKey b ph high)) s

/-- The gate currents of Table 7.1 by code, in mA. -/
def sourceMa : List Nat := [100, 150, 200, 250, 300, 400, 500, 600, 750, 900, 1050, 1200, 1400, 1600, 1800, 2000]
def sinkMa : List Nat := sourceMa.map (2 * ·)

/-- The current a gate output sources, or sinks where negative, in mA: the code of the present phase of its profile, from the source column at a
turn-on and the sink column at a turn-off (R331, R332, R349). -/
def Lane.gateCurrent (L : Lane) (k : Nat) : Int :=
  let w := L.sw k
  let code := match w.phase with | 1 => bitsOf w.prof 31 28 | 2 => bitsOf w.prof 27 24 | _ => bitsOf w.prof 23 20
  if w.edge = .on then nth sourceMa code else -(nth sinkMa code : Int)

/-- The bootstrap switch of a phase conducts, and recharges its capacitor from VGD, while the phase's low side is on (R335). -/
def Lane.recharges (L : Lane) (b ph : Nat) : Bool := (L.sw (swKey b ph false)).edge = .on

/-- When the present phase of a switch's profile ends (Table 7.2, R349); with EN_x or the deputy's line off, phase 2 ends no later
than 600 ns after the turn-off began (R352). -/
def Lane.phaseDue (L : Lane) (k : Nat) : Option Nat :=
  let w := L.sw k
  let pre := bitsOf w.prof 5 0
  let slope := bitsOf w.prof 16 10
  let stopped := !L.pins.en || L.bit Reg.SM_STAT_TOFF
  if w.edge = .soft then (if w.phase = 2 then some (w.start + L.get (Reg.GD_SHORT_SOFT_T (k / 6))) else none)
  else match w.phase with
    | 1 => some (w.start + pre)
    | 2 => some (w.start + if w.edge = .off && stopped then min (pre + slope) 60 else pre + slope)
    | _ => none

/-- A profile phase ends. -/
def execProfilePhaseEnd (x : LaneId) (b : Fin 2) (ph : Fin 3) (high : Bool) (s : State) : Out :=
  atDue x (fun L => L.phaseDue (swKey b ph high)) (fun L =>
    let w := L.sw (swKey b ph high)
    L.setSw (swKey b ph high) { w with phase := w.phase + 1 }) s

/-- A write of GD_PROF[b][e]: it applies from the next edge of each switch (R333). -/
def execProfileWrite (x : LaneId) (b e : Fin 2) (v : Word) (s : State) : Out :=
  onUp x (fun L => L.writeFlds [Reg.GD_PROF_PRE_I b e, Reg.GD_PROF_SLOPE_I b e, Reg.GD_PROF_HOLD_I b e, Reg.GD_PROF_SLOPE_T b e,
    Reg.GD_PROF_PRE_T b e] v.toNat) s

/-- A write of GD_DIRECT[b] (R360): in DIRECT its bits are the switch inputs. The inputs change together, so that a phase handed from one side
to the other requests no switch beside the other, and one whose two sides are requested together is held off as a whole (R328, R330). -/
def Lane.writeDirect (L : Lane) (b v : Nat) : Lane :=
  if L.get (Reg.FC_BR_STAT_STATE b) ≠ 4 then L.raise 86 b
  else
    let L1 := L.writeFlds [Reg.GD_DIRECT_HS b, Reg.GD_DIRECT_LS b] v
    let want (i : Nat) (high : Bool) : Bool := bitAt v (i + if high then 3 else 0)
    let side (on : Bool) (L : Lane) : Lane := L.forEach [0, 1, 2] fun i L => L.forEach [false, true] fun h L =>
      if want i h = on then L.switchEdge (swKey b i h) on else L
    let both (L : Lane) : Lane := L.forEach [0, 1, 2] fun i L =>
      if want i false && want i true && !(L.sw (swKey b i false)).inp && !(L.sw (swKey b i true)).inp then
        L.setSw (swKey b i false) { L.sw (swKey b i false) with inp := true }
      else L
    side true (both (side false L1))

/-- A write of GD_DIRECT[b]. -/
def execDirectWrite (x : LaneId) (b : Fin 2) (v : Word) (s : State) : Out := onUp x (fun L => L.writeDirect b v.toNat) s

/-! ### Link and supplies (R327, R335 to R340) -/

/-- The die-to-die link fails (R327): every switch off, LINK latched, both bridges to OFF. -/
def execDieLinkLoss (x : LaneId) (s : State) : Out :=
  onUp x (fun L => if L.bit Reg.GD_STAT_LINK then L else (((L.set Reg.GD_STAT_LINK 1).allOff).raise 80)) s

/-- A phase's bootstrap voltage is low (R337): the high side off, once per entry; a short sequence prevails (Table 7.6). -/
def execBootstrapUndervoltage (x : LaneId) (b : Fin 2) (ph : Fin 3) (s : State) : Out :=
  onUp x (fun L =>
    if L.bitOf (Reg.GD_FLT_BSUV b) ph then L
    else
      let L1 := (L.putBitOf (Reg.GD_FLT_BSUV b) ph true).count (Reg.GD_CNT_BSUV_COUNT b)
      let L2 := if (L.shortOf b).isSome then L1 else L1.swOff (swKey b ph true)
      L2.raise 84 b) s

/-- The bootstrap voltage has risen above 8.0 V (R338): the next turn-on request is taken again. -/
def execBootstrapRecovery (x : LaneId) (b : Fin 2) (ph : Fin 3) (s : State) : Out :=
  onUp x (fun L => L.putBitOf (Reg.GD_FLT_BSUV b) ph false) s

/-- The gate supply is low (R340): every switch of both bridges off. A bridge in RUN that it stops shows DRIVE_OK clear, so that the command
lane moves its share (R5; log entry 164). -/
def execGateSupplyUndervoltage (x : LaneId) (s : State) : Out :=
  onUp x (fun L =>
    if L.bit Reg.GD_STAT_VGD_UV then L
    else
      let L1 := ((L.set Reg.GD_STAT_VGD_UV 1).bridgeOff 0).bridgeOff 1
      ((L1.set (Reg.FC_BR_STAT_DRIVE_OK 0) 0).set (Reg.FC_BR_STAT_DRIVE_OK 1) 0).raise 85) s

/-- The gate supply is back (R340): a bridge still in RUN drives again from its next edges. -/
def execGateSupplyRecovery (x : LaneId) (s : State) : Out :=
  onUp x (fun L => (L.set Reg.GD_STAT_VGD_UV 0).forEach [0, 1] fun b L =>
    if L.get (Reg.FC_BR_STAT_STATE b) = 3 then L.set (Reg.FC_BR_STAT_DRIVE_OK b) 1 else L) s

/-! ### Shorts (R341 to R350) -/

/-- Whether a switch that stands as `w` was on when this sample began: a turn-off that began in this very tick ends with it (Table 7.6). -/
def Lane.wasOn (L : Lane) (w : Sw) : Bool := w.edge = .on || (w.edge = .off && w.phase = 1 && w.start = L.now)
def Lane.conducting (L : Lane) (k : Nat) : Bool := L.wasOn (L.sw k)

/-- A switch as it stood before a sequence that began in this very sample (R346, Table 7.6). -/
def Lane.swBefore (L : Lane) (k : Nat) : Sw :=
  match (L.shortOf (k / 6)).bind fun q => if q.at_ = L.now && q.stage = 1 then q.was.find? (·.1 = k) else none with
  | some e => e.2
  | none => L.sw k

/-- Whether the desaturation detector of a switch has been active for the 100 ns of a detection (R341, R342). -/
def Lane.desatActive (L : Lane) (k : Nat) : Bool :=
  L.wasOn (L.swBefore k) && (L.swBefore k).onAt + 10 * (L.get (Reg.GD_DESAT_BLANK (k / 6)) + 1) + 10 ≤ L.now

/-- A high side that a bootstrap undervoltage turned off in this very tick, on again as its turn-on profile stands: a short sequence prevails
(Table 7.6). -/
def Lane.undoBsuv (L : Lane) (k : Nat) : Lane :=
  let w := L.sw k
  if L.bitOf (Reg.GD_FLT_BSUV (k / 6)) (k % 6 / 2) && w.edge = .off && w.phase = 1 && w.start = L.now then
    let p := L.profile (k / 6) 0
    let d := L.now - w.onAt
    L.setSw k { w with
      edge := .on, prof := p, start := w.onAt, phase := if d < bitsOf p 5 0 then 1 else if d < bitsOf p 5 0 + bitsOf p 16 10 then 2 else 3 }
  else L

/-- A switch begins soft turn-off (R349), with SOFT_I as its code of phase 2; one not on keeps what it does. -/
def Lane.softOff (L : Lane) (k : Nat) : Lane :=
  if L.conducting k then
    let p := L.profile (k / 6) 1
    L.setSw k { L.sw k with
      edge := .soft, phase := 2, start := L.now, waiting := false
      prof := p - bitsOf p 27 24 * 2 ^ 24 + L.get (Reg.GD_SHORT_SOFT_I (k / 6)) * 2 ^ 24 }
  else L.setSw k { L.sw k with waiting := false }

/-- Soft turn-off of every low, or every high, side of a bridge that is on. -/
def Lane.softSide (L : Lane) (b : Nat) (high : Bool) : Lane := L.forEach [0, 1, 2] fun i L => L.softOff (swKey b i high)

/-- The legs of a set of switches and phases. -/
def legsOf (high low hard : Nat) : Nat := Nat.lor high (Nat.lor low hard)

/-- The sample at t_d (R347): the sequence starts, in the case that the legs of the sample decide. -/
def Lane.startShort (L : Lane) (b high low hard : Nat) : Lane :=
  let legs := legsOf high low hard
  let two := decide (2 ≤ countIf (bitAt legs) [0, 1, 2])
  let L0 := L.forEach [0, 1, 2] fun i L => L.undoBsuv (swKey b i true)
  let L1 := L0.setShort b (some
    { at_ := L.now, twoLeg := two, legs := BitVec.ofNat 3 legs, stage := 1, sample := (high, low, hard)
      was := (List.range 6).map fun i => (6 * b + i, L0.sw (6 * b + i)) })
  if two then L1.softSide b false
  else L1.forEach [0, 1, 2] fun i L =>
    let La := if bitAt high i then L.softOff (swKey b i true) else L
    if bitAt low i || bitAt hard i then La.softOff (swKey b i false) else La

/-- Detections of one sample on bridge `b` (R346 to R348): recorded in GD_FLT[b]; the first starts the sequence, whose case the legs
of that sample decide, those of the other path that come in the same tick with them; a second leg before t_d + S makes it the two-leg case.
With SHORT latched only the record is made (log entry 21). -/
def Lane.detect (L : Lane) (b high low hard : Nat) : Lane :=
  let legs := legsOf high low hard
  if legs = 0 then L
  else
    let L1 := ((L.set (Reg.GD_FLT_DESAT_H b) (Nat.lor (L.get (Reg.GD_FLT_DESAT_H b)) high)).set (Reg.GD_FLT_DESAT_L b)
      (Nat.lor (L.get (Reg.GD_FLT_DESAT_L b)) low)).set (Reg.GD_FLT_HSHORT b) (Nat.lor (L.get (Reg.GD_FLT_HSHORT b)) hard)
    match L.shortOf b with
    | some q =>
      let all := Nat.lor q.legs.toNat legs
      if q.at_ = L.now && q.stage = 1 && !q.was.isEmpty then
        let L2 := L1.forEach q.was fun e L => if (L.sw e.1).edge = .soft && (L.sw e.1).start = L.now then L.setSw e.1 e.2 else L
        L2.startShort b (Nat.lor q.sample.1 high) (Nat.lor q.sample.2.1 low) (Nat.lor q.sample.2.2 hard)
      else if q.twoLeg || all = q.legs.toNat || q.at_ + L.get (Reg.GD_SHORT_SOFT_T b) ≤ L.now then L1
      else (L1.setShort b (some { at_ := L.now, twoLeg := true, legs := BitVec.ofNat 3 all, stage := 1, sample := (0, 0, 0), was := [] })).softSide
        b false
    | none =>
      if L.bit (Reg.GD_FLT_SHORT b) then L1
      else ((L1.startShort b high low hard).count (Reg.GD_CNT_SHORT_COUNT b)).raise (81 + b) b

/-- A sample in which desaturation filters of bridge `b` pass (R342). -/
def execDesatDetection (x : LaneId) (b : Fin 2) (high low : BitVec 3) (s : State) : Out :=
  onUp x (fun L =>
    let act (h : Bool) (m : BitVec 3) : Nat :=
      [0, 1, 2].foldl (fun a i => if bitAt m.toNat i && L.desatActive (swKey b i h) then setBit a i else a) 0
    L.detect b (act true high) (act false low) 0) s

/-- A sample in which hard-short filters of bridge `b` pass (R343). -/
def execHardShortDetection (x : LaneId) (b : Fin 2) (phases : BitVec 3) (s : State) : Out :=
  onUp x (fun L => L.detect b 0 0 phases.toNat) s

/-- When the next stage of a sequence, and its end, fall due (Table 7.4). -/
def Lane.stageDue (L : Lane) (b : Nat) : Option Nat :=
  (L.shortOf b).bind fun q =>
    if q.stage ≠ 1 then none
    else some (q.at_ + if q.twoLeg then L.get (Reg.GD_SHORT_STAGGER b) else L.get (Reg.GD_SHORT_SOFT_T b))

def Lane.shortEndDue (L : Lane) (b : Nat) : Option Nat :=
  (L.shortOf b).map fun q =>
    q.at_ + L.get (Reg.GD_SHORT_SOFT_T b) + if q.twoLeg then L.get (Reg.GD_SHORT_STAGGER b) else 0

/-- The second stage of a sequence: the high sides' soft turn-off, or the turn-off of the other switches (Table 7.4). -/
def Lane.shortStage (L : Lane) (b : Nat) : Lane :=
  match L.shortOf b with
  | none => L
  | some q =>
    if q.stage ≠ 1 then L
    else
      let L1 := L.setShort b (some { q with stage := 2 })
      if q.twoLeg then L1.softSide b true else L1.forEach (List.range 6) fun i L => L.swOff (6 * b + i)

/-- The next stage of the short sequence. -/
def execShortSequenceStage (x : LaneId) (b : Fin 2) (s : State) : Out :=
  atDue x (fun L => L.stageDue b) (fun L => L.shortStage b) s

/-- The end of the two-leg case: all six switches held off at HOLD_I of the turn-off profile, whatever phase they were in (Table 7.4). -/
def Lane.holdAll (L : Lane) (b : Nat) : Lane :=
  L.forEach (List.range 6) fun i L => let M := L.swOff (6 * b + i); M.setSw (6 * b + i) { M.sw (6 * b + i) with phase := 3 }

/-- The sequence ends (R350): SHORT and TWO_LEG latched, the bridge to OFF. -/
def execShortSequenceEnd (x : LaneId) (b : Fin 2) (s : State) : Out :=
  atDue x (fun L => L.shortEndDue b) (fun L =>
    let two := match L.shortOf b with | some q => q.twoLeg | none => false
    let L1 := ((L.shortStage b).setShort b none).set (Reg.GD_FLT_SHORT b) 1
    let L2 := if two then (L1.set (Reg.GD_FLT_TWO_LEG b) 1).holdAll b else L1
    (L2.putBitOf Reg.GD_STAT_FLT b true).toOff b) s

/-! ### Enable ball and torque-off line (R351 to R356) -/

/-- EN_x has been low for `ns` (R351, R352): under 50 ns it is ignored, from 100 ns on it acts; between them spec/ leaves it open. The ball
is there in every power state: a lane samples it as it leaves reset (Table 7.9). -/
def execEnLow (x : LaneId) (ns : Nat) (s : State) : Out :=
  onLane x (fun L =>
    let c := L.takeBit
    let L1 := if 50 ≤ ns && ns < 100 then c.2 else L
    let acts := 100 ≤ ns || (50 ≤ ns && c.1)
    let L2 := { L1 with gd := { L1.gd with enLow := some ((L1.now : Int) - (ns / 10 : Nat)) } }
    if acts then ({ L2 with pins := { L2.pins with en := false } }.set Reg.GD_STAT_EN 0).allOff else L2) s

/-- The latched faults cleared by EN_x (R354). -/
def Lane.clearFaults (L : Lane) : Lane :=
  let one (b : Nat) (L : Lane) : Lane :=
    ((((L.set (Reg.GD_FLT_SHORT b) 0).set (Reg.GD_FLT_TWO_LEG b) 0).set (Reg.GD_FLT_DESAT_H b) 0).set (Reg.GD_FLT_DESAT_L b) 0).set
      (Reg.GD_FLT_HSHORT b) 0
  ((one 1 (one 0 L)).set Reg.GD_STAT_LINK 0).set Reg.GD_STAT_FLT 0

/-- EN_x rises (R354): after 5 µs or more low it clears the latched faults, after less than 4.5 µs it clears nothing; between them
spec/ leaves it open. No bridge starts (R355). -/
def execEnRise (x : LaneId) (s : State) : Out :=
  onLane x (fun L =>
    let low := match L.gd.enLow with | some t => ((L.now : Int) - t).toNat | none => 0
    let c := L.takeBit
    let L1 := if 450 ≤ low && low < 500 then c.2 else L
    let clear := 500 ≤ low || (450 ≤ low && c.1)
    let L2 := if clear then L1.clearFaults else L1
    { L2 with pins := { L2.pins with en := true }, gd := { L2.gd with enLow := none } }.set Reg.GD_STAT_EN 1) s

/-- The level of the deputy's torque-off line reaches GD (R356). -/
def execTorqueOffLine (x : LaneId) (s : State) : Out :=
  onUp x (fun L =>
    let on := L.bit Reg.SM_STAT_TOFF
    let L1 := L.setBool Reg.GD_STAT_TOFF on
    if on then L1.allOff else L1) s

end Sys2Proof.Machine
end

