-- ==== Sys2Proof/Machine/Pm.lean ====
section
/-! DEFINITION. Power states (15_power_thermal_test.md R628 to R641): requests, the entry with its four abort points, wakes, the exits, and
the pad holds. -/

namespace Sys2Proof.Machine

/-! ### Requests (R628, R629, R637) -/

/-- The code of a request for a power state (R629): 0 RUN, 1 IDLE, 2 SLEEP, 3 DEEP, 4 OFF. -/
def Lane.powerCode (L : Lane) (t : Nat) : Nat := if 4 < t then 0x11 else if 2 ≤ t ∧ L.mode ≠ 7 then 0x0B else 0x00

/-- An entry begins: at `passed` abort points, which is 2 from SLEEP (R637). -/
def Lane.startEntry (L : Lane) (t passed : Nat) (op : Option Nat) : Lane :=
  let L1 := (L.set Reg.PM_STAT_TARGET t).set Reg.PM_STAT_ENTERING 1
  { L1 with pm := { L1.pm with ops := op.toList, passed := passed, wakes := 0, abort := false, recalledBy := false } }

/-- A request for RUN or IDLE: IDLE_EN cleared or set; its commit point is its acceptance (R628). -/
def Lane.setIdle (L : Lane) (t : Nat) (op : Option Nat) : Lane := (L.set Reg.PM_CFG_IDLE_EN t).endOp? op true 0 none

/-- A request queued, one deep; the request it replaces ends as failed with result 1 (R637). -/
def Lane.queuePower (L : Lane) (t : Nat) (op : Option Nat) : Lane :=
  let L1 := (L.endOp? L.pm.qop true 3 (some 1)).event 174
  { (L1.set Reg.PM_STAT_QVALID 1).set Reg.PM_STAT_QUEUED t with pm := { L1.pm with qop := op } }

/-- An accepted request (R637). One merged with an entry whose commit point has passed is committed with it. -/
def Lane.takePower (L : Lane) (t : Nat) (op : Option Nat) : Lane :=
  if L.bit Reg.PM_STAT_ENTERING then
    if t = L.get Reg.PM_STAT_TARGET then
      let L1 := if L.pm.passed = 4 then L.endOp? op true 0 none else L
      { L1 with pm := { L1.pm with ops := L1.pm.ops ++ op.toList } }
    else if t ≤ 1 then { (L.setIdle t op) with pm := { (L.setIdle t op).pm with recalledBy := true } }
    else L.queuePower t op
  else if L.bit Reg.PM_STAT_EXITING then if t = 0 then L.setIdle 0 op else L.queuePower t op
  else if t ≤ 1 then L.setIdle t op
  else L.startEntry t 0 op

/-- The queued request taken up as a new change (R637). -/
def Lane.takeQueued (L : Lane) : Lane :=
  if L.bit Reg.PM_STAT_QVALID then
    let t := L.get Reg.PM_STAT_QUEUED
    let op := L.pm.qop
    let L1 := (L.set Reg.PM_STAT_QVALID 0).set Reg.PM_STAT_QUEUED 0
    let L2 : Lane := { L1 with pm := { L1.pm with qop := none } }
    if t ≤ 1 then L2.setIdle t op else L2.startEntry t (if L2.run = .sleep then 2 else 0) op
  else L

/-- A firmware request (R629, R666): TARGET and RESULT; an accepted one is taken, and one that the mode refuses raises "mode refusal"
(R104). -/
def Lane.pmRequest (L : Lane) (t : Nat) : Lane :=
  let c := L.powerCode t
  let L1 := (L.set Reg.PM_REQ_TARGET t).set Reg.PM_REQ_RESULT c
  if c = 0 then L1.takePower t none else if c = 0x0B then L1.modeRefusal else L1

/-- PM_REQ_GO. -/
def execPmReqGo (x : LaneId) (target : Fin 8) (s : State) : Out := onUp x (fun L => L.pmRequest target) s

/-! ### Entry (R631 to R635) -/

/-- A wake, an accepted abort, or a request for RUN or IDLE is pending (R632, R633, R637). -/
def Lane.recalled (L : Lane) : Bool := L.pm.wakes ≠ 0 || L.pm.abort || L.pm.recalledBy

/-- The levels of the held balls at AP3 (Table 15.4): TP3 to TP0, then per actuator EAb, EBb and EZb, then ERRS_N and ERRP_N (3 in
SLEEP, where FM drives them). -/
def Lane.padLevels (L : Lane) (t : Nat) : List Nat :=
  let enc (b : Nat) : Nat := (L.af.act.get b).ab.toNat + 4 * b2n (L.af.act.get b).z
  [15, enc 0, enc 1, if t = 2 then 3 else 2]

/-- An exit begins: the state is left on the wakes that are pending (Table 15.3). -/
def Lane.startExit (L : Lane) : Lane := (L.set Reg.PM_STAT_EXITING 1).set Reg.PM_STAT_TARGET 0

/-- The entry abandoned at abort point `n` (R632, R633): the steps taken are undone, event 173; an abort ends the operation as ABORTED, a wake
as failed with a result word whose layout spec/ does not give (log entry 25). -/
def Lane.abandon (L : Lane) (n : Nat) : Lane :=
  let t := L.get Reg.PM_STAT_TARGET
  let L1 := if t = 4 && L.pm.passed = 3 then L.commitAll 0 else L
  let L2 := if L.pm.passed = 3 then { L1.set Reg.PM_STAT_PADHOLD 0 with pm := { L1.pm with pads := [] } } else L1
  let L3 := ((L2.set Reg.PM_STAT_ENTERING 0).set Reg.PM_STAT_TARGET 0).set Reg.PM_STAT_ABANDON n
  let L4 := (L3.set Reg.PM_STAT_WAKE L.pm.wakes).event 173
  let L5 := L4.forEach L.pm.ops fun o L => if L.pm.abort then L.endOp o false 0 none else L.endOp o true 3 none
  let L6 : Lane := { L5 with
    pm := { L5.pm with ops := [], passed := 0, abort := false, recalledBy := false, wakes := if L.run = .sleep then L.pm.wakes else 0 }
    cp := { L5.cp with pmReq := false } }
  let L7 := L6.consider.takeQueued
  if L.run = .sleep && L.pm.wakes ≠ 0 then L7.startExit else L7

/-- AP1 passed: the guards of Table 15.2 hold; TS holds dispatches, and the pair is to take a checkpoint. -/
def Lane.passAp1 (L : Lane) : Lane :=
  if L.mode = 7 && L.get (Reg.FC_BR_STAT_STATE 0) = 0 && L.get (Reg.FC_BR_STAT_STATE 1) = 0 && !L.stopping then
    { L with pm := { L.pm with passed := 1 }, cp := { L.cp with pmReq := true } }
  else L.abandon 1

/-- AP3 passed: the pads are latched (R638); for OFF the records are committed with CLEAN set (R571), then the thermal record. -/
def Lane.passAp3 (L : Lane) : Lane :=
  let t := L.get Reg.PM_STAT_TARGET
  let L1 : Lane := { L.set Reg.PM_STAT_PADHOLD 1 with pm := { L.pm with passed := 3, pads := L.padLevels t } }
  if t = 4 then
    let L2 := L1.allOff.commitAll 1
    if L2.bit Reg.TM_SHUT_PEND then L2.commitThermal else L2
  else L1.allOff

/-- AP4 passed: the commit point; the COMPLETED reports follow (R633). -/
def Lane.passAp4 (L : Lane) : Lane :=
  let L1 : Lane := { L with pm := { L.pm with passed := 4, ap4At := L.now } }
  L1.forEach L.pm.ops fun o L => (L.commitOp o).endOp o true 0 none

/-- The next abort point of the entry in progress: it goes on only in PARK (R12). OFF waits at AP3 for the NV window and at AP4 for its records (R635); a slice
under test ends before AP2 (Table 15.10), and a pair that runs takes its checkpoint before it (Table 15.2). -/
def Lane.nextAbortPoint (L : Lane) : Lane :=
  let t := L.get Reg.PM_STAT_TARGET
  if !L.bit Reg.PM_STAT_ENTERING || decide (4 ≤ L.pm.passed) then L
  else if L.recalled || L.mode ≠ 7 then L.abandon (L.pm.passed + 1)
  else match L.pm.passed with
    | 0 => L.passAp1
    | 1 =>
      if L.st.slice || (L.cp.pmReq && L.lockstep && !L.cp.wfi) then L
      else { L with pm := { L.pm with passed := 2 }, cp := { L.cp with pmReq := false } }
    | 2 => if t = 4 && !L.nvOpen then L else L.passAp3
    | _ => if t = 4 && ([4, 5, 6].any L.recordBusy) then L else L.passAp4

/-- ENTRY_ABORT_POINT (R631, R632). -/
def execEntryAbortPoint (x : LaneId) (s : State) : Out := onAwake x (·.nextAbortPoint) s

/-- The state is entered (Table 15.1). A wake that came after AP4 leaves it at once (R634); from SLEEP a deeper queued request is taken
up (R637). -/
def Lane.enterLow (L : Lane) : Lane :=
  let t := L.get Reg.PM_STAT_TARGET
  let L1 := ((L.set Reg.PM_STAT_STATE t).set Reg.PM_STAT_ENTERING 0).set Reg.PM_STAT_TARGET 0
  let L2 : Lane := { L1 with run := if t = 2 then .sleep else if t = 3 then .deep else .off,
                             pm := { L1.pm with ops := [], passed := 0, enteredAt := L.now, recalledBy := false } }
  if L2.pm.wakes ≠ 0 || L.pm.recalledBy then L2.startExit
  else if t = 2 && decide (2 < L2.get Reg.PM_STAT_QUEUED) then L2.takeQueued
  else L2

/-- DOMAIN_SWITCH_OFF (Table 15.2): after the COMPLETED report has left, or at AP4 + 5 ms. -/
def execDomainSwitchOff (x : LaneId) (s : State) : Out :=
  awakeAtDue x (fun L =>
    if L.bit Reg.PM_STAT_ENTERING && L.pm.passed = 4 then
      some (if L.pm.ops.any L.reportQueued then L.pm.ap4At + 5 * msTicks else L.now)
    else none) (·.enterLow) s

/-! ### Wakes and exits (R630, R634, R636) -/

/-- Whether a wake source acts for a state (Table 15.1): OFF wakes on WAKE_x always, the others on what PM_CFG.WAKE_EN enables. -/
def Lane.wakeActs (L : Lane) (t src : Nat) : Bool :=
  if t = 4 then src = 0
  else if t = 3 then L.bitOf Reg.PM_CFG_WAKE_EN src && (src = 0 || src = 1 || src = 3)
  else L.bitOf Reg.PM_CFG_WAKE_EN src

/-- The low-power state a lane is in, as a code of R629. -/
def Lane.lowState (L : Lane) : Option Nat :=
  match L.run with
  | .sleep => some 2
  | .deep => some 3
  | .off => some 4
  | _ => none

/-- A wake: pending during an entry, and the start of an exit from a low-power state. -/
def Lane.wake (L : Lane) (src : Nat) : Lane :=
  let note (L : Lane) : Lane := { L with pm := { L.pm with wakes := setBit L.pm.wakes src } }
  if L.awake && L.bit Reg.PM_STAT_ENTERING then if L.wakeActs (L.get Reg.PM_STAT_TARGET) src then note L else L
  else match L.lowState with
    | none => L
    | some t => if L.wakeActs t src && !L.bit Reg.PM_STAT_EXITING then (note L).startExit else L

/-- WAKE (R630). -/
def execWake (x : LaneId) (src : Fin 6) (s : State) : Out := onLane x (·.wake src) s

/-- WAKE_TIMER (R630): PM_WAKE_TIME ms after entry; 0 disables it. -/
def execWakeTimer (x : LaneId) (s : State) : Out :=
  let L := s.lane x
  if L.lowState.isSome && L.get Reg.PM_WAKE_TIME_MS ≠ 0 && !L.bit Reg.PM_STAT_EXITING then
    onLane x (·.wake 3) (s.reach x (L.pm.enteredAt + L.get Reg.PM_WAKE_TIME_MS * msTicks))
  else .next s

/-- The registers that count and are kept by a lane reset, as address ranges (Table 15.5: DEEP returns them to 0). -/
def counterRanges : List (Nat × Nat) :=
  [(0x40008020, 0x4000802C), (0x40010020, 0x40010024), (0x40010580, 0x400105FC), (0x40010F00, 0x40010FFC), (0x40020200, 0x40020228),
   (0x40030020, 0x40030024), (0x40040150, 0x4004015C), (0x400401D0, 0x400401DC), (0x40050130, 0x4005013C), (0x40050230, 0x4005023C),
   (0x40050410, 0x40050410), (0x40050450, 0x40050450), (0x40060118, 0x40060120), (0x40060158, 0x40060160), (0x40080020, 0x40080034),
   (0x40084080, 0x4008408C), (0x40090080, 0x40090098), (0x400A0060, 0x400A0068), (0x400B0280, 0x400B028C), (0x400E0050, 0x400E0054),
   (0x400F0040, 0x400F0044), (0x40100020, 0x40100024), (0x40110060, 0x4011006C), (0x40130800, 0x40130FFC)]

def isCounter (a : Nat) : Bool := counterRanges.any fun r => decide (r.1 ≤ a) && decide (a ≤ r.2)

/-- Ferry time, the network time bases and vehicle time are adopted anew, and both ferries start outside every sailing (Table 15.5, SLEEP;
Table 15.1). -/
def Lane.rejoinFerries (L : Lane) : Lane :=
  let L0 := (L.dropSlews .lane).dropSlews .vehicle
  let L1 : Lane := { L0 with
    xf := { L0.xf with adopted := false, tick := none, latchTicks := (none, none), readOnly := true, frameAt := L.now, hold := 0 }
    vf := { elems := L0.vf.elems, slewTx := L0.vf.slewTx, out := L0.vf.out, frameAt := L.now }
    tb := { local_ := L.tb.local_, fired := L.tb.fired, out := L.tb.out } }
  ([Reg.XF_STAT_SYNC, Reg.XF_STAT_WRAP0, Reg.XF_STAT_WRAP1, Reg.XF_STAT_RELIEF, Reg.XF_STAT_LAUNCHING, Reg.XF_STAT_READONLY,
    Reg.VF_STAT_HM, Reg.VF_STAT_HM_VALID, Reg.VF_STAT_SELF_HM, Reg.VF_STAT_READONLY, Reg.TB_STAT_VALID, Reg.TB_STAT_SRC, Reg.TB_STAT_HOLD,
    Reg.TB_STAT_SLEWING, Reg.TB_STAT_D0_STATE, Reg.TB_STAT_D1_STATE, Reg.TB_DOM_STAT_STATE 0, Reg.TB_DOM_STAT_STATE 1].foldl
      (fun (M : Lane) f => M.set f 0) L1).set Reg.XF_STAT_HM 3

/-- The exit from SLEEP (Table 15.3, R636): the lane goes on in PARK, out of step, at stage 2 of its rejoin. -/
def Lane.leaveSleep (L0 : Lane) : Lane :=
  let L := L0.rejoinFerries
  let x := L.xf
  let L1 : Lane := { L with
    run := .on
    xf := { x with
      cur := none, latched := false, judged := false, relief := false, relieved := none, series := none, gather := none, record := []
      replay := none, replayRun := false, alignRun := 0, waitDigest := false, formF := none, formLead := false, formPub := false
      formOut := none, copies := [], disagree := 0, split := 0, unresolvedAt := none, equalRun := 0, voted := none, results := []
      release := none, asked := false, ownClaim := false, unqual := false }
    md := { L.md with publish := none, pending := none, splitHeld := false } }
  let L2 := ((L1.set Reg.PM_STAT_STATE 0).set Reg.PM_STAT_EXITING 0).set Reg.PM_STAT_WAKE L.pm.wakes
  let L3 := ((L2.set Reg.XF_VSTAT_IN_STEP 0).set Reg.XF_VSTAT_QUALIFIED 0).set Reg.XF_VSTAT_SELF_CMD 0
  let L4 := (((L3.set Reg.XF_VSTAT_UNRESOLVED 0).set Reg.SYS_MODE_PENDING 0).set Reg.SYS_MODE_PEND_TARGET 0).setStage 2
  ({ L4 with pm := { L4.pm with wakes := 0 } }.event 172).consider.takeQueued

/-- LOCAL after a stay in DEEP: the always-on oscillator has advanced it 100,000 ticks per ms with an error of up to 3 % (Table 15.1), a free
value within that bound; the instants noted during the stay move with it. -/
def Lane.afterDeep (L : Lane) : Lane :=
  let bound := (L.now - L.pm.enteredAt) * 3 / 100
  let f := L.takeFree
  let g := f.2.takeFree
  let err : Int := ((f.1 * 2 ^ 32 + g.1) % (2 * bound + 1) : Nat) - (bound : Int)
  let moved (t : Int) : Int := if t < L.pm.enteredAt then t else t + err
  let move (t : Nat) : Nat := (moved t).toNat
  let M := g.2
  { M with tb := { M.tb with local_ := (M.tb.local_ + err).toNat % 2 ^ 64 }
           tm := { M.tm with sampledAt := M.tm.sampledAt.map move, nvSince := M.tm.nvSince.map move }
           gd := { M.gd with enLow := M.gd.enLow.map moved } }

/-- EXIT_COMPLETE (Table 15.3, Table 15.5): SLEEP goes on; DEEP is a lane reset with the kept counters at 0; OFF is a power-on reset with the
pad holds kept. -/
def execExitComplete (x : LaneId) (s : State) : Out :=
  let L := s.lane x
  if !L.bit Reg.PM_STAT_EXITING then .next s
  else match L.run with
    | .sleep => onLane x (·.leaveSleep) s
    | .deep =>
      let L := L.afterDeep
      let quiet : Lane := { L with regs := L.regs.filter fun e => !isCounter (e.1 / 32), 
                                   pm := { L.pm with wakes := 0, phyClk := some L.now } }
      let s1 := (s.setLane x quiet).laneReset x
      .next (s1.setLane x (((s1.lane x).set Reg.PM_STAT_WAKE L.pm.wakes).event 172))
    | .off =>
      let s1 := s.powerOn x (L.get Reg.PM_STAT_PADHOLD) L.pm.pads
      .next (s1.setLane x (((s1.lane x).set Reg.PM_STAT_WAKE L.pm.wakes).event 172))
    | _ => .next s

/-- PAD_RELEASE (R639): every ball follows its block again. -/
def execPadRelease (x : LaneId) (s : State) : Out :=
  onUp x (fun L => { L.set Reg.PM_STAT_PADHOLD 0 with pm := { L.pm with pads := [] } }) s

end Sys2Proof.Machine
end

