-- ==== Sys2Proof/Machine/Ts.lean ====
section
/-! DEFINITION. Tasks, hardware queues, ordered flows and the tallies of the interconnect (09_tasks_arbitration.md): dispatch
(R402 to R409), queues (R412 to R415), flows (R416 to R421), renewals and weights (R423 to R428). -/

namespace Sys2Proof.Machine

/-! ### Queues -/

def Lane.queue (L : Lane) (q : Nat) : List Nat := spGet [] q L.ts.queues

/-- The entries a queue holds at most (R412). -/
def Lane.queueCap (L : Lane) (q : Nat) : Nat := 2 ^ L.get (Reg.TS_Q_CFG_DEPTH q)
def Lane.queueFull (L : Lane) (q : Nat) : Bool := decide (L.queueCap q ≤ (L.queue q).length)

/-- The outstanding tickets of a flow, and whether the oldest is complete. -/
def Lane.flow (L : Lane) (f : Nat) : List Ticket := spGet [] f L.ts.flows
def headDone : List Ticket → Bool
  | [] => false
  | t :: _ => t.done.isSome

/-- WAIT_OQ of a flow: its oldest ticket is complete and OQ is full (Table 9.11). -/
def Lane.showWait (L : Lane) (f : Nat) : Lane :=
  L.setBool (Reg.TS_FLOW_STAT_WAIT_OQ f) (headDone (L.flow f) && L.queueFull (L.get (Reg.TS_FLOW_CFG_OQ f)))

/-- A queue's entries, shown in TS_Q_STAT and in the flows that release into it (Tables 9.11, 9.12). -/
def Lane.setQueue (L : Lane) (q : Nat) (l : List Nat) : Lane :=
  let L1 := { L with ts := { L.ts with queues := spSet [] q l L.ts.queues } }
  let L2 := (L1.set (Reg.TS_Q_STAT_FILL q) l.length).setBool (Reg.TS_Q_STAT_FULL q) (L1.queueFull q)
  L2.forEach ((List.range 32).filter fun f => !(L2.flow f).isEmpty && L2.get (Reg.TS_FLOW_CFG_OQ f) = q) fun f L => L.showWait f

/-- The requesters whose pop found queue `q` empty in the present tick (Table 9.6). -/
def Lane.emptyPops (L : Lane) (q : Nat) : List Nat :=
  if L.ts.popAt = L.now then (L.ts.popped.filter (·.1 = q)).map (·.2) else []

/-- A pop that met an empty queue in this tick returns the entry pushed now after all: the push goes first (Table 9.6). A core that is still
at that read is answered anew. -/
def Lane.popLate (L : Lane) (q r d : Nat) : Lane :=
  let L1 := (L.set (Reg.TS_Q_POP_VALID q) 1).set (Reg.TS_Q_POP_DATA q) d
  let a : Answer := ⟨BitVec.ofNat 32 (2 ^ 31 + d), false⟩
  let L2 : Lane := { L1 with ts := { L1.ts with popped := L1.ts.popped.erase (q, r) } }
  if 1 < r || L2.cp.answer.get r ≠ {} then L2
  else if L2.lockstep then { L2 with cp := { L2.cp with answer := ⟨a, a⟩ } }
  else { L2 with cp := { L2.cp with answer := L2.cp.answer.set r a } }

/-- An entry appended: the queue is not empty, so the flag routed from event 32 + q is set (R413, R414). A pop of the same tick that found
the queue empty takes it at once (Table 9.6). -/
def Lane.append (L : Lane) (q d : Nat) : Lane :=
  match L.emptyPops q with
  | [] => (L.setQueue q (L.queue q ++ [d])).event (32 + q)
  | r :: _ => (L.popLate q r d).event (32 + q)

def Lane.heldPush (L : Lane) (q : Nat) : List HeldPush := spGet [] q L.ts.held
def Lane.setHeldPush (L : Lane) (q : Nat) (l : List HeldPush) : Lane :=
  { L with ts := { L.ts with held := spSet [] q l L.ts.held } }

/-- The oldest held push enters its queue if there is space (R415). -/
def Lane.pushHeld (L : Lane) (q : Nat) : Lane :=
  match L.heldPush q with
  | [] => L
  | e :: t => if L.queueFull q then L else (L.setHeldPush q t).append q e.data

/-- Held pushes that find space go before a new one. -/
def Lane.drainHeld (L : Lane) (q : Nat) : Lane := L.forEach (L.heldPush q) fun _ L => L.pushHeld q

/-- An error response to a core's access, given to both cores of the pair (R365, R415). -/
def Lane.answerError (L : Lane) (who : Nat) : Lane :=
  if 1 < who then L
  else if L.lockstep then { L with cp := { L.cp with answer := ⟨⟨0, true⟩, ⟨0, true⟩⟩ } }
  else { L with cp := { L.cp with answer := L.cp.answer.set who ⟨0, true⟩ } }

/-- A push (R413, R415): an error response at a queue that is not enabled; held at a full one. -/
def Lane.push (L : Lane) (q d : Nat) (core : Bool) (who : Nat := 0) : Lane :=
  if !L.bit (Reg.TS_Q_CFG_EN q) then if core then L.answerError who else L
  else
    let L1 := L.drainHeld q
    if L1.queueFull q then L1.setHeldPush q (L1.heldPush q ++ [⟨core, who, d, L1.now⟩]) else L1.append q d

/-- When the oldest held push of a core ends: 1 µs after it came (R415). -/
def Lane.pushDue (L : Lane) (q : Nat) : Option Nat := ((L.heldPush q).find? (·.core)).map (·.at_ + usTicks)

/-- A core push held for 1 µs ends with an error response: nothing is stored, the refusal is counted and raised (R415). -/
def Lane.pushTimeout (L : Lane) (q : Nat) : Lane :=
  match (L.heldPush q).find? (·.core) with
  | none => L
  | some e =>
    if L.queueFull q then
      (((L.setHeldPush q ((L.heldPush q).erase e)).count (Reg.TS_Q_STAT_FULLREF q)).answerError e.who).raise 25
    else L.pushHeld q

/-- A pop by requester `r` (R413): the oldest entry with bit 31 set, or 0. -/
def Lane.pop (L : Lane) (q : Nat) (r : Nat := 11) : Lane :=
  match L.queue q with
  | [] =>
    let L1 := (L.set (Reg.TS_Q_POP_VALID q) 0).set (Reg.TS_Q_POP_DATA q) 0
    { L1 with ts := { L1.ts with popAt := L.now, popped := (if L.ts.popAt = L.now then L.ts.popped else []) ++ [(q, r)] } }
  | d :: t => ((L.setQueue q t).set (Reg.TS_Q_POP_VALID q) 1).set (Reg.TS_Q_POP_DATA q) d

/-- The flags of a task that a non-empty queue holds set (R414). -/
def Lane.heldFlag (L : Lane) (n fl : Nat) : Bool :=
  (List.range 64).any fun q => !(L.queue q).isEmpty && L.bit (Reg.TS_ROUTE_EN (32 + q)) &&
    L.get (Reg.TS_ROUTE_TASK (32 + q)) = n && L.get (Reg.TS_ROUTE_FLAG (32 + q)) = fl

/-- The flags that a clear leaves set: held by a queue, or set by an event at this instant (R414, Table 9.6). -/
def Lane.keptFlag (L : Lane) (n fl : Nat) : Bool := L.heldFlag n fl || (L.ts.evAt = L.now && L.ts.evSet.contains (n, fl))

/-- A write of 1s to TS_TASK_FLAGS (R398, R414). -/
def Lane.clearFlags (L : Lane) (n v : Nat) : Lane :=
  (L.forEach ((bitList v 32).filter fun fl => !L.keptFlag n fl) fun fl L =>
    L.putBitOf (Reg.TS_TASK_FLAGS_FLAGS n) fl false).settleTask n

/-! ### Flows -/

/-- Whether a task holds an outstanding ticket. -/
def Lane.holds (L : Lane) (n : Nat) : Bool := (List.range 32).any fun f => (L.flow f).any (·.holder = n)

/-- A flow's tickets, shown in TS_FLOW_STAT and in their holders' HOLDS (Tables 9.11, 9.13). -/
def Lane.setFlow (L : Lane) (f : Nat) (l : List Ticket) : Lane :=
  let old := (L.flow f).map (·.holder)
  let L1 := { L with ts := { L.ts with flows := spSet [] f l L.ts.flows } }
  let oldest := match l with
    | [] => L.get (Reg.TS_FLOW_STAT_NEXT f)
    | t :: _ => t.id
  let L2 := (L1.set (Reg.TS_FLOW_STAT_OUT f) l.length).set (Reg.TS_FLOW_STAT_OLDEST f) oldest
  (L2.showWait f).forEach (old ++ l.map (·.holder)) fun n L => L.setBool (Reg.TS_TASK_STAT_HOLDS n) (L.holds n)

/-- An admission (R417): the oldest entry of IQ under the next ticket, or 0. Bits [30:24] of the entry are not carried (R418). -/
def Lane.admitItem (L : Lane) (f task : Nat) : Lane :=
  let iq := L.get (Reg.TS_FLOW_CFG_IQ f)
  match L.queue iq with
  | [] => L.set (Reg.TS_FLOW_ADMIT_ITEM f) 0
  | d :: t =>
    if L.bit (Reg.TS_FLOW_CFG_EN f) && (L.flow f).length < 64 then
      let id := L.get (Reg.TS_FLOW_STAT_NEXT f)
      let L1 := (L.setQueue iq t).set (Reg.TS_FLOW_STAT_NEXT f) (id + 1)
      (L1.setFlow f (L1.flow f ++ [{ id := id, holder := task, done := none }])).set (Reg.TS_FLOW_ADMIT_ITEM f) (2 ^ 31 + id * 2 ^ 24 + d % 2 ^ 24)
    else L.set (Reg.TS_FLOW_ADMIT_ITEM f) 0

/-- A ticket completed among those outstanding; `none` where it is not outstanding or already complete. A completion prevails over the fault
of the holder at the same LOCAL tick `now` (Table 9.6). -/
def completeTicket (now id : Nat) (r : Bool × Nat) : List Ticket → Option (List Ticket)
  | [] => none
  | t :: l =>
    if t.id = id then
      if t.done.isSome && t.faultAt ≠ some now then none else some ({ t with done := some r, faultAt := none } :: l)
    else (completeTicket now id r l).map (t :: ·)

/-- A completion (R419). -/
def Lane.flowDone (L : Lane) (f v : Nat) : Lane :=
  match completeTicket L.now (bitsOf v 30 24) (bitAt v 31, bitsOf v 23 0) (L.flow f) with
  | none => (L.count (Reg.TS_FLOW_STAT_REFUSED f)).raise 26
  | some l => L.setFlow f l

/-- The release of the oldest ticket, once complete, into OQ; it waits while OQ takes no entry (R420). -/
def Lane.releaseOldest (L : Lane) (f : Nat) : Lane :=
  let oq := L.get (Reg.TS_FLOW_CFG_OQ f)
  match L.flow f with
  | ⟨_, _, some (drop, r), _⟩ :: l =>
    if L.queueFull oq || !L.bit (Reg.TS_Q_CFG_EN oq) then L.setFlow f (L.flow f)
    else (L.append oq (b2n drop * 2 ^ 30 + r)).setFlow f l
  | _ => L

/-- The tickets of a holder that left, completed as dropped with result 0 (R421); `at_`: the tick, where a fault ended it. -/
def Lane.dropTickets (L : Lane) (n : Nat) (at_ : Option Nat := none) : Lane :=
  L.forEach (List.range 32) fun f L =>
    if (L.flow f).any (fun t => t.holder = n && t.done.isNone) then
      L.setFlow f ((L.flow f).map fun t => if t.holder = n && t.done.isNone then { t with done := some (true, 0), faultAt := at_ } else t)
    else L

/-! ### Task commands and dispatch -/

/-- CMD 1 and CMD 3 (Table 9.13): a task in the given state goes to WAITING, fresh; a flag already set makes it READY (R397). -/
def Lane.startTask (L : Lane) (n src : Nat) : Lane :=
  if L.get (Reg.TS_TASK_STAT_STATE n) = src then
    (((L.setTask n {}).set (Reg.TS_TASK_STAT_STATE n) 1).set (Reg.TS_TASK_STAT_FRESH n) 1).settleTask n
  else L

/-- A task set to DORMANT by TS_TASK_CFG[n].CMD (Table 9.13, R421). -/
def Lane.toDormant (L : Lane) (n : Nat) : Lane := ((L.setTask n {}).set (Reg.TS_TASK_STAT_STATE n) 0).dropTickets n

/-- A task that ends as faulted (R409, R421). -/
def Lane.toFaulted (L : Lane) (n : Nat) : Lane := ((L.setTask n {}).set (Reg.TS_TASK_STAT_STATE n) 4).dropTickets n (some L.now)

/-- Whether a task is the incoming one of a dispatch whose choice is fixed. -/
def Lane.incoming (L : Lane) (n : Nat) : Bool :=
  [0, 1].any fun t => match (L.target t).fixed with
    | some (_, some m) => m = n
    | _ => false

/-- CMD 2: at once, or at the task's next dispatch out if it runs (or its dispatch in is fixed). -/
def Lane.disableTask (L : Lane) (n : Nat) : Lane :=
  if L.get (Reg.TS_TASK_STAT_STATE n) = 3 || L.incoming n then L.setTask n { L.task n with disable := true }
  else L.toDormant n

/-- The incoming task of a dispatch: the selected one where the target is free for it; a running task that neither yields nor
is pre-empted at the end of DRAIN and that no READY task outranks goes on (R387, R404, R405, R409). -/
def Lane.choose (L : Lane) (t : Nat) : Option Nat :=
  let g := L.target t
  match L.running t with
  | none => L.selected t
  | some m =>
    if g.drain then if g.yielding.isSome || L.cp.drainAt.isNone then none else some m
    else if g.yielding.isSome then L.selected t
    else match L.selected t with
      | some n => if L.get (Reg.TS_TASK_CFG_PRIO m) < L.get (Reg.TS_TASK_CFG_PRIO n) then some n else some m
      | none => some m

/-- TS_DISP as the reading target sees it (Table 9.9). -/
def Lane.showDisp (L : Lane) (d : Option (Option Nat × Option Nat)) : Lane :=
  match d with
  | none =>
    L.forEach [Reg.TS_DISP_VALID, Reg.TS_DISP_FRESH, Reg.TS_DISP_OUT_NONE, Reg.TS_DISP_IN_NONE, Reg.TS_DISP_IN, Reg.TS_DISP_OUT]
      fun f L => L.set f 0
  | some (out, inn) =>
    let fresh := match inn with
      | some n => L.get (Reg.TS_TASK_STAT_FRESH n)
      | none => 0
    (((((L.set Reg.TS_DISP_VALID 1).set Reg.TS_DISP_FRESH fresh).setBool Reg.TS_DISP_OUT_NONE out.isNone).setBool
      Reg.TS_DISP_IN_NONE inn.isNone).set Reg.TS_DISP_IN (inn.getD 0)).set Reg.TS_DISP_OUT (out.getD 0)

/-- A read of TS_DISP: the choice is fixed at the first read after the dispatch interrupt (R405). -/
def Lane.readDisp (L : Lane) (t : Nat) : Lane :=
  let g := L.target t
  match g.fixed with
  | some d => L.showDisp (some d)
  | none =>
    if g.irq then
      let d := (L.running t, L.choose t)
      (L.setTarget t { g with fixed := some d }).showDisp (some d)
    else L.showDisp none

/-- The outgoing task after the acknowledgement (R397, R405, R408): DORMANT after a yield with END or a waiting disable, else READY at the
tail of its priority, or WAITING. -/
def Lane.dispatchOut (L : Lane) (m : Nat) (yielded : Option Bool) : Lane :=
  let L1 := if yielded.isNone then L.count Reg.TS_CNT_PREEMPT_COUNT else L
  if (L1.task m).disable then L1.toDormant m
  else match yielded with
    | some true => (L1.setTask m {}).set (Reg.TS_TASK_STAT_STATE m) 0
    | some false =>
      let L2 := L1.setTask m { L1.task m with preempted := false }
      if L2.wanted m then L2.makeReady m 1 else L2.set (Reg.TS_TASK_STAT_STATE m) 1
    | none => (L1.setTask m { L1.task m with preempted := true }).makeReady m

/-- The incoming task after the acknowledgement. -/
def Lane.dispatchIn (L : Lane) (n : Nat) : Lane :=
  (((L.setTask n { L.task n with preempted := false }).set (Reg.TS_TASK_STAT_STATE n) 3).set (Reg.TS_TASK_STAT_FRESH n) 0).wrap
    (Reg.TS_TASK_STAT_DISPATCHES n)

/-- The pre-emption of a drained target whose DRAIN has passed, where a task runs there (R387, R409). -/
def Lane.preemptDrained (L : Lane) (t : Nat) : Lane :=
  if (L.target t).drain && L.cp.drainAt.isNone && (L.running t).isSome then (L.setTarget t { L.target t with irq := true }).wakeCores else L

/-- The acknowledgement of a dispatch (R405). A choice fixed before DRAIN passed is carried out, and its task pre-empted after it. -/
def Lane.ackDisp (L : Lane) (t : Nat) : Lane :=
  let g := L.target t
  match g.fixed with
  | none => L
  | some (out, inn) =>
    let L1 := ((L.setTarget t { g with irq := false, fixed := none, yielding := none, taken := false }).count Reg.TS_CNT_DISP_COUNT).showDisp none
    if out.isSome && out = inn then L1.consider.preemptDrained t
    else
      let L2 := match out with
        | none => L1
        | some m => L1.dispatchOut m g.yielding
      let L3 := match inn with
        | none => L2
        | some n => L2.dispatchIn n
      ((L3.setRunning t inn).consider).preemptDrained t

/-- The end of an activation: TS raises a dispatch with the running task as OUT (R408). -/
def Lane.yieldTask (L : Lane) (t : Nat) (toEnd : Bool) : Lane :=
  if (L.running t).isSome then (L.setTarget t { L.target t with irq := true, yielding := some toEnd }).wakeCores else L

/-! ### Writes of the configuration registers -/

/-- Whether queue `q`'s range under a written word keeps the limits of R412. -/
def Lane.queueRangeOk (L : Lane) (q v : Nat) : Bool :=
  let n := 2 ^ (Reg.TS_Q_CFG_DEPTH q).store ((Reg.TS_Q_CFG_DEPTH q).of v)
  let base := (Reg.TS_Q_CFG_BASE q).of v
  base % n = 0 && base + n ≤ 8192 &&
  (List.range 64).all fun p => p = q || !L.bit (Reg.TS_Q_CFG_EN p) ||
    base + n ≤ L.get (Reg.TS_Q_CFG_BASE p) || L.get (Reg.TS_Q_CFG_BASE p) + L.queueCap p ≤ base

/-- A write of TS_Q_CFG[q] (R412). -/
def Lane.writeQCfg (L : Lane) (q v : Nat) : Lane :=
  let fs := [Reg.TS_Q_CFG_EN q, Reg.TS_Q_CFG_DEPTH q, Reg.TS_Q_CFG_BASE q]
  let refused :=
    if L.bit (Reg.TS_Q_CFG_EN q) then L.changes [Reg.TS_Q_CFG_DEPTH q, Reg.TS_Q_CFG_BASE q] v
    else bitAt v 31 && !L.queueRangeOk q v
  if refused then L.raise 24 else (L.writeFlds fs v).setQueue q (L.queue q)

/-- A write of TS_FLOW_CFG[f] (R416). -/
def Lane.writeFlowCfg (L : Lane) (f v : Nat) : Lane :=
  let fs := [Reg.TS_FLOW_CFG_EN f, Reg.TS_FLOW_CFG_OQ f, Reg.TS_FLOW_CFG_IQ f]
  if L.changes fs v && !(L.flow f).isEmpty then L.raise 24 else L.writeFlds fs v

/-- A write of TS_ROUTE[s]: a queue that is not empty holds the flag of its route (R399, R414). -/
def Lane.writeRoute (L : Lane) (s v : Nat) : Lane :=
  let L1 := L.writeFlds [Reg.TS_ROUTE_EN s, Reg.TS_ROUTE_FLAG s, Reg.TS_ROUTE_TASK s] v
  if 32 ≤ s && s < 96 && !(L1.queue (s - 32)).isEmpty then L1.event s else L1

/-- A write of TS_TASK_CFG[n]: its fields, then its command; a task that the fields let run on a target is selected at once (R403, R404; log
entry 174). -/
def Lane.writeTaskCfg (L : Lane) (n v : Nat) : Lane :=
  let L1 := L.writeFlds [Reg.TS_TASK_CFG_AFF n, Reg.TS_TASK_CFG_SAFE n, Reg.TS_TASK_CFG_PRIO n] v
  (match bitsOf v 31 30 with
   | 0 => L1
   | 1 => L1.startTask n 0
   | 2 => L1.disableTask n
   | _ => L1.startTask n 4).consider

/-! ### The interconnect -/

/-- The capacities of Table 9.5 by target. -/
def ixCap (t : Nat) : Nat := if t = 0 then 2000 else 500

/-- The sum of the weights. -/
def Lane.weightSum (L : Lane) : Nat := (List.range 11).foldl (fun a r => a + L.get (Reg.IX_WEIGHT_W r)) 0

/-- The weight that a renewal applies: one written at the renewal instant counts from the following one (Table 9.6). -/
def Lane.weightNow (L : Lane) (r : Nat) : Nat :=
  match spGet none r L.ix.wrote with
  | some (t, w) => if t = L.now then w else L.get (Reg.IX_WEIGHT_W r)
  | none => L.get (Reg.IX_WEIGHT_W r)

/-- The tally of a requester at a target (R423, R427). -/
def Lane.renewedTally (L : Lane) (t r : Nat) : Nat :=
  let full (q : Nat) : Nat := ixCap t * L.weightNow q / 256
  if L.lockstep then if r = 1 then 0 else full r
  else if r = 0 || r = 1 then full 0 / 2 else full r

/-- The requesters that met the condition of R426 at some target and were served less than their tally there (R428). -/
def Lane.underServed (L : Lane) (throughout : List (Nat × Nat)) : List Nat :=
  (List.range 11).filter fun r => throughout.any fun (t, q) =>
    q = r && t < 4 && spGet 0 (16 * t + r) L.ix.served < spGet 0 (16 * t + r) L.ix.given

/-- A renewal (R423, R428). -/
def Lane.renew (L : Lane) (throughout : List (Nat × Nat)) : Lane :=
  let L1 := L.forEach (L.underServed throughout) fun r L => (L.count (Reg.IX_CNT_SHORT_COUNT r)).raise 29
  let L2 := { L1 with ix := { L1.ix with served := [], renewed := some L1.now,
                                          throttleEnd := decide (L1.get Reg.TM_STAT_LEVEL = 0) } }
  let L3 := L2.set Reg.IX_CTRL_SUM ((List.range 11).foldl (fun a r => a + L2.weightNow r) 0)
  L3.forEach (List.range 4) fun t L => L.forEach (List.range 11) fun r L =>
    let v := L.renewedTally t r
    let L4 := L.set (Reg.IX_TALLY_TALLY t r) v
    { L4 with ix := { L4.ix with given := spSet 0 (16 * t + r) v L4.ix.given } }

/-- The next renewal instant: the LOCAL counts that are multiples of 1,000 ticks (R423). -/
def Lane.renewalDue (L : Lane) : Nat :=
  if L.now % 1000 = 0 && L.ix.renewed ≠ some L.now then L.now else (L.now / 1000 + 1) * 1000

/-- A write of IX_WEIGHT[r] (R425, R704): IX_WEIGHT[1] ignores writes. -/
def Lane.writeWeight (L : Lane) (r v : Nat) : Lane :=
  let w := v % 256
  if r = 1 then L
  else if L.bit Reg.IX_CTRL_LOCK && w ≠ L.get (Reg.IX_WEIGHT_W r) then L.raise 28
  else if 240 < L.weightSum - L.get (Reg.IX_WEIGHT_W r) + w then (L.set Reg.IX_CTRL_REFUSED 1).raise 28
  else
    let L1 : Lane := { L with ix := { L.ix with wrote := spSet none r (some (L.now, L.weightNow r)) L.ix.wrote } }
    L1.set (Reg.IX_WEIGHT_W r) w

/-! ### Meanings -/

/-- TS_EVENT (R399). -/
def execTsEvent (x : LaneId) (e : Fin 256) (s : State) : Out := onUp x (·.event e) s

/-- SIGNAL (R398). -/
def execSignal (x : LaneId) (task : Fin 256) (flag : Fin 32) (s : State) : Out := onUp x (·.setFlag task flag) s

/-- FLAG_CLEAR (R398, R414). -/
def execFlagClear (x : LaneId) (task : Fin 256) (v : Word) (s : State) : Out := onUp x (·.clearFlags task v.toNat) s

/-- DISPATCH_READ (R405). -/
def execDispatchRead (x : LaneId) (target : Fin 2) (s : State) : Out := onUp x (·.readDisp target) s

/-- DISPATCH_ACK (R405). -/
def execDispatchAck (x : LaneId) (target : Fin 2) (s : State) : Out := onUp x (·.ackDisp target) s

/-- YIELD (R408). -/
def execTsYield (x : LaneId) (target : Fin 2) (s : State) : Out := onUp x (·.yieldTask target false) s

/-- YIELD_END (R408). -/
def execTsYieldEnd (x : LaneId) (target : Fin 2) (s : State) : Out := onUp x (·.yieldTask target true) s

/-- TASK_ENABLE (R431, Table 9.13). -/
def execTaskEnable (x : LaneId) (task : Fin 256) (s : State) : Out := onUp x (·.startTask task 0) s

/-- TASK_DISABLE (R421, Table 9.13). -/
def execTaskDisable (x : LaneId) (task : Fin 256) (s : State) : Out := onUp x (·.disableTask task) s

/-- TASK_RESTART (R431, Table 9.13). -/
def execTaskRestart (x : LaneId) (task : Fin 256) (s : State) : Out := onUp x (·.startTask task 4) s

/-- QUEUE_PUSH (R413, R415). -/
def execQueuePush (x : LaneId) (q : Fin 64) (data : BitVec 31) (core : Bool) (s : State) : Out :=
  onUp x (·.push q data.toNat core) s

/-- QUEUE_PUSH_TIMEOUT (R415). -/
def execQueuePushTimeout (x : LaneId) (q : Fin 64) (s : State) : Out := atDue x (·.pushDue q) (·.pushTimeout q) s

/-- QUEUE_SPACE_PUSH (R415). -/
def execQueueSpacePush (x : LaneId) (q : Fin 64) (s : State) : Out := onUp x (·.pushHeld q) s

/-- QUEUE_POP (R413). -/
def execQueuePop (x : LaneId) (q : Fin 64) (s : State) : Out := onUp x (·.pop q) s

/-- FLOW_ADMIT (R417). -/
def execFlowAdmit (x : LaneId) (f : Fin 32) (task : Fin 256) (s : State) : Out := onUp x (·.admitItem f task) s

/-- FLOW_DONE (R419). -/
def execFlowDone (x : LaneId) (f : Fin 32) (v : Word) (s : State) : Out := onUp x (·.flowDone f v.toNat) s

/-- FLOW_RELEASE (R420). -/
def execFlowRelease (x : LaneId) (f : Fin 32) (s : State) : Out := onUp x (·.releaseOldest f) s

/-- IX_RENEWAL (R423, R428). -/
def execIxRenewal (x : LaneId) (throughout : List (Nat × Nat)) (s : State) : Out :=
  atDue x (fun L => some L.renewalDue) (·.renew throughout) s

/-- WEIGHT_WRITE (R425). -/
def execWeightWrite (x : LaneId) (r : Fin 11) (v : Word) (s : State) : Out := onUp x (·.writeWeight r v.toNat) s

end Sys2Proof.Machine
end

