-- ==== Sys2Proof/Machine/Cp.lean ====
section
/-! DEFINITION. The core pair (08_core_pair.md) but for the gate's accesses: checkpoints (R372 to R374), mismatches and the
restart (R376 to R382), split running (R383 to R389), debug (R390 to R393), WFI (R369, R628). -/

namespace Sys2Proof.Machine

/-! ### Checkpoints -/

/-- The words a snapshot is compared over (R372). -/
def coreBytes (r : CoreRegs) : List Byte :=
  wordBytes (r.pc.toNat :: (r.x ++ r.f).map BitVec.toNat ++ r.csr.flatMap fun (n, v) => [n, v.toNat])

/-- JOURNAL and INLOG of CP_STAT as the records stand. -/
def Lane.showPair (L : Lane) : Lane :=
  (L.set Reg.CP_STAT_JOURNAL L.cp.journal.length).set Reg.CP_STAT_INLOG (min 16 L.cp.inlog.zero.length)

/-- The word of CP_SHARED[i]. -/
def Lane.sharedWord (L : Lane) (i : Nat) : Nat :=
  L.word [Reg.CP_SHARED_BASE i, Reg.CP_SHARED_EN i, Reg.CP_SHARED_SIZE i]

/-- A completed checkpoint: the snapshots become current, the journal and both logs are emptied, the shared windows take effect
(R372, Table 8.12), and the events in succession end (R380). -/
def Lane.checkpoint (L : Lane) (cause : Nat) (r0 r1 : CoreRegs) : Lane :=
  let L1 := L.set Reg.CP_STAT_CONSEC 0
  ({ L1 with cp :=
    { L1.cp with
      snap := ⟨r0, r1⟩, journal := [], inlog := ⟨[], []⟩, cause := cause, events := [],
      shared := (List.range 4).map L1.sharedWord } }).showPair

/-- The value that a core's read of a register of Table 8.1 or of mhartid returns (R362, R363): the ticks since lane reset, LOCAL, the raw
levels, or, while split, the core's own number. -/
def Lane.csrValue (L : Lane) (core : Nat) (r : CsrRead) : Nat :=
  let at_ := L.now - r.back
  let raw := L.sm.raw % 256 + L.pins.hall.zero % 8 * 256 + L.pins.hall.one % 8 * 2048
  match r.csr.toNat with
  | 0xC00 | 0xB00 => (at_ - L.cp.resetAt) % 2 ^ 32
  | 0xC80 | 0xB80 => (at_ - L.cp.resetAt) / 2 ^ 32 % 2 ^ 32
  | 0xC01 => at_ % 2 ^ 32
  | 0xC81 => at_ / 2 ^ 32 % 2 ^ 32
  | 0xFC0 => Nat.xor raw r.flips.toNat
  | _ => if L.lockstep then 0 else core

/-- The registers a core holds from now on: loaded from a snapshot, or at their reset values. -/
def Lane.setCoreRegs (L : Lane) (core : Nat) (r : CoreRegs) : Lane := { L with cp := { L.cp with regs := L.cp.regs.set core r } }

/-- What a core holds at a gate boundary: its registers, its privilege mode, and the values its reads returned, those of Table 8.1
recorded in its input log (R361 to R363, R376). -/
def Lane.atBoundary (L : Lane) (core : Nat) (t : CoreTxn) : Lane :=
  let log := (t.csrReads.filter fun r => r.csr ≠ 0xF14).map fun r => (r.csr.toNat, BitVec.ofNat 32 (L.csrValue core r))
  let last := match t.csrReads.getLast? with
    | none => L.cp.csr.get core
    | some r => BitVec.ofNat 32 (L.csrValue core r)
  { L with cp := { L.cp with
      regs := L.cp.regs.set core t.regs, machine := L.cp.machine.set core t.machineMode
      csr := L.cp.csr.set core last
      inlog := if L.lockstep then L.cp.inlog.set core (L.cp.inlog.get core ++ log) else L.cp.inlog } }

/-! ### Physical memory protection (R361; log entry 166) -/

/-- A CSR of a core, 0 where it was never written. -/
def csrOf (r : CoreRegs) (n : Nat) : Nat := match r.csr.find? fun e => e.1 = n with
  | some e => e.2.toNat
  | none => 0

/-- The configuration byte and the address register of PMP region `i`. -/
def pmpCfg (r : CoreRegs) (i : Nat) : Nat := csrOf r (0x3A0 + i / 4) / 2 ^ (8 * (i % 4)) % 256
def pmpAddr (r : CoreRegs) (i : Nat) : Nat := csrOf r (0x3B0 + i)

/-- The trailing ones of a number of at most `n` bits. -/
def trailingOnes : Nat → Nat → Nat
  | 0, _ => 0
  | n + 1, v => if v % 2 = 1 then trailingOnes n (v / 2) + 1 else 0

/-- The bytes that region `i` covers, from the first to before the second: OFF none, TOR, NA4 and NAPOT. -/
def pmpRange (r : CoreRegs) (i : Nat) : Nat × Nat :=
  let a := pmpAddr r i
  match bitsOf (pmpCfg r i) 4 3 with
  | 1 => (if i = 0 then 0 else 4 * pmpAddr r (i - 1), 4 * a)
  | 2 => (4 * a, 4 * a + 4)
  | 3 =>
    let n := 2 ^ (trailingOnes 32 a + 1)
    (4 * (a / n * n), 4 * (a / n * n + n))
  | _ => (0, 0)

/-- Whether PMP lets an access pass: the lowest-numbered region that holds one of its bytes decides, and must hold them all; machine mode is
bound by locked regions alone, and where no region holds a byte only machine mode passes. -/
def pmpAllows (t : CoreTxn) : Bool :=
  let a := t.addr.toNat
  let hit (i : Nat) : Bool := decide (a < (pmpRange t.regs i).2 && (pmpRange t.regs i).1 < a + t.size)
  match (List.range 16).find? hit with
  | none => t.machineMode
  | some i =>
    let g := pmpCfg t.regs i
    let bit := match t.kind with | .load => 0 | .store => 1 | .fetch | .wfi => 2
    ((pmpRange t.regs i).1 ≤ a && a + t.size ≤ (pmpRange t.regs i).2) && ((t.machineMode && !bitAt g 7) || bitAt g bit)

/-- Whether an address lies in a shared window in force (R375). -/
def Lane.inShared (L : Lane) (a : Nat) : Bool :=
  L.cp.shared.any fun w =>
    let size := 2 ^ (w % 16) * 4096
    let base := w / 4096 * 4096 / size * size
    bitAt w 4 && base ≤ a && a < base + size

/-! ### Split running -/

/-- The registers the follower of a requested split starts with: reset values, at CP_ENTRY (R384). -/
def Lane.entryRegs (L : Lane) : CoreRegs := ⟨BitVec.ofNat 32 (2 * L.get Reg.CP_ENTRY_ENTRY), [], [], []⟩

/-- A choice of TS_DISP that is fixed on a safety-class task, withdrawn at a split: the task stays ready, and the dispatch is chosen anew at
the next read (R385, Table 8.6; log entry 215). -/
def Lane.withdrawSafe (L : Lane) : Lane :=
  let g := L.target 0
  match g.fixed with
  | some (_, some n) => if L.bit (Reg.TS_TASK_CFG_SAFE n) then L.setTarget 0 { g with irq := true, fixed := none, taken := false } else L
  | _ => L

/-- The pair's task at a split: a safety-class task is pre-empted and kept ready, another goes on at the lead (Table 8.6). -/
def Lane.splitTasks (L : Lane) : Lane :=
  match L.running 0 with
  | some n =>
    if L.bit (Reg.TS_TASK_CFG_SAFE n) then
      ((((L.setTask n { L.task n with preempted := true }).makeReady n).setRunning 0 none).setTarget 0 {}).consider
    else L.withdrawSafe.consider
  | none => L.withdrawSafe.consider

/-- The pair splits, counted in CP_CNT_SPLIT (R384, R390): no journal and no input log while split (Table 8.6). -/
def Lane.split (L : Lane) (lead : Nat) : Lane :=
  let L1 := ((L.set Reg.CP_STAT_STATE 3).set Reg.CP_STAT_LEAD lead).set Reg.CP_SPLIT_REQ 0
  let L2 := (L1.set Reg.CP_STAT_CONSEC 0).count Reg.CP_CNT_SPLIT_COUNT
  let L3 := { L2 with cp :=
    { L2.cp with
      journal := [], inlog := ⟨[], []⟩, events := [], splitReq := none, haltReq := [], sawDisagree := false,
      lostStep := !L2.bit Reg.XF_VSTAT_IN_STEP } }
  L3.showPair.splitTasks

/-- A core's HALT bit. -/
def haltFld (core : Nat) : Fld := if core = 0 then Reg.CP_STAT_HALT0 else Reg.CP_STAT_HALT1

/-- A core halts (R390, R392): DEBUG_SPLIT is set, and its source raised where it was clear. -/
def Lane.haltCore (L : Lane) (core : Nat) : Lane :=
  if L.bit (haltFld core) then L
  else
    let L1 := (L.set (haltFld core) 1).event 196
    if L1.bit Reg.CP_STAT_DEBUG_SPLIT then L1 else (L1.set Reg.CP_STAT_DEBUG_SPLIT 1).raise 176

/-- A checkpoint's waiting split or debug halt takes place (R384, R390, R391); a halt of core n splits with LEAD 1 − n. -/
def Lane.splitAtCheckpoint (L : Lane) : Lane :=
  match L.cp.haltReq, L.cp.splitReq with
  | core :: l, _ => ((L.split (1 - core)).haltCore core).forEach l fun c L => L.haltCore c
  | [], some lead =>
    let L1 := L.split lead
    let L2 := { L1 with cp := { L1.cp with
      snap := L1.cp.snap.set (1 - lead) L1.entryRegs, machine := L1.cp.machine.set (1 - lead) true } }
    L2.setCoreRegs (1 - lead) L1.entryRegs
  | [], none => L

/-- The follower's work is drained or migrated: no task runs there and no dispatch awaits its acknowledgement (R387). -/
def Lane.drained (L : Lane) : Bool := (L.running 1).isNone && (L.target 1).fixed.isNone

/-- The end of a rejoin at the lead's gate boundary: a checkpoint of the lead, loaded into the follower (R387, R392). -/
def Lane.finishRejoin (L : Lane) (lead : CoreRegs) : Lane :=
  let L1 := ((L.checkpoint 4 lead lead).set Reg.CP_STAT_STATE 0).set Reg.CP_STAT_DEBUG_SPLIT 0
  let L2 := (L1.set Reg.CP_SPLIT_REJOIN 0).setTarget 1 {}
  ({ L2 with cp := { L2.cp with
      drainAt := none, afterRejoin := true, regs := ⟨lead, lead⟩
      machine := ⟨L2.cp.machine.get (L.get Reg.CP_STAT_LEAD), L2.cp.machine.get (L.get Reg.CP_STAT_LEAD)⟩ } }).consider

/-! ### Pair events -/

/-- A core isolated by fault split: the other one leads (R380 to R382). -/
def Lane.isolate (L : Lane) (core : Nat) : Lane :=
  (((L.putBitOf Reg.CP_STAT_ISOLATED core true).set Reg.CP_STAT_LEAD (1 - core)).count Reg.CP_CNT_SPLIT_COUNT)

/-- CP_LAST at a pair event (Table 8.11). -/
def Lane.recordLast (L : Lane) (kind wher : Nat) : Lane :=
  (((L.set Reg.CP_LAST_KIND kind).set Reg.CP_LAST_WHERE wher).set Reg.CP_LAST_CAUSE L.cp.cause).set Reg.CP_LAST_UNWOUND
    L.cp.journal.length

/-- An event of R376 is declared: counted, recorded, and the restart begins (R377, R378). It raises its own source, or, at the third in
succession with no checkpoint between, "lockstep persistent" in its place, and refuge follows; three timeouts with one late core isolate
that core instead (R380, Table 8.7). In LAST-LANE the refuge waits for another mode, as R562 has it of a lane reset (R3, R4; log entry 167). -/
def Lane.declare (L : Lane) (kind wher addr code src : Nat) (cnt : Fld) : Lane :=
  let evs := (code :: L.cp.events).take 3
  let L1 := ((L.recordLast kind wher).set Reg.CP_LAST_ADDR_ADDR addr).count cnt
  let L2 := (L1.set Reg.CP_STAT_STATE 1).set Reg.CP_STAT_CONSEC (min 2 evs.length)
  let L3 := { L2 with cp := { L2.cp with events := evs.take 2 } }
  match evs with
  | [a, b, c] => if a = b && b = c && a < 2 then (L3.raise src).isolate a else (L3.raise 19).laneResetReaction
  | _ => L3.raise src

/-- A mismatch, classified by the two input logs (R376). -/
def Lane.mismatch (L : Lane) (wher addr : Nat) : Lane :=
  if L.cp.inlog.zero = L.cp.inlog.one then L.declare 1 wher addr 2 16 Reg.CP_CNT_MISMATCH_COUNT
  else L.declare 2 wher addr 2 17 Reg.CP_CNT_INSPLIT_COUNT

/-- Whether the gate takes both cores' transactions as one: lockstep, and no restart. -/
def Lane.gateOpen (L : Lane) : Bool := L.get Reg.CP_STAT_STATE = 0 || L.get Reg.CP_STAT_STATE = 2

/-- A partner timeout (R367). -/
def Lane.partnerTimeout (L : Lane) (late addr : Nat) : Lane :=
  if L.gateOpen then L.declare (3 + late) 7 addr late 18 Reg.CP_CNT_TIMEOUT_COUNT else L

/-- The journal unwound into memory, newest entry first (R378). -/
def unwind (m : Mem) : List (Nat × BitVec 4 × Word) → Mem
  | [] => m
  | (a, k, w) :: t => unwind (m.setMasked a k.toNat w.toNat) t

/-- The pair's state once both cores fetch from the checkpoint (Table 8.4, Table 8.7): fault split if a core was isolated, the halt
of a request met by the restart, a split that still waits, or lockstep. The cores fetch, so that none stands in WFI; a dispatch interrupt
whose trap followed that checkpoint is taken again (Table 9.6). -/
def Lane.endRestart (L : Lane) : Lane :=
  let L0 := { L with cp := { L.cp with journal := [], inlog := ⟨[], []⟩, regs := L.cp.snap } }
  let L1 := (L0.when (L.cp.cause = 0) fun L => L.setTarget 0 { L.target 0 with taken := false }).showPair.wakeCores
  if L1.get Reg.CP_STAT_ISOLATED ≠ 0 then
    let L2 := (L1.set Reg.CP_STAT_STATE 5).set Reg.CP_SPLIT_REQ 0
    let L3 := ({ L2 with cp := { L2.cp with splitReq := none, haltReq := [] } }).splitTasks
    L3.forEach (L1.cp.haltReq.filter fun c => !L1.bitOf Reg.CP_STAT_ISOLATED c) fun c L => L.haltCore c
  else if !L1.cp.haltReq.isEmpty then L1.splitAtCheckpoint
  else L1.set Reg.CP_STAT_STATE (if L1.cp.splitReq.isSome then 2 else 0)

/-- The dispatch target of a core of a split pair. -/
def Lane.targetOf (L : Lane) (core : Nat) : Nat := if core = L.get Reg.CP_STAT_LEAD then 0 else 1

/-- The follower takes the lead: its task and its dispatch move to the first target. -/
def Lane.promote (L : Lane) : Lane :=
  (((L.setRunning 0 (L.running 1)).setTarget 0 { L.target 1 with drain := false }).setRunning 1 none).setTarget 1 {}

/-- A core internal fault (R381); in a split pair that core stops and its task ends as faulted (R409, Table 8.7). -/
def Lane.internalFault (L : Lane) (core : Nat) : Lane :=
  let L0 := { L with cp := { L.cp with fault := true } }
  if L.lockstep then (((L0.recordLast (5 + core) 7).isolate core).set Reg.CP_STAT_STATE 1).raise 20
  else
    let t := L.targetOf core
    let L1 := match L.running t with
      | some n => (L0.toFaulted n).setRunning t none
      | none => L0
    let L2 := (L1.recordLast (5 + core) 7).setTarget t {}
    let L3 := if t = 0 then L2.promote else L2
    let L4 := (((L3.isolate core).set Reg.CP_STAT_STATE 5).set Reg.CP_SPLIT_REJOIN 0).raise 20
    ({ L4 with cp := { L4.cp with drainAt := none } }).consider

/-! ### Requests -/

/-- A request refused for a reason other than the mode (R383). -/
def Lane.cpRefuse (L : Lane) (code : Nat) : Lane := (L.set Reg.CP_SPLIT_RESULT code).raise 21

/-- A split request (R383): accepted where Table 2.2 permits it and STATE is LOCKSTEP. -/
def Lane.requestSplit (L : Lane) (lead : Nat) : Lane :=
  let L1 := L.set Reg.CP_SPLIT_LEAD lead
  if !L.permits .split then (L1.set Reg.CP_SPLIT_RESULT 1).modeRefusal
  else match L.get Reg.CP_STAT_STATE with
    | 0 =>
      let L2 := ((L1.set Reg.CP_SPLIT_RESULT 0).set Reg.CP_SPLIT_REQ 1).set Reg.CP_STAT_STATE 2
      { L2 with cp := { L2.cp with splitReq := some lead } }
    | 5 => L1.cpRefuse 3
    | _ => L1.cpRefuse 2

/-- A rejoin request (R387): TS stops dispatching to the follower, and DRAIN starts. -/
def Lane.requestRejoin (L : Lane) : Lane :=
  match L.get Reg.CP_STAT_STATE with
  | 5 => L.cpRefuse 3
  | 3 =>
    if L.bit Reg.CP_STAT_HALT0 || L.bit Reg.CP_STAT_HALT1 then L.cpRefuse 4
    else
      let L1 := ((L.set Reg.CP_SPLIT_RESULT 0).set Reg.CP_SPLIT_REJOIN 1).set Reg.CP_STAT_STATE 4
      let L2 := L1.setTarget 1 { L1.target 1 with drain := true }
      { L2 with cp := { L2.cp with drainAt := some (L2.now + L2.get Reg.CP_REJOIN_CFG_DRAIN * usTicks) } }
  | _ => L.cpRefuse 2

/-- DRAIN has passed: TS pre-empts the follower's task by a dispatch with no incoming task (R387, R409), after a dispatch whose choice is
fixed (R405). -/
def Lane.drainTimeout (L : Lane) : Lane :=
  let L1 := { L with cp := { L.cp with drainAt := none } }
  if (L1.target 1).fixed.isSome then L1 else L1.preemptDrained 1

/-- A halt request of DB (R390, R391, Table 8.7). -/
def Lane.requestHalt (L : Lane) (core : Nat) : Lane :=
  if L.lockstep then { L with cp := { L.cp with haltReq := if L.cp.haltReq.contains core then L.cp.haltReq else L.cp.haltReq ++ [core] } }
  else if L.bitOf Reg.CP_STAT_ISOLATED core then L
  else L.haltCore core

/-- A resume of DB: the core returns to split running (R393). -/
def Lane.resumeCore (L : Lane) (core : Nat) : Lane :=
  if !L.lockstep && L.bit (haltFld core) then (L.set (haltFld core) 0).event 197 else L

/-- A single step of DB: the halted core of a split pair runs one instruction (R393). -/
def Lane.stepCore (L : Lane) (core : Nat) : Lane :=
  if !L.lockstep && L.bit (haltFld core) then
    ({ L with cp := { L.cp with stepping := L.cp.stepping.set core true } }).event 197
  else L

/-- Whether a wake condition of WFI exists: a dispatch interrupt or a trap that waits (R368, R628). -/
def Lane.wakePending (L : Lane) : Bool :=
  L.cp.trap || [0, 1].any fun t => (L.target t).irq && (L.target t).fixed.isNone

/-- Both cores stand in WFI; with IDLE_EN set the lane enters IDLE (R369, R628). -/
def Lane.bothWfi (L : Lane) : Lane :=
  if L.wakePending then L
  else
    let L1 := { L with cp := { L.cp with wfi := true } }
    if L1.bit Reg.PM_CFG_IDLE_EN && L1.get Reg.PM_STAT_STATE = 0 then L1.set Reg.PM_STAT_STATE 1 else L1

/-! ### Meanings -/

/-- PARTNER_TIMEOUT (R367). -/
def execPartnerTimeout (x : LaneId) (late : Fin 2) (addr : Word) (s : State) : Out :=
  onUp x (·.partnerTimeout late addr.toNat) s

/-- PAIR_RESTART_END (R378): the journal is unwound and both cores fetch from the checkpoint. -/
def execPairRestartEnd (x : LaneId) (s : State) : Out :=
  let L := s.lane x
  if L.up && L.get Reg.CP_STAT_STATE = 1 then
    .next ((s.setMem x (unwind (s.memOf x) L.cp.journal)).setLane x L.endRestart)
  else .next s

/-- CORE_INTERNAL_FAULT (R381). -/
def execCoreInternalFault (x : LaneId) (core : Fin 2) (s : State) : Out := onUp x (·.internalFault core) s

/-- WFI (R369). -/
def execWfi (x : LaneId) (s : State) : Out := onUp x (·.bothWfi) s

/-- SPLIT_REQUEST (R383). -/
def execSplitRequest (x : LaneId) (lead : Fin 2) (s : State) : Out := onUp x (·.requestSplit lead) s

/-- REJOIN_REQUEST (R387). -/
def execRejoinRequest (x : LaneId) (s : State) : Out := onUp x (·.requestRejoin) s

/-- DRAIN_TIMEOUT (R387). -/
def execDrainTimeout (x : LaneId) (s : State) : Out := atDue x (·.cp.drainAt) (·.drainTimeout) s

/-- DEBUG_HALT (R390, R391). -/
def execDebugHalt (x : LaneId) (core : Fin 2) (s : State) : Out := onUp x (·.requestHalt core) s

/-- DEBUG_RESUME (R393). -/
def execDebugResume (x : LaneId) (core : Fin 2) (s : State) : Out := onUp x (·.resumeCore core) s

/-- DEBUG_SINGLE_STEP (R393). -/
def execDebugSingleStep (x : LaneId) (core : Fin 2) (s : State) : Out := onUp x (·.stepCore core) s

/-- DEBUG_SESSION_CHANGE (R400): TS event 198 when a session opens or closes. -/
def execDebugSessionChange (x : LaneId) (isOpen : Bool) (s : State) : Out :=
  onAwake x (fun L =>
    if L.cp.debugOpen = isOpen then L else ({ L with cp := { L.cp with debugOpen := isOpen } }).event 198) s

end Sys2Proof.Machine
end

