-- ==== Sys2Proof/Machine/Tm.lean ====
section
/-! DEFINITION. Temperature (15_power_thermal_test.md R642 to R651): the sensors, the thresholds of Table 15.6, the thermal shutdown, the NV
write window, and the throttle pause of R644. -/

namespace Sys2Proof.Machine

/-! ### Sensors (R642) -/

/-- A sensor's reading, in units of 0.125 °C. -/
def Lane.temp (L : Lane) (i : Nat) : Int := L.getI (Reg.TM_SENS_TEMP i)

/-- The readings of a sample. -/
def Lane.takeTemps (L : Lane) (codes : List (BitVec 12)) : Lane :=
  L.forEach (List.range 8) fun i L => match codes[i]? with
    | none => L
    | some c => (L.set (Reg.TM_SENS_TEMP i) c.toNat).set (Reg.TM_SENS_VALID i) 1

/-- A list of readings in rising order. -/
def insertI (v : Int) : List Int → List Int
  | [] => [v]
  | w :: t => if v ≤ w then v :: w :: t else w :: insertI v t
def sortI (l : List Int) : List Int := l.foldr insertI []

/-- Twice the median of the six die sensors. -/
def Lane.medianTwice (L : Lane) : Int :=
  let l := sortI ((List.range 6).map L.temp)
  l.getD 2 0 + l.getD 3 0

/-- The samples in which a die sensor deviated; the eighth in succession excludes it from TJ (R642). -/
def Lane.trackSensor (L : Lane) (i : Nat) : Lane :=
  let far := decide (240 < (2 * L.temp i - L.medianTwice).natAbs)
  let n := if far then spGet 0 i L.tm.deviant + 1 else 0
  let L1 : Lane := { L with tm := { L.tm with deviant := spSet 0 i (min 8 n) L.tm.deviant } }
  if 8 ≤ n ∧ !L.bitOf Reg.TM_STAT_EXCL i then (L1.putBitOf Reg.TM_STAT_EXCL i true).count Reg.TM_CNT_SENS_COUNT else L1

/-- TJ: the highest reading of the die sensors that are not excluded. -/
def Lane.hottest (L : Lane) : Int :=
  match ((List.range 6).filter fun i => !L.bitOf Reg.TM_STAT_EXCL i).map L.temp with
  | [] => L.tm.tj
  | t :: l => l.foldl max t

/-! ### The NV write window (R649 to R651) -/

/-- Whether every L-die sensor lies within limits and the supply suffices. -/
def Lane.nvFit (L : Lane) (lo hi : Int) : Bool :=
  decide (6000 ≤ L.pins.vsup) && (List.range 4).all fun i => decide (lo ≤ L.temp i) && decide (L.temp i ≤ hi)

/-- A shutdown that is not committed yet goes to the thermal record once the window is open (R651). -/
def Lane.recordShutdown (L : Lane) : Lane :=
  if L.up && L.nvOpen && L.bit Reg.TM_SHUT_PEND && !L.recordBusy 4 then L.commitThermal else L

/-- The window opens or closes: event 178. -/
def Lane.setWindow (L : Lane) (isOpen : Bool) : Lane :=
  let L1 := (L.setBool Reg.TM_STAT_NVOPEN isOpen).event 178
  if !L1.awake then L1 else if isOpen then L1.serveWrites.recordShutdown else L1.suspendWrite

/-- What a sample makes of the window: it closes at once, and the narrower conditions of opening are timed. With the first sample after
power-on reset it opens where its conditions hold. -/
def Lane.sampleWindow (L : Lane) (first : Bool) : Lane :=
  let fit := L.nvFit (-224) 1064
  let L1 : Lane := { L with tm := { L.tm with nvSince := if fit then some (L.tm.nvSince.getD L.now) else none } }
  if L1.nvOpen then if L1.nvFit (-240) 1080 then L1.recordShutdown else L1.setWindow false
  else if first && L1.nvFit (-240) 1080 then L1.setWindow true
  else L1

/-- NV_WINDOW_OPEN (R649): the conditions have held for 100 ms. -/
def execNvWindowOpen (x : LaneId) (s : State) : Out :=
  awakeAtDue x (fun L => if L.nvOpen then none else L.tm.nvSince.map (· + 100 * msTicks)) (·.setWindow true) s

/-! ### Thresholds (Table 15.6) -/

/-- The throttle level for a temperature, from the level in force: entered at 138 + 2n, left below 137 + 2n °C. -/
def levelFor (t : Int) (old : Nat) : Nat :=
  let at_ (base : Nat) : Nat := countIf (fun n : Nat => decide (((8 * (base + 2 * n) : Nat) : Int) ≤ t)) [1, 2, 3, 4, 5, 6, 7, 8]
  max (at_ 138) (min old (at_ 137))

/-- The warning (source 142, event 176). -/
def Lane.thermalWarning (L : Lane) : Lane :=
  let w := decide (1080 ≤ L.tm.tj)
  if w = L.bit Reg.TM_STAT_WARN then L
  else
    let L1 := (L.setBool Reg.TM_STAT_WARN w).event 176
    if w then L1.raise 142 else L1

/-- The throttle level (source 143 at each level entered, event 177); under the last-lane rule level 8 from 160 °C (R647). -/
def Lane.thermalLevel (L : Lane) : Lane :=
  let old := L.get Reg.TM_STAT_LEVEL
  let n := if L.lastLane && decide (1280 ≤ L.tm.tj) then 8 else levelFor L.tm.tj old
  if n = old then L
  else
    let L1 := (L.set Reg.TM_STAT_LEVEL n).event 177
    if old < n then L1.raise 143 else L1

/-- WARN and LEVEL of a lane whose FM and TS do not run: they show TJ (Table 15.12, "live"). -/
def Lane.liveThermal (L : Lane) : Lane :=
  (L.setBool Reg.TM_STAT_WARN (decide (1080 ≤ L.tm.tj))).set Reg.TM_STAT_LEVEL (levelFor L.tm.tj (L.get Reg.TM_STAT_LEVEL))

/-- The last-lane rule and the cutoff condition (R646, R648; source 145, event 179). -/
def Lane.thermalCutoff (L : Lane) : Lane :=
  let last := L.lastLane
  let cut := last && L.isCommand && decide (1320 ≤ L.tm.tj)
  let L1 := (L.setBool Reg.TM_STAT_LAST last).setBool Reg.TM_STAT_CUTOFF cut
  let L2 := if last = L.bit Reg.TM_STAT_LAST && cut = L.bit Reg.TM_STAT_CUTOFF then L1 else L1.event 179
  if cut && !L.bit Reg.TM_STAT_CUTOFF then L2.raise 145 else L2

/-- The raised core supply (R684). -/
def Lane.raiseCore (L : Lane) : Lane :=
  { L with pm := { L.pm with vcoreHigh := if 1200 < L.tm.tj then true else if L.tm.tj < 1184 then false else L.pm.vcoreHigh } }

/-- Whether the lane shuts down (R643, R647). -/
def Lane.mustShut (L : Lane) : Bool := decide (1400 ≤ L.tm.tj) || (decide (1280 ≤ L.tm.tj) && !L.lastLane)

/-- TM_SHUT and source 144 as a lane shuts down (R645, R651). -/
def Lane.shutDown (L : Lane) : Lane :=
  let L1 := ((L.set Reg.TM_SHUT_PEND 1).set Reg.TM_SHUT_TJ (uns 8 (L.tm.tj / 8))).set Reg.TM_SHUT_TIME (L.now / 2 ^ 32)
  let L2 : Lane := { L1.count Reg.TM_CNT_SHUT_COUNT with tm := { L1.tm with hold := true } }
  (L2.raise 144).enterRefuge

/-- The sensors, TJ and the window in one sample. -/
def Lane.sample (L : Lane) (codes : List (BitVec 12)) : Lane :=
  let first := L.tm.sampledAt.isNone
  let L1 := (L.takeTemps codes).forEach (List.range 6) fun i L => L.trackSensor i
  let L2 : Lane := { L1 with tm := { L1.tm with sampledAt := some L1.now, tj := L1.hottest } }
  ((L2.set Reg.TM_STAT_TJ (uns 8 (L2.tm.tj / 8))).sampleWindow first)

/-- When the next sample falls: every 100 µs, in DEEP every 10 ms (R642, Table 15.1). -/
def Lane.tmDue (L : Lane) : Option Nat :=
  match L.run with
  | .unpowered | .off => none
  | .deep => some (match L.tm.sampledAt with
    | none => L.now
    | some t => t + 10 * msTicks)
  | _ => some (match L.tm.sampledAt with
    | none => L.now
    | some t => t + 100 * usTicks)

/-- TM_SAMPLE (R642, R643). A lane held by a thermal shutdown starts BOOT at or below 140 °C (R645), unless its crystal fails. -/
def execTmSample (x : LaneId) (codes : List (BitVec 12)) (s : State) : Out :=
  match (s.lane x).tmDue with
  | none => .next s
  | some t =>
    let s1 := s.reach x t
    let L := ((s1.lane x).noteHeld).sample codes
    match L.run with
    | .held =>
      if L.tm.hold && decide (L.tm.tj ≤ 1120) then
        let s2 := s1.setLane x { L.liveThermal with tm := { L.tm with hold := false } }
        if L.pins.crystal then .next (s2.laneReset x) else .next s2
      else .next (s1.setLane x L.liveThermal)
    | .deep => .next (s1.setLane x L.liveThermal)
    | _ =>
      let M := L.thermalWarning.thermalLevel.thermalCutoff.raiseCore
      if M.mustShut then
        let s2 := (s1.setLane x M.shutDown).laneReset x
        .next (s2.setLane x { s2.lane x with run := .held })
      else .next (s1.setLane x M)

/-! ### Throttling (R644) -/

/-- THROTTLE_PAUSE_END: n µs into the renewal period at level n. -/
def execThrottlePauseEnd (x : LaneId) (s : State) : Out :=
  atDue x (fun L =>
    if L.ix.throttleEnd then none else L.ix.renewed.map (· + L.get Reg.TM_STAT_LEVEL * usTicks))
    (fun L => { L with ix := { L.ix with throttleEnd := true } }) s

/-- Whether a dispatch target is paused by throttling (R644): its task's priority lies below TPRIO. -/
def Lane.throttled (L : Lane) (t : Nat) : Bool :=
  L.get Reg.TM_STAT_LEVEL ≠ 0 && L.ix.renewed.isSome && !L.ix.throttleEnd &&
  (match L.running t with
   | none => false
   | some n => decide (L.get (Reg.TS_TASK_CFG_PRIO n) < L.get Reg.TM_CFG_TPRIO))

end Sys2Proof.Machine
end

