-- ==== Sys2Proof/Machine/St.lean ====
section
/-! DEFINITION. Self-test and repair (15_power_thermal_test.md R652 to R658): the canary, BIST orders, the logic self-test of a follower,
and the fuse burn. -/

namespace Sys2Proof.Machine

/-! ### Slices (R654, R655) -/

/-- ST_STAT.BUSY and SLICE as the work stands: the slice under test, or the next of the background pass. -/
def Lane.showTest (L : Lane) : Lane :=
  let now : Nat := match L.st.slice, L.st.bist with
    | false, some b => b.slices.headD L.st.next
    | _, _ => L.st.next
  (L.setBool Reg.ST_STAT_BUSY (L.st.slice || L.st.bist.isSome)).set Reg.ST_STAT_SLICE now

/-- When the next canary slice starts: CANARY set in RUN, no BIST order, and no entry past AP1. -/
def Lane.canaryDue (L : Lane) : Option Nat :=
  if L.bit Reg.ST_CTRL_CANARY && L.get Reg.PM_STAT_STATE = 0 && !L.st.slice && L.st.bist.isNone &&
      !(L.bit Reg.PM_STAT_ENTERING && L.pm.passed ≠ 0) then
    some (match L.st.sliceAt with
      | none => L.now
      | some t => t + L.get Reg.ST_CTRL_INTERVAL * msTicks)
  else none

/-- CANARY_SLICE (R654). -/
def execCanarySlice (x : LaneId) (s : State) : Out :=
  atDue x Lane.canaryDue (fun L => ({ L with st := { L.st with slice := true, sliceAt := some L.now } }).showTest) s

/-- A failing slice: its address, source 154, event 169, and the row or column added to the repair map (R655). -/
def Lane.sliceFailed (L : Lane) (a : Nat) : Lane :=
  let L1 := (((L.set Reg.ST_CANARY_FAIL_ADDR a).count Reg.ST_CNT_FAIL_COUNT).event 169).raise 154
  if L1.st.repair.contains a then L1
  else ({ L1 with st := { L1.st with repair := L1.st.repair ++ [a] } }).commitRepair

/-- A slice of the background pass ends; after the last one the pass is complete (event 168, PASS_OK). -/
def Lane.endCanary (L : Lane) (failed : Bool) : Lane :=
  let bad := L.st.passFail || failed
  let last := decide (L.st.next = 2047)
  let L1 : Lane := { L with st := { L.st with
    slice := false, next := (L.st.next + 1) % 2048, passFail := bad && !last
    bist := L.st.bist.map fun b => if b.abort then { b with slices := [] } else b } }
  if last then (L1.setBool Reg.ST_STAT_PASS_OK (!bad)).event 168 else L1

/-- A slice of a BIST order ends. The end of its last slice is its commit point; an accepted abort stops it here (R656). -/
def Lane.endBistSlice (L : Lane) (b : Bist) (failed : Bool) : Lane :=
  let rest := if b.abort then [] else b.slices.drop 1
  let L1 : Lane := { L with st := { L.st with bist := some { b with slices := rest, fails := b.fails + b2n failed } } }
  match b.opid with
  | none => L1
  | some o => if rest.isEmpty && !b.abort then L1.commitOp o else L1

/-- A slice test ends (R654, R655). -/
def Lane.endSlice (L : Lane) (fail : Option Word) : Lane :=
  let tested (L : Lane) : Lane :=
    match fail with
    | none => L.count Reg.ST_CNT_SLICE_COUNT
    | some a => (L.count Reg.ST_CNT_SLICE_COUNT).sliceFailed a.toNat
  if L.st.slice then ((tested L).endCanary fail.isSome).showTest
  else match L.st.bist with
    | none => L
    | some b => if b.slices.isEmpty then L else ((tested L).endBistSlice b fail.isSome).showTest

/-- CANARY_SLICE_END (R654 to R656): the slice keeps its contents. -/
def execCanarySliceEnd (x : LaneId) (fail : Option Word) (s : State) : Out := onUp x (fun L => L.endSlice fail) s

/-! ### BIST orders (R656) -/

/-- A BIST order in a mode that permits it. -/
def bistMode (m : Nat) : Bool := m = 1 || m = 5 || m = 6 || m = 7

/-- The order starts on every slice of the macros of its mask: 256 slices of 4 KiB each. -/
def Lane.startBist (L : Lane) (mask : Nat) (op : Option Nat) : Lane :=
  let slices := (bitList mask 8).flatMap fun m => (List.range 256).map fun i => 256 * m + i
  ({ L with st := { L.st with bist := some ⟨op, slices, 0, false⟩ } }).showTest

/-- An abort accepted: the order stops after the slice in progress. -/
def Lane.abortBist (L : Lane) : Lane := { L with st := { L.st with bist := L.st.bist.map fun b => { b with abort := true } } }

/-- BIST_END: every slice is tested or the order was stopped; event 170 and the report, with the number of failing slices. -/
def execBistEnd (x : LaneId) (s : State) : Out :=
  onUp x (fun L =>
    match L.st.bist with
    | none => L
    | some b =>
      if b.slices.isEmpty && !L.st.slice then
        let L1 := ({ L with st := { L.st with bist := none } }).event 170
        (if b.abort then L1.endOp? b.opid false 0 none else L1.endOp? b.opid true 0 (some b.fails)).showTest
      else L) s

/-! ### Logic self-test and fuses (R657, R658) -/

/-- A write of ST_LBIST.GO: the follower of a split pair, in PARK or WORKSHOP; else refused, by the mode as a firmware action (R104). -/
def Lane.requestLbist (L : Lane) : Lane :=
  if !L.permits .logicTest then L.modeRefusal
  else if L.get Reg.CP_STAT_STATE = 3 && L.st.lbist.isNone then
    { L.set Reg.ST_STAT_LBIST_BUSY 1 with st := { L.st with lbist := some (1 - L.get Reg.CP_STAT_LEAD) } }
  else L

/-- LBIST_REQUEST (R657). -/
def execLbistRequest (x : LaneId) (s : State) : Out := onUp x Lane.requestLbist s

/-- LBIST_END: the signature and whether it equals the golden one, which spec/ does not give (free values); event 171; the follower
restarts at CP_ENTRY. -/
def execLbistEnd (x : LaneId) (s : State) : Out :=
  onUp x (fun L =>
    match L.st.lbist with
    | none => L
    | some core =>
      let g := L.takeFree
      let m := g.2.takeBit
      let L1 := ((m.2.set Reg.ST_SIG_SIG g.1).setBool Reg.ST_LBIST_MATCH m.1).set Reg.ST_STAT_LBIST_BUSY 0
      { L1.event 171 with
        st := { (L1.event 171).st with lbist := none }
        cp := { (L1.event 171).cp with
          snap := L.cp.snap.set core L.entryRegs, regs := L.cp.regs.set core L.entryRegs, machine := L.cp.machine.set core true } }) s

/-- The conditions of a burn: every die sensor from 15 to 50 °C, VSUP_x from 12.0 to 15.0 V. -/
def Lane.burnFit (L : Lane) : Bool :=
  decide (12000 ≤ L.pins.vsup) && decide (L.pins.vsup ≤ 15000) &&
  (List.range 6).all fun i => decide (120 ≤ L.temp i) && decide (L.temp i ≤ 400)

/-- A write of ST_FUSE.GO (R658). -/
def Lane.requestBurn (L : Lane) : Lane :=
  if L.st.burn.isSome then L
  else if !L.permits .fuseRepair then (L.set Reg.ST_FUSE_RESULT 0x0B).modeRefusal
  else if !L.burnFit then L.set Reg.ST_FUSE_RESULT 0x03
  else { L.set Reg.ST_FUSE_GO 1 with st := { L.st with burn := some L.st.repair } }

/-- FUSE_BURN (R658). -/
def execFuseBurn (x : LaneId) (s : State) : Out := onUp x Lane.requestBurn s

/-- FUSE_BURN_END: the entries stand in fuses and leave the repair map. -/
def execFuseBurnEnd (x : LaneId) (s : State) : Out :=
  onUp x (fun L =>
    match L.st.burn with
    | none => L
    | some es =>
      let L1 := L.forEach (List.range 8) fun m L =>
        L.countBy (Reg.ST_REPAIR_FUSED m) (countIf (fun a => decide (macroOf a = m)) es)
      let L2 : Lane := { L1 with st := { L1.st with burn := none, repair := L1.st.repair.filter fun a => !es.contains a } }
      ((L2.set Reg.ST_FUSE_GO 0).set Reg.ST_FUSE_RESULT 0).commitRepair) s

end Sys2Proof.Machine
end

