-- ==== Sys2Proof/Machine/Sx.lean ====
section
/-! DEFINITION. The safety layer (12_safety.md R537 to R545): sending, receiving and expiry of safety units, and the motion
targets that HL takes from them (14_host_orders.md R609, R610). -/

namespace Sys2Proof.Machine

def Lane.conn (L : Lane) (c : Nat) : SxConn := spGet {} c L.sx.conn
def Lane.setConn (L : Lane) (c : Nat) (v : SxConn) : Lane := { L with sx := { L.sx with conn := spSet {} c v L.sx.conn } }

def Lane.sxState (L : Lane) (c : Nat) : Nat := L.get (Reg.SX_CONN_STAT_STATE c)
def Lane.isProducer (L : Lane) (c : Nat) : Bool := L.bit (Reg.SX_CONN_CFG_EN c) && L.bit (Reg.SX_CONN_CFG_DIR c)
def Lane.isConsumer (L : Lane) (c : Nat) : Bool := L.bit (Reg.SX_CONN_CFG_EN c) && !L.bit (Reg.SX_CONN_CFG_DIR c)

/-- CHECK over the identity and the unit's first bytes (R538). -/
def Lane.unitCheck (L : Lane) (c : Nat) (bs : List Byte) : Nat := crc32c (beBytes 4 (L.get (Reg.SX_CONN_ID_IDENT c)) ++ bs)

/-! ### Sending (R540) -/

/-- The payload bytes of a send buffer. -/
def Lane.txPayload (L : Lane) (c len : Nat) : List Byte :=
  (wordBytes ((List.range 12).map fun w => L.get (Reg.SX_TX_WORD c w))).take len

/-- The SEQ of the next unit: 0 first after EN, then one more modulo 65,536 (R540). -/
def Lane.nextSeq (L : Lane) (c : Nat) : Nat :=
  if (L.conn c).begun then (L.get (Reg.SX_CONN_STAT_LAST_SEQ c) + 1) % 2 ^ 16 else 0

/-- The unit that a send makes (Table 12.4). -/
def Lane.makeUnit (L : Lane) (c len : Nat) : List Byte :=
  let body := beBytes 1 (0x40 + c) ++ beBytes 1 len ++ beBytes 2 (L.nextSeq c) ++ beBytes 4 (L.vehUs % 2 ^ 32) ++ L.txPayload c len
  body ++ beBytes 4 (L.unitCheck c body)

/-- A write of SX_SEND with GO (R540, R548). A LEN beyond 48 is refused like a write that names no producer (log entry 26). -/
def Lane.sxSend (L : Lane) (v : Nat) : Lane :=
  let c := Reg.SX_SEND_CONN.of v
  let len := Reg.SX_SEND_LEN.of v
  if !L.isProducer c || 48 < len then L.raise 137 c
  else
    let seq := L.nextSeq c
    let L1 : Lane := { L with sx := { L.sx with out := L.sx.out ++ [(L.get (Reg.SX_CONN_CFG_ROUTE c), L.makeUnit c len)] } }
    let L2 := (L1.setConn c { L1.conn c with begun := true }).set (Reg.SX_CONN_STAT_LAST_SEQ c) seq
    ((L2.set (Reg.SX_CONN_STAT_LEN c) len).set (Reg.SX_CONN_TS_TSTAMP c) (L.vehUs % 2 ^ 32)).event 147

/-- A write of SX_SEND: one that names no enabled producer is refused with or without GO (R548). -/
def Lane.writeSend (L : Lane) (v : Nat) : Lane :=
  if bitAt v 31 then L.sxSend v
  else if L.isProducer (Reg.SX_SEND_CONN.of v) then L
  else L.raise 137 (Reg.SX_SEND_CONN.of v)

/-- SX_SEND (R540). -/
def execSxSend (x : LaneId) (v : Word) (s : State) : Out := onUp x (fun L => L.sxSend v.toNat) s

/-! ### Motion targets (R610) -/

/-- The connection that supplies the motion targets. -/
def Lane.motionConn (L : Lane) : Nat :=
  if L.bit Reg.HL_STAT_SELECT then L.get Reg.HL_MOTION_CFG_SCONN else L.get Reg.HL_MOTION_CFG_PCONN

/-- HL commits words into the target element; in BOOT it commits none (R105). -/
def Lane.commitTarget (L : Lane) (ws : List Nat) : Lane :=
  if !L.bit Reg.HL_ELEM_EN || L.mode = 0 then L
  else
    let e := L.get Reg.HL_ELEM_TELEM
    L.refresh .lane e (ws.take (L.desc .lane e).words) false

/-- An accepted unit's payload goes into the target element where its connection is the one selected. -/
def Lane.takeTarget (L : Lane) (c : Nat) : Lane :=
  if L.bit Reg.HL_MOTION_CFG_EN && L.motionConn = c then
    let ws := (List.range 12).map fun w => L.get (Reg.SX_RX_WORD c w)
    let L1 : Lane := { L with hl := { L.hl with target := ws } }
    L1.commitTarget ws
  else L

/-- The partition of the primary (0) or secondary (1) motion host. -/
def Lane.motionPart (L : Lane) (sel : Nat) : Nat :=
  if sel = 1 then L.get Reg.HL_MOTION_CFG_SPART else L.get Reg.HL_MOTION_CFG_PPART

/-- A change of selection: counted, raised, reported (R610). -/
def Lane.takeover (L : Lane) (sel : Nat) : Lane :=
  let old := L.get Reg.HL_STAT_SELECT
  if old = sel then L
  else
    let L1 := ((L.set Reg.HL_STAT_SELECT sel).count Reg.HL_CNT_TAKEOVER_COUNT).raise 163
    (L1.event 136).reportAll 0x09 [L.motionPart old * 4 + L.motionPart sel]

/-- The selected host's connection has entered EXPIRED while the other is LIVE (R610). -/
def Lane.motionExpired (L : Lane) (c : Nat) : Lane :=
  if !L.bit Reg.HL_MOTION_CFG_EN then L
  else if !L.bit Reg.HL_STAT_SELECT && c = L.get Reg.HL_MOTION_CFG_PCONN && L.sxState (L.get Reg.HL_MOTION_CFG_SCONN) = 2 then
    L.takeover 1
  else if L.bit Reg.HL_STAT_SELECT && c = L.get Reg.HL_MOTION_CFG_SCONN && L.sxState (L.get Reg.HL_MOTION_CFG_PCONN) = 2 then
    L.takeover 0
  else L

/-! ### Receiving (R541 to R543) -/

/-- A unit discarded, with the counter of its test and event 146 (R545). -/
def Lane.sxDiscard (L : Lane) (f : Fld) : Lane := (L.count f).event 146

/-- The payload written to the receive buffer, first byte in [31:24]; bytes beyond it stay as they were. -/
def Lane.putRx (L : Lane) (c : Nat) (p : List Byte) : Lane :=
  L.forEach ((List.range 12).filter fun w => decide (4 * w < p.length)) fun w L =>
    let old := beBytes 4 (L.get (Reg.SX_RX_WORD c w))
    let new := slice p (4 * w) 4
    L.set (Reg.SX_RX_WORD c w) (ofBe (new ++ old.drop new.length))

/-- A unit accepted (R542, R543). -/
def Lane.sxAccept (L : Lane) (c seq len ts d : Nat) (p : List Byte) : Lane :=
  let L1 := if (L.conn c).begun then L.countBy (Reg.SX_CNT_LOST_COUNT c) (d - 1) else L
  let L2 := (L1.setConn c ⟨true, L1.now⟩).set (Reg.SX_CONN_STAT_LAST_SEQ c) seq
  let L3 := ((L2.set (Reg.SX_CONN_STAT_STATE c) 2).set (Reg.SX_CONN_STAT_LEN c) len).set (Reg.SX_CONN_TS_TSTAMP c) ts
  let L4 := if L3.bit (Reg.SX_CONN_STAT_NEW c) then L3.count (Reg.SX_CNT_OVERRUN_COUNT c) else L3
  (((L4.putRx c p).set (Reg.SX_CONN_STAT_NEW c) 1).event 144).takeTarget c

/-- Whether a unit's length fits its LEN: CAN FD frames are padded to 64 bytes (R586), the other routes carry it exactly. -/
def unitFits (route n len : Nat) : Bool := if route = 2 then decide (12 + len ≤ n) else n = 12 + len

/-- The tests of Table 12.5 in their order, on a unit for connection `c`; WAITING and EXPIRED exempt it from test 5 only. -/
def Lane.sxTest (L : Lane) (c route : Nat) (u : List Byte) : Lane :=
  let len := ofBe (slice u 1 1)
  let seq := ofBe (slice u 2 2)
  let ts := ofBe (slice u 4 4)
  let d := (seq + 2 ^ 16 - L.get (Reg.SX_CONN_STAT_LAST_SEQ c)) % 2 ^ 16
  let age := sgn 32 (uns 32 ((L.vehUs : Int) - ts))
  let r := L.get (Reg.SX_CONN_CFG_ROUTE c)
  if !((r = 3 || r = route) && ofBe (slice u 0 1) / 64 = 1 && decide (len ≤ 48) && unitFits route u.length len) then
    L.sxDiscard (Reg.SX_CNT_CHECK_COUNT c)
  else if ofBe (slice u (8 + len) 4) ≠ L.unitCheck c (u.take (8 + len)) then L.sxDiscard (Reg.SX_CNT_CHECK_COUNT c)
  else if !(L.bit Reg.TB_STAT_VALID && decide (-((10 * L.get (Reg.SX_CONN_CFG_SKEW c) : Nat) : Int) ≤ age)
      && decide (age ≤ (250 * L.get (Reg.SX_CONN_CFG_EXPECT c) : Nat))) then L.sxDiscard (Reg.SX_CNT_STALE_COUNT c)
  else if d = 0 then L.sxDiscard (Reg.SX_CNT_DUP_COUNT c)
  else if !(decide (1 ≤ d ∧ d ≤ L.get (Reg.SX_CONN_CFG_SEQWIN c)) || L.sxState c = 1 || L.sxState c = 3) then
    L.sxDiscard (Reg.SX_CNT_OLD_COUNT c)
  else L.sxAccept c seq len ts d (slice u 8 len)

/-- A unit received on a route: byte 0 names its connection; one that is no enabled consumer here takes nothing. -/
def Lane.sxReceive (L : Lane) (route : Nat) (u : List Byte) : Lane :=
  match u with
  | [] => L
  | b :: _ => if L.isConsumer (b.toNat % 64) then L.sxTest (b.toNat % 64) route u else L

/-- SX_UNIT_RECEIVED (R541). -/
def execSxUnitReceived (x : LaneId) (route : Fin 3) (unit : List Byte) (s : State) : Out :=
  onUp x (fun L => L.sxReceive route unit) s

/-! ### Expiry (R544) -/

/-- The tick at which a LIVE connection expires: EXPECT × 250 µs after its last acceptance. -/
def Lane.expiryDue (L : Lane) (c : Nat) : Option Nat :=
  if L.sxState c = 2 && L.isConsumer c then some ((L.conn c).lastAt + L.get (Reg.SX_CONN_CFG_EXPECT c) * 250 * usTicks) else none

def Lane.sxExpire (L : Lane) (c : Nat) : Lane :=
  let L1 := ((L.set (Reg.SX_CONN_STAT_STATE c) 3).count (Reg.SX_CNT_EXPIRED_COUNT c)).event 145
  (L1.raise 136 c).motionExpired c

/-- SX_EXPIRY (R544). -/
def execSxExpiry (x : LaneId) (c : Fin 64) (s : State) : Out := atDue x (fun L => L.expiryDue c) (fun L => L.sxExpire c) s

/-- What a write of SX_CONN_CFG does beyond its fields: EN written 1 sets STATE to WAITING and starts the numbering anew (R540,
Table 12.14); EN written 0 closes the connection. -/
def Lane.afterConnCfg (L : Lane) (c : Nat) : Lane :=
  if L.bit (Reg.SX_CONN_CFG_EN c) then (L.setConn c {}).set (Reg.SX_CONN_STAT_STATE c) 1
  else L.set (Reg.SX_CONN_STAT_STATE c) 0

end Sys2Proof.Machine
end

