-- ==== Sys2Proof/Machine/Vf.lean ====
section
/-! DEFINITION. The vehicle ferry and the frames beside it (10_ferry.md R451, R469 to R484): departures and landings, passes, launches,
other frames, and the guard band. -/

namespace Sys2Proof.Machine

/-! ### Time (R478, R482) -/

/-- The cycle in ns, and the LOCAL tick at which vehicle time reaches a number of ns. -/
def Lane.vehCycleNs (L : Lane) : Nat := max 1 (L.vehCyc * 125000)
def Lane.vehTick (L : Lane) (ns : Nat) : Option Nat := L.baseReaches 4 ns

/-- Whether the lane takes part in its ring. -/
def Lane.onRing (L : Lane) : Bool := L.bit Reg.VF_CTRL_EN && L.bit Reg.TB_STAT_VALID

/-- The sailing whose latch point comes next, and when: 2 µs before its departure (R460). -/
def Lane.vehLatchDue (L : Lane) : Option (Nat × Nat) :=
  if L.onRing then
    let n0 := (L.vehNs + 2000 + L.vehCycleNs - 1) / L.vehCycleNs
    let n := if L.vf.berth.any fun b => b.1 = n0 then n0 + 1 else n0
    (L.vehTick (n * L.vehCycleNs - 2000)).map fun t => (n, t)
  else none

/-- The own berth of a vehicle sailing, taken at its latch point. -/
def Lane.vehLatch (L : Lane) (n : Nat) : Lane :=
  let r := L.makeBerth .vehicle (L.get Reg.VF_CTRL_NODE) n 0
  { r.1 with vf := { r.1.vf with berth := some (n, r.2) } }

/-- The time a frame of `len` bytes without FCS takes on the wire at 1,000 Mbit/s, in ticks. -/
def wireTicks (len : Nat) : Nat := ((len + 12) * 8 + 9) / 10

/-- The LOCAL ticks at which ferry passes are expected at a port in the present and the next cycle: a pass enters by port 0 and
leaves by port 1 64 ticks later (R470, R479); the unloading pass follows one lap after the loading pass. -/
def Lane.passTimes (L : Lane) (p : Nat) : List Nat :=
  if L.onRing then
    let n := L.vehNs / L.vehCycleNs
    let arrive := L.nodeArrive (L.ownIndex .vehicle)
    let offs := if L.bit Reg.VF_STAT_SELF_HM then (if p = 1 then [0, L.vehLap] else [L.vehLap, 2 * L.vehLap])
      else [arrive + 64 * p, L.vehLap + arrive + 64 * p]
    [n, n + 1].flatMap fun k => match L.vehTick (k * L.vehCycleNs) with
      | none => []
      | some t => offs.map (t + ·)
  else []

/-- When a frame of `len` bytes may start on a port at or after `t`: the port is free, and the frame does not end less than VF_GUARD before
a pass is expected nor start before that pass has left (R482). -/
def Lane.startTick (L : Lane) (p len t : Nat) : Nat :=
  let pass := wireTicks L.vehFrame
  (L.passTimes p).foldl (fun u e => if e < u + wireTicks len + L.get Reg.VF_GUARD_GUARD && u < e + pass then e + pass else u)
    (max t (L.vf.busy.get p))

/-! ### Sending -/

def linkFld (p : Nat) : Fld := if p = 0 then Reg.VF_STAT_LINK0 else Reg.VF_STAT_LINK1

/-- A frame leaves by its port now; a port that is down sends nothing. -/
def Lane.emit (L : Lane) (o : VfOut) : Lane :=
  if L.bit (linkFld o.port) then
    { L with vf := { L.vf with out := L.vf.out ++ [o], busy := L.vf.busy.set o.port (L.now + wireTicks o.bytes.length) } }
  else L

/-- VF_MAC and VF_DA as numbers. -/
def Lane.vfMac (L : Lane) : Nat := L.get Reg.VF_MAC_HI_MAC * 2 ^ 32 + L.get Reg.VF_MAC_LO_MAC
def Lane.vfDa (L : Lane) : Nat := L.get Reg.VF_DA_HI_DA * 2 ^ 32 + L.get Reg.VF_DA_LO_DA

/-- The fields of a vehicle-ferry frame (Table 10.4). -/
def wireNum (f : VFrame) (i n : Nat) : Nat := ofBe (slice f.bytes i n)
def wireKind (f : VFrame) : Nat := wireNum f 14 1
def wireOrig (f : VFrame) : Nat := wireNum f 15 1 % 16
def wireSailing (f : VFrame) : Nat := wireNum f 16 4
def wireManifest (f : VFrame) : Nat := wireNum f 20 4
def wireCheckOk (f : VFrame) : Bool := wireNum f 24 4 = crc32c (slice f.bytes 14 10)
def wireBerths (f : VFrame) : List Byte := f.bytes.drop 28

/-- Whether a frame is a ferry frame (R481). -/
def Lane.isFerry (L : Lane) (etherType da : Nat) : Bool := etherType = L.vehEtype && da = L.vfDa

/-- Whether a frame counts as one of the ring's at port 0: the node takes part, the port is up, the frame is a ferry frame, and its HCHECK
holds (R452, R480, R481). -/
def Lane.takesFrame (L : Lane) (f : VFrame) : Bool :=
  L.bit Reg.VF_CTRL_EN && L.bit Reg.VF_STAT_LINK0 && L.isFerry (wireNum f 12 2) (wireNum f 0 6) && wireCheckOk f

/-- An own ferry frame (Table 10.4): its berths, or bytes 0 up to FRAME where it has none (R451). -/
def Lane.ferryFrame (L : Lane) (kind n : Nat) (berths : List Byte) : List Byte :=
  let head := beBytes 1 kind ++ beBytes 1 (laneNum L.me * 16 + L.get Reg.VF_CTRL_NODE) ++ beBytes 4 (n % 2 ^ 32) ++
    beBytes 4 (L.get Reg.VF_MAN_CRC_CRC)
  beBytes 6 L.vfDa ++ beBytes 6 L.vfMac ++ beBytes 2 L.vehEtype ++ head ++ beBytes 4 (crc32c head) ++
    (if berths.isEmpty then List.replicate (L.vehFrame - 28) 0 else berths)

/-- A received ferry frame as it goes on by port 1: cut-through, with its berths as given and an FCS that fails where the received one did
(R452, R479). -/
def passOn (f : VFrame) (berths : List Byte) : VfOut := ⟨1, true, f.bytes.take 28 ++ berths, f.fcsOk⟩

/-- A ferry pass goes on by its port: at once, or delayed until the port is free and the passes before it have left (R483). -/
def Lane.sendPass (L : Lane) (o : VfOut) : Lane :=
  if L.vf.busy.get o.port ≤ L.now && (L.vf.waiting.get o.port).isEmpty then L.emit o
  else
    let L1 : Lane := { L with vf := { L.vf with waiting := L.vf.waiting.set o.port (L.vf.waiting.get o.port ++ [o]) } }
    ((L1.count Reg.VF_CNT_DELAY_COUNT).raise 115 o.port).event 158

/-- FERRY_PASS_DELAYED (R483): the oldest held pass leaves once its port is free. -/
def Lane.sendDelayed (L : Lane) (port : Nat) : Lane :=
  match L.vf.waiting.get port with
  | [] => L
  | o :: t => ({ L with vf := { L.vf with waiting := L.vf.waiting.set port t } }).emit o
def Lane.delayedDue (L : Lane) (port : Nat) : Option Nat :=
  if (L.vf.waiting.get port).isEmpty then none else some (L.vf.busy.get port)
def execFerryPassDelayed (x : LaneId) (port : Fin 2) (s : State) : Out := atDue x (·.delayedDue port) (·.sendDelayed port) s

/-! ### Departure and landing (R463, R478) -/

/-- The berth of node-table entry `i` in the bytes of a frame from its berths on. -/
def Lane.vehBerth (L : Lane) (i : Nat) (bs : List Byte) : List Byte :=
  slice bs (L.nodeOffset .vehicle i - 28) (L.berthLen .vehicle i)

/-- HM_VALID: a sailing landed within the last two cycles (Table 10.19). -/
def Lane.showVf (L : Lane) : Lane :=
  if L.vf.landedAt.any fun t => L.now ≤ t + 2 * (L.vehCyc * 12500) then L else L.set Reg.VF_STAT_HM_VALID 0

/-- The frames of an element's words (R585): each as long as its NARG says; what is left at the end, as it is. -/
def splitFrames : Nat → List Nat → List (List Nat)
  | fuel + 1, w :: t =>
    let n := w % 64 + 2
    (w :: t).take n :: splitFrames fuel ((w :: t).drop n)
  | _, _ => []

/-- Whether a node's berth is a host berth: that of some partition with the vehicle-ferry route (R582; log entry 222). -/
def Lane.hostNode (L : Lane) (node : Nat) : Bool :=
  (List.range 4).any fun p => L.bitOf (Reg.HL_PART_CFG_ROUTES p) 1 && L.get (Reg.HL_PART_CFG_NODE p) = node

/-- HL takes the frames of each SRC 8 element of a host berth that landed with AGE 0 (R585). -/
def Lane.takeHostElem (L : Lane) (i e : Nat) : Lane :=
  let d := L.desc .vehicle e
  if d.src = 8 && L.hostNode (L.nodeNum .vehicle i) && L.get (impsPresent .vehicle i e) = 1 && L.get (impsAge .vehicle i e) = 0 then
    let ws := (List.range d.words).map fun k => L.get (impFld .vehicle i (L.impBase .vehicle e + k))
    let fs := splitFrames d.words ((ws.drop 1).take (nth ws 0 % 2 ^ 8))
    { L with hl := { L.hl with inbox := L.hl.inbox ++ fs.map fun f => (L.nodeNum .vehicle i, f) } }
  else L

def Lane.takeHostFrames (L : Lane) : Lane :=
  if !L.bitOf Reg.HL_CTRL_ROUTE_EN 1 then L
  else L.forEach ((List.range (L.manNodes .vehicle)).filter (· ≠ L.ownIndex .vehicle)) fun i L =>
    L.forEach (L.elemsOf .vehicle i) fun e L => L.takeHostElem i e

/-- The berths of the last unloading pass land (R478, R463): event 154. Without one every berth is absent: the SLEW8 states are dropped (R468),
and HM_VALID clears after two cycles. -/
def Lane.vehLand (L : Lane) : Lane :=
  match L.vf.unloading with
  | none =>
    let L0 := L.dropSlews .vehicle
    let L1 : Lane := { L0 with vf := { L0.vf with idle := min 2 (L0.vf.idle + 1) } }
    if L1.vf.idle = 2 then L1.set Reg.VF_STAT_HM_VALID 0 else L1
  | some (n, orig, bs) =>
    let changed := !L.bit Reg.VF_STAT_HM_VALID || L.get Reg.VF_STAT_HM ≠ orig
    let L1 : Lane := { L with vf := { L.vf with unloading := none, idle := 0, landedAt := some L.now } }
    let L2 := L1.forEach (List.range (L1.manNodes .vehicle)) fun i L =>
      let b := L.vehBerth i bs
      L.landBerth .vehicle i 0 (if berthOwner (L.nodeNum .vehicle i) b && berthPasses n b then some b else none) Reg.VF_CNT_ABSENT_COUNT
    let L3 := ((L2.takeHostFrames.set Reg.VF_LAND_SAILING n).set Reg.VF_STAT_HM orig).set Reg.VF_STAT_HM_VALID 1
    if changed then (L3.event 154).event 155 else L3.event 154

/-- The sailing that departs at the present instant or next: each sailing once (R478). -/
def Lane.vehNext (L : Lane) : Nat :=
  let n := (L.vehNs + L.vehCycleNs - 1) / L.vehCycleNs
  if L.vf.departed = some n then n + 1 else n

/-- The LOCAL tick of that departure. -/
def Lane.vehDepartDue (L : Lane) : Option Nat := if L.onRing then L.vehTick (L.vehNext * L.vehCycleNs) else none

/-- The bytes of a loading pass with the own berth of sailing `n` written at its offset (R469); a node that the manifest does not name, and
one without a berth for that sailing, writes nothing. -/
def Lane.writeOwn (L : Lane) (n : Nat → Bool) (berths : List Byte) : List Byte :=
  match L.vf.berth with
  | some (m, b) =>
    if n m && decide (L.ownIndex .vehicle < L.manNodes .vehicle) then
      putBytes berths (L.nodeOffset .vehicle (L.ownIndex .vehicle) - 28) b
    else berths
  | none => berths

/-- The departure of sailing `n`: the landing, then the loading pass of a node that originates (R449: not in refuge, nor with a
manifest mismatch; R91: nor with an identity that does not match). -/
def Lane.vehDepart (L : Lane) (n : Nat) : Lane :=
  let L0 := L.vehLand
  let L1 : Lane := { L0 with vf := { L0.vf with departed := some n, readOnly := false } }
  if L1.bit Reg.VF_STAT_SELF_HM && !L1.md.refuge && !L1.vf.mismatch && L1.bit Reg.SYS_LANE_ID_MATCH then
    L1.sendPass ⟨1, true, L1.ferryFrame 1 n (L1.writeOwn (fun m => m = n) (List.replicate (L1.vehFrame - 28) 0)), true⟩
  else L1

/-- VEHICLE_DEPARTURE. -/
def execVehicleDeparture (x : LaneId) (s : State) : Out := atDue x Lane.vehDepartDue (fun L => L.vehDepart (s.lane x).vehNext) s

/-! ### Passes (R454, R458, R469 to R471) -/

/-- The berths of an unloading pass checked and kept for the landing: each failed check is counted and raised. -/
def Lane.readPass (L : Lane) (n orig : Nat) (bs : List Byte) : Lane :=
  let L1 := L.forEach (List.range (L.manNodes .vehicle)) fun i L =>
    let b := L.vehBerth i bs
    if (b.any (· ≠ 0)) && !berthPasses n b then (L.count Reg.VF_CNT_CHECK_COUNT).raise 114 else L
  { L1 with vf := { L1.vf with unloading := some (n, orig, bs) } }

/-- A valid frame of a sailing: any launch is abandoned (R476), and of two originators the higher-numbered one stops (R449). -/
def Lane.validFrame (L : Lane) (orig : Nat) : Lane :=
  let L1 : Lane := { L with vf := { L.vf with frameAt := L.now, launching := false } }
  if L1.bit Reg.VF_STAT_SELF_HM && decide (orig < L1.get Reg.VF_CTRL_NODE) then (L1.set Reg.VF_STAT_SELF_HM 0).event 155 else L1

/-- A frame with another manifest: read only, counted, and all its berths absent (R458); the node originates no more (R449). -/
def Lane.otherManifest (L : Lane) (f : VFrame) : Lane :=
  let L1 := (((L.count Reg.VF_CNT_MANIF_COUNT).raise 113).event 158).stopOriginating
  let L2 : Lane := { L1 with vf := { L1.vf with mismatch := true } }
  if wireKind f = 1 then L2.set Reg.VF_STAT_READONLY 1
  else if wireKind f = 2 then { L2 with vf := { L2.vf with unloading := some (wireSailing f, wireOrig f, []) } }
  else L2

/-- A loading pass: the own berth is written within the window (R469); else it is a late ferry (R471). While vehicle time is not valid (R494),
and from an enable to the next departure (Table 10.12), every pass is read only. -/
def Lane.loadingPass (L : Lane) (f : VFrame) (err : Int) : Lane :=
  let L1 := L.setI Reg.VF_STAT_ERR (satW 16 err)
  if !L.bit Reg.TB_STAT_VALID || L.vf.readOnly then (L.set Reg.VF_STAT_READONLY 1).sendPass (passOn f (wireBerths f))
  else if err.natAbs ≤ L.get Reg.VF_CTRL_WIN then
    if L.bit Reg.SYS_LANE_ID_MATCH then
      (L1.set Reg.VF_STAT_READONLY 0).sendPass (passOn f (L.writeOwn (fun m => m % 2 ^ 32 = wireSailing f) (wireBerths f)))
    else (L1.set Reg.VF_STAT_READONLY 1).sendPass (passOn f (wireBerths f))
  else ((((L1.set Reg.VF_STAT_READONLY 1).count Reg.VF_CNT_LATE_COUNT).raise 112).event 158).sendPass (passOn f (wireBerths f))

/-- The own sailing number with the low 32 bits of a frame's: the one nearest to the sailing that departs next. -/
def nearSailing (base w : Nat) : Nat :=
  let c := base / 2 ^ 32 * 2 ^ 32 + w
  if c + 2 ^ 31 < base then c + 2 ^ 32 else if base + 2 ^ 31 < c && 2 ^ 32 ≤ c then c - 2 ^ 32 else c

/-- The LOCAL tick at which a node expects the loading pass of a sailing: its departure and ARRIVE (R470). -/
def Lane.passExpected (L : Lane) (f : VFrame) : Option Nat :=
  if L.bit Reg.TB_STAT_VALID && wireKind f = 1 && decide (L.ownIndex .vehicle < L.manNodes .vehicle) then
    (L.vehTick (nearSailing L.vehNext (wireSailing f) * L.vehCycleNs)).map (· + L.nodeArrive (L.ownIndex .vehicle))
  else none

/-- A ferry pass at port 0. A frame whose HCHECK fails is discarded (R452); a node ends its own frames (R477). -/
def Lane.vehPass (L : Lane) (f : VFrame) (err : Int) : Lane :=
  if !L.takesFrame f || !(wireKind f = 1 || wireKind f = 2) || wireOrig f = L.get Reg.VF_CTRL_NODE then L
  else
    let L1 := L.validFrame (wireOrig f)
    if wireManifest f ≠ L1.get Reg.VF_MAN_CRC_CRC then (L1.otherManifest f).sendPass (passOn f (wireBerths f))
    else
      let L2 : Lane := { L1 with vf := { L1.vf with mismatch := false } }
      if wireKind f = 1 then L2.loadingPass f err
      else (L2.readPass (wireSailing f) (wireOrig f) (wireBerths f)).sendPass (passOn f (wireBerths f))

/-- The module brought to the arrival of a pass: `err` ticks after the expected one of a loading pass (R470). -/
def State.reachPass (s : State) (x : LaneId) (f : VFrame) (err : Int) : State :=
  match (s.lane x).passExpected f with
  | none => s
  | some t => if (s.lane x).takesFrame f then s.reach x ((t : Int) + err).toNat else s

/-- VEHICLE_PASS_ARRIVAL. -/
def execVehiclePassArrival (x : LaneId) (frame : VFrame) (err : Int) (s : State) : Out :=
  if (s.lane x).up then onLane x (fun L => L.vehPass frame err) (s.reachPass x frame err) else .next s

/-- LOADING_PASS_RETURN (R478): the originator sends the same bytes again as the unloading pass and reads them itself, while vehicle time is
valid (R494). -/
def execLoadingPassReturn (x : LaneId) (frame : VFrame) (s : State) : Out :=
  onUp x (fun L =>
    if L.takesFrame frame && L.bit Reg.VF_STAT_SELF_HM && wireKind frame = 1 && wireOrig frame = L.get Reg.VF_CTRL_NODE then
      let L1 := L.validFrame (wireOrig frame)
      if frame.fcsOk && L.bit Reg.TB_STAT_VALID then
        (L1.readPass (wireSailing frame) (wireOrig frame) (wireBerths frame)).sendPass
          ⟨1, true, L1.ferryFrame 2 (wireSailing frame) (wireBerths frame), true⟩
      else L1
    else L) s

/-! ### Launches (R473 to R475) -/

/-- When a node launches: LTMO cycles after the last valid frame, and after any hold (R473, R449, R494, R91). -/
def Lane.vehLaunchDue (L : Lane) : Option Nat :=
  if L.bit Reg.VF_CTRL_EN && L.bit Reg.VF_CTRL_LAUNCH && L.bit Reg.TB_STAT_VALID && !L.md.refuge && !L.vf.mismatch &&
      L.bit Reg.SYS_LANE_ID_MATCH then
    some (max (L.vf.frameAt + L.get Reg.VF_CTRL_LTMO * L.vehCyc * 12500) L.vf.hold)
  else none

/-- A launch frame of the vehicle ring sent. -/
def Lane.vehLaunch (L : Lane) : Lane :=
  let wait := L.get Reg.VF_CTRL_LTMO * L.vehCyc * 12500
  let L1 : Lane := { L with vf := { L.vf with launching := true, hold := L.now + wait } }
  (L1.count Reg.VF_CNT_LAUNCH_COUNT).sendPass ⟨1, true, L1.ferryFrame 3 0 [], true⟩

/-- A launch frame of the vehicle ring received at port 0: while sailings come in it is discarded (Table 10.12). One with another manifest is
counted and raised (R458); a lower-numbered one goes on as it came (R474), the own one makes the node harbour master (R475). -/
def Lane.vehLaunched (L0 : Lane) (f : VFrame) : Lane :=
  let L := L0.showVf
  let wait := L.get Reg.VF_CTRL_LTMO * L.vehCyc * 12500
  let own := L.get Reg.VF_CTRL_NODE
  if !L.takesFrame f || wireKind f ≠ 3 || (L.vf.idle < 2 && L.bit Reg.VF_STAT_HM_VALID) then L
  else if wireOrig f = own then
    if L.vf.launching && L.bit Reg.TB_STAT_VALID then
      ({ L.set Reg.VF_STAT_SELF_HM 1 with vf := { L.vf with launching := false, frameAt := L.now } }).event 155
    else L
  else
    let L1 := if wireManifest f ≠ L.get Reg.VF_MAN_CRC_CRC then L.otherManifest f else L
    if wireOrig f < own then
      ({ L1 with vf := { L1.vf with launching := false, hold := L.now + wait } }).sendPass (passOn f (wireBerths f))
    else L1

/-! ### Other frames (R480 to R482) -/

/-- Whether a frame is delivered to the lane, and whether it is forwarded (Table 10.10). -/
def Lane.handling (L : Lane) (da : Nat) : Bool × Bool :=
  if da / 16 = 0x0180C200000 then (false, false)
  else if da = L.vfMac then (true, false)
  else if da = 0xFFFFFFFFFFFF || (bitAt da 40 && L.bit Reg.VF_CTRL_MCAST) then (true, true)
  else (false, true)

/-- Bytes written into a receive ring, wrapping at its end. The ring lies in SRAM (Table 10.20): a byte that would fall elsewhere is not
stored (log entry 219). -/
def ringStore (m : Mem) (base size : Nat) : Nat → List Byte → Mem
  | _, [] => m
  | i, v :: t =>
    let a := base + i % size
    ringStore (if placeOf a = .sram then m.setByte a v else m) base size (i + 1) t

/-- A frame as it stands in a receive ring: a length word, then its bytes padded to a multiple of 4. -/
def ringBytes (bs : List Byte) : List Byte :=
  (beBytes 4 bs.length).reverse ++ bs ++ List.replicate ((4 - bs.length % 4) % 4) 0

/-- A frame delivered on a port (Table 10.20): event 152 or 153; one that would pass RD is discarded and counted. -/
def Lane.deliver (L : Lane) (m : Mem) (p : Nat) (bs : List Byte) : Lane × Mem :=
  let size := 2 ^ L.get (Reg.VF_RXB_SIZE p) * 4096
  let wr := L.get (Reg.VF_RXW_WR p) % size
  let used := (wr + size - L.get (Reg.VF_RXR_RD p) % size) % size
  let d := ringBytes bs
  if used + d.length < size then
    ((L.set (Reg.VF_RXW_WR p) ((wr + d.length) % size)).event (152 + p),
     ringStore m (4096 * L.get (Reg.VF_RXB_BASE p)) size wr d)
  else (L.count Reg.VF_CNT_DROP_COUNT, m)

/-- The bytes a transmit buffer holds. -/
def Lane.txFill (L : Lane) (p : Nat) : Nat := (L.vf.tx.get p).foldl (fun a b => a + b.bytes.length) 0

/-- The bytes of a one-step Sync with its Follow_Up information TLV (log entry 220). -/
def syncLen : Nat := 90

/-- A relayed Sync leaves by a port that is up and free, with no ferry pass near; else it is held (R482, Table 11.3). -/
def Lane.relaySync (L : Lane) (d p tTx : Nat) : Lane :=
  let t := tTx / 655360
  if (L.dom d).relay.isNone || !L.mayRelay d p tTx || !L.bit (linkFld p) || L.startTick p syncLen t ≠ t then L
  else
    let L1 := L.syncOut d p tTx
    { L1 with vf := { L1.vf with busy := L1.vf.busy.set p (t + wireTicks syncLen) } }

/-- SYNC_DEPARTURE (R497): at the time `tTx` of LOCAL, in 2^-16 ns. -/
def execSyncDeparture (x : LaneId) (d port : Fin 2) (tTx : Nat) (s : State) : Out :=
  if (s.lane x).up then onLane x (·.relaySync d port tTx) (s.reach x (tTx / 655360)) else .next s

/-- A frame put into a transmit buffer of 32 KiB (R482). -/
def Lane.holdFrame (L : Lane) (p : Nat) (f : VFrame) : Lane :=
  { L with vf := { L.vf with tx := L.vf.tx.set p (L.vf.tx.get p ++ [f]) } }
def Lane.fits (L : Lane) (p : Nat) (f : VFrame) : Bool := decide (L.txFill p + f.bytes.length ≤ 32768)

/-- A frame to forward: sent at once where the port is free and no pass is near, else held, else dropped (R482); its FCS fails where the
received one did (R452). -/
def Lane.forward (L : Lane) (p : Nat) (f : VFrame) : Lane :=
  if (L.vf.tx.get p).isEmpty && L.startTick p f.bytes.length L.now = L.now then L.emit ⟨p, false, f.bytes, f.fcsOk⟩
  else if L.fits p f then L.holdFrame p f
  else L.count Reg.VF_CNT_DROP_COUNT

/-- NON_FERRY_FRAME (R481). A ferry frame is none, and comes as VEHICLE_PASS_ARRIVAL, LOADING_PASS_RETURN or LAUNCH_FRAME_RECEIVED. The gPTP
frames that Table 11.2 supports are commands of their own; any other frame of EtherType 0x88F7 is discarded (R495). -/
def execNonFerryFrame (x : LaneId) (port : Fin 2) (etherType da : Nat) (frame : VFrame) (s : State) : Out :=
  let L := s.lane x
  if L.up && L.bit (linkFld port) && !L.isFerry etherType da then
    if etherType = 0x88F7 then onLane x (·.gptpDiscard port) s
    else
      let h := L.noteHeld.handling da
      let r := if h.1 then L.noteHeld.deliver (s.memOf x) port frame.bytes else (L.noteHeld, s.memOf x)
      .next ((s.setLane x (if h.2 then r.1.forward (1 - port) frame else r.1)).setMem x r.2)
  else .next s

/-- The oldest held frame of a port sent (R482): event 156 or 157. -/
def Lane.sendHeld (L : Lane) (p : Nat) : Lane :=
  match L.vf.tx.get p with
  | [] => L
  | b :: t => (({ L with vf := { L.vf with tx := L.vf.tx.set p t } }).emit ⟨p, false, b.bytes, b.fcsOk⟩).event (156 + p)

/-- When the oldest held frame of a port may leave. -/
def Lane.heldDue (L : Lane) (p : Nat) : Option Nat :=
  match L.vf.tx.get p with
  | [] => none
  | b :: _ => if L.bit (linkFld p) then some (L.startTick p b.bytes.length L.now) else none

/-- HELD_FRAME_SEND. -/
def execHeldFrameSend (x : LaneId) (port : Fin 2) (s : State) : Out := atDue x (fun L => L.heldDue port) (·.sendHeld port) s

/-- A write of VF_TXC[p] (Table 10.20): the frame is copied into the transmit buffer, and sent from there at once where it may; one of
no valid length, or that does not fit, is refused. -/
def Lane.sendRequest (L : Lane) (m : Mem) (p v : Nat) : Lane :=
  let len := (Reg.VF_TXC_LEN p).of v
  let bs : VFrame := ⟨m.load (2048 * (Reg.VF_TXC_ADDR p).of v) len, true⟩
  if len < 60 || 1514 < len || !L.fits p bs then L.raise 116
  else
    let L1 := L.holdFrame p bs
    if L1.heldDue p = some L1.now then L1.sendHeld p else L1

/-- FRAME_SEND_REQUEST (R482). -/
def execFrameSendRequest (x : LaneId) (port : Fin 2) (v : Word) (s : State) : Out :=
  onUp x (fun L => L.sendRequest (s.memOf x) port v.toNat) s

/-- PORT_LINK_CHANGE (R480): a port is up at full duplex and 1,000 Mbit/s only; event 159. -/
def execPortLinkChange (x : LaneId) (port : Fin 2) (link fullDuplex : Bool) (mbit : Nat) (s : State) : Out :=
  onUp x (fun L =>
    let isUp := link && fullDuplex && decide (mbit = 1000)
    if isUp = L.bit (linkFld port) then L else (L.setBool (linkFld port) isUp).event 159) s

end Sys2Proof.Machine
end

