-- ==== Sys2Proof/Machine/Bus.lean ====
section
/-! DEFINITION. The lane's bus (00_scope.md R9, R10, R22, R704): what an access to an address of Table 0.4 reads, and what a write to it does.
A register whose write has a rule of its own is written by the operation of its block; every other register by the access types of its
fields. An access answers whether it ended with a bus error response. -/

namespace Sys2Proof.Machine

/-! ### Addresses -/

/-- The index in an array of `n` registers from offset `base`, `stride` bytes apart, that an offset names. -/
def arr (o base n stride : Nat) : Option Nat :=
  if base ≤ o && (o - base) % stride = 0 && decide ((o - base) / stride < n) then some ((o - base) / stride) else none

/-- The dispatch target that a requester reads or writes for (R402, Table 9.4): the pair has one, a split core its own. -/
def Lane.dispatcherOf (L : Lane) (r : Nat) : Nat :=
  if L.lockstep || 1 < r then 0 else if r = L.get Reg.CP_STAT_LEAD then 0 else 1

/-! ### Writes (R704) -/

/-- The register at an address written by the access types of its fields: as a whole, and only where no locked field would change; else
the refusal of its block. -/
def Lane.plainWrite (L : Lane) (lock : Bool) (refuse : Lane → Lane) (a v : Nat) : Lane :=
  match regFields L.me a with
  | none => L
  | some fs => if lock && L.changesLocked fs v then refuse L else L.writeFlds fs v

/-- A register that nothing locks. -/
def Lane.freeWrite (L : Lane) (a v : Nat) : Lane := L.plainWrite false id a v

/-- SYS and CP (Tables 2.7 to 2.12, 8.8 to 8.14). -/
def Lane.writeSys (L : Lane) (a v : Nat) : Lane :=
  match a % 0x10000 with
  | 0x0108 => if bitAt v 31 then L.modeRequest (bitsOf v 30 28) else L.freeWrite a v
  | 0x8004 =>
    let L1 := if bitAt v 31 then L.requestSplit (b2n (bitAt v 29)) else L.set Reg.CP_SPLIT_LEAD (b2n (bitAt v 29))
    if bitAt v 30 then L1.requestRejoin else L1
  | _ => L.plainWrite (L.bit Reg.SYS_MODE_CFG_LOCK) Lane.modeRefusal a v

/-- TS (Tables 9.8 to 9.13). -/
def Lane.writeTs (L : Lane) (r a v : Nat) : Lane :=
  let o := a % 0x10000
  if o = 0x14 then if bitAt v 0 then L.ackDisp (L.dispatcherOf r) else L
  else if o = 0x18 then if bitAt v 0 then L.yieldTask (L.dispatcherOf r) (bitAt v 1) else L
  else if o = 0x1C then L.setFlag (v % 256) (bitsOf v 12 8)
  else if let some f := arr o 0x400 32 4 then L.writeFlowCfg f v
  else if let some f := arr o 0x500 32 4 then L.flowDone f v
  else if let some s := arr o 0x800 256 4 then L.writeRoute s v
  else if let some q := arr o 0xC00 64 4 then L.writeQCfg q v
  else if let some q := arr o 0xD00 64 4 then L.push q (v % 2 ^ 31) (r < 2) r
  else if let some n := arr o 0x1000 256 16 then L.writeTaskCfg n v
  else if let some n := arr o 0x1004 256 16 then L.clearFlags n v
  else if let some n := arr o 0x1008 256 16 then (L.freeWrite a v).settleTask n
  else L.freeWrite a v

/-- Whether a write to TS is a push that a queue not enabled answers with an error (R415). -/
def Lane.pushRefused (L : Lane) (a : Nat) : Bool := match arr (a % 0x10000) 0xD00 64 4 with
  | some q => !L.bit (Reg.TS_Q_CFG_EN q)
  | none => false

/-- IX (Tables 9.14 and 9.15). -/
def Lane.writeIx (L : Lane) (a v : Nat) : Lane :=
  if let some r := arr (a % 0x10000) 0x10 11 4 then L.writeWeight r v else L.freeWrite a v

/-- LE_CTRL (R190, R704): a refused change of CCFG leaves the other fields to the write. -/
def Lane.writeLeCtrl (L : Lane) (v : Nat) : Lane :=
  if L.bit Reg.LE_CTRL_LOCK && L.changesLocked [Reg.LE_CTRL_CCFG] v then L.raise 35
  else (L.writeFlds [Reg.LE_CTRL_LOCK, Reg.LE_CTRL_RUN] v).writeCcfg (Reg.LE_CTRL_CCFG.of v)

/-- LE_FIRE (R140, R159). -/
def Lane.writeFire (L : Lane) (v : Nat) : Lane :=
  let L1 := L.forEach (bitList v 8) fun n L => L.fire n
  if bitAt v 8 then L1.set Reg.LE_FIRE_EVT 1 else L1

/-- The registers and stores of LE; the stores refuse some core writes with a bus error (R137, R172, R189, R207). -/
def Lane.writeLe (L : Lane) (a v : Nat) : Lane × Bool :=
  let o := a % 0x10000
  if let some k := arr o 0x1000 1024 4 then (L.writeCoef k v, !L.full && (512 ≤ k || L.swapPending (k / 16)))
  else if let some i := arr o 0x4000 4096 4 then if i < 128 then (L, true) else ((L.setSig i v).esWatch L, false)
  else if let some i := arr o 0x8000 4096 8 then (L.writeProg i false v, L.progLocked i)
  else if let some i := arr o 0x8004 4096 8 then (L.writeProg i true v, L.progLocked i)
  else (
    if o = 0x00 then L.writeLeCtrl v
    else if o = 0x08 then L.writeFire v
    else if o = 0x10 then L.writeSwap v
    else if o = 0x40 then L.requestSwaps v
    else if o = 0x44 then L.requestAt v
    else if o = 0x48 then if L.get Reg.LE_CSWAP_AT_REQ ≠ 0 then L.coefRefused 5 else L.freeWrite a v
    else if o = 0x68 then L.writeHoldSched v
    else if o = 0x60 then L.writeHold 0 v
    else if o = 0x64 then L.writeHold 1 v
    else if o = 0x6C then if L.bit Reg.LE_HOLD_SCHED_GO then L.coefRefused 5 else L.freeWrite a v
    else if let some n := arr o 0x100 8 16 then L.writeTrigCfg n v
    else if let some n := arr o 0x104 8 16 then
      if L.bit (Reg.LE_TRIG_CFG_EN n) || L.bit (Reg.LE_TRIG_STAT_SCAN n) then L.raise 35 else L.freeWrite a v
    else L.freeWrite a v, false)

/-- FC_BR_CTRL[b] (R251, R252, R269, R529; REQ 2 is refused). -/
def Lane.writeBrCtrl (L : Lane) (b v : Nat) : Lane :=
  match v % 4 with
  | 0 => L.toOff b
  | 1 => if L.bit Reg.SM_STAT_TOFF then L.fcRefused else L.catchReq b
  | 3 => L.directReq b
  | _ => L.fcRefused

/-- FC_ID_CFG[b] (R261, R273). -/
def Lane.writeIdCfg (L : Lane) (b a v : Nat) : Lane :=
  let f := Reg.FC_ID_CFG_IDADDR b
  if f.of v < 0x80 || (L.changes [f] v && L.get (Reg.FC_BR_STAT_STATE b) ≠ 0) then L.fcRefused else L.freeWrite a v

/-- FC (Tables 5.8 to 5.16): some registers of a bridge change only while it is in OFF (R273). -/
def Lane.writeFc (L : Lane) (a v : Nat) : Lane :=
  let o := a % 0x10000
  let b := (o - 0x100) / 0x80
  let k := (o - 0x100) % 0x80
  if o = 0 then L.writeCarrier v
  else if o < 0x100 || 2 ≤ b then L.freeWrite a v
  else if k = 0 then L.writeBrCtrl b v
  else if [0x04, 0x10, 0x14, 0x18, 0x20, 0x24, 0x28].contains k && L.get (Reg.FC_BR_STAT_STATE b) ≠ 0 then L.fcRefused
  else if k = 0x38 then L.writeIdCfg b a v
  else if k = 0x40 || k = 0x44 then ((L.freeWrite a v).lockCheck b).esWatch L
  else L.freeWrite a v

/-- AF (Tables 6.9 to 6.16; R310, R314, R315, R322). -/
def Lane.writeAf (L : Lane) (a v : Nat) : Lane :=
  let o := a % 0x10000
  let b := (o - 0x100) / 0x100
  let k := (o - 0x100) % 0x100
  if let some i := arr o 0x500 4 4 then (L.freeWrite a v).writeAnCfg i
  else if o < 0x100 || 2 ≤ b then L.freeWrite a v
  else if k ≤ 0x08 then if L.get (Reg.FC_BR_STAT_STATE b) ≠ 0 then L.raise 69 b else (L.freeWrite a v).showAf b
  else if k = 0x24 then L.writeEncCfg b v
  else if k = 0x28 then
    if L.bit (Reg.AF_ENC_CFG_EN b) then L.raise 69 b else (L.freeWrite a v).showAf b
  else L.freeWrite a v

/-- GD (Tables 7.8 to 7.13; R333, R359, R360). Under LOCK a write that would change nothing raises nothing (R704; log entry 198). -/
def Lane.writeGd (L : Lane) (a v : Nat) : Lane :=
  let o := a % 0x10000
  let b := (o - 0x100) / 0x40
  let k := (o - 0x100) % 0x40
  if o < 0x100 || 2 ≤ b then L.plainWrite (L.bit Reg.GD_CTRL_LOCK) (·.raise 86) a v
  else if k = 0x08 || k = 0x0C then
    if L.get (Reg.FC_BR_STAT_STATE b) ≠ 0 then L.raise 86 b else L.plainWrite (L.bit Reg.GD_CTRL_LOCK) (·.raise 86 b) a v
  else if k = 0x10 then L.writeDirect b v
  else L.freeWrite a v

/-- AM_CTRL (R275; a change of a bridge's amplifier gain is refused outside OFF). -/
def Lane.writeAmCtrl (L : Lane) (v : Nat) : Lane :=
  let moves (f : Fld) (b : Nat) : Bool := L.changes [f] v && L.get (Reg.FC_BR_STAT_STATE b) ≠ 0
  let L1 := if moves Reg.AM_CTRL_CSA0 0 || moves Reg.AM_CTRL_CSA1 1 then L.fcRefused
    else L.writeFlds [Reg.AM_CTRL_CSA0, Reg.AM_CTRL_CSA1] v
  if bitAt v 31 then L1.calRequest else L1
def Lane.writeAm (L : Lane) (a v : Nat) : Lane := if a % 0x10000 = 0 then L.writeAmCtrl v else L.freeWrite a v

/-- XF (Tables 1.10 to 1.17, 10.14 to 10.17; R48, R75, R457, R487). With EN written 0 no manifest is accepted. XF_VCTRL.LOCK names the fields of
XF_VCTRL alone (Table 1.11), XF_CTRL.LOCK the window (R704). -/
def Lane.writeXf (L : Lane) (a v : Nat) : Lane :=
  let o := a % 0x10000
  if o = 0 then
    if bitAt v 0 then L.xfEnable v
    else
      let fs := [Reg.XF_CTRL_LOCK, Reg.XF_CTRL_WIN, Reg.XF_CTRL_LAUNCH]
      if L.bit Reg.XF_CTRL_LOCK && L.changesLocked fs v then L.raise 101
      else (((L.writeFlds fs v).set Reg.XF_CTRL_EN 0).set Reg.XF_MAN_VALID 0).set Reg.XF_MAN_ELEMS 0
  else if o = 0x18 then L.xfCommit v
  else if 0x1000 ≤ o && o < 0x1400 then if L.bit Reg.XF_CTRL_EN then L.raise 101 else L.freeWrite a v
  else if o = 0x4000 then L.writePrecedence v
  else if let some i := arr o 0x4040 16 4 then
    let L1 := L.freeWrite a v
    if L1.get (Reg.XF_AGR_TOL_TOL i) = L.get (Reg.XF_AGR_TOL_TOL i) then L1 else L1.toleranceChanged i
  else if let some i := arr o 0x4090 8 4 then L.writeImport i v
  else L.freeWrite a v

/-- VF (Tables 10.17 and 10.19 to 10.21; R457, R482, R488). A frame to send is read from memory. VF_CTRL.LOCK names NODE, WIN, LTMO and
VF_GUARD (Table 10.17). -/
def Lane.writeVf (L : Lane) (m : Mem) (a v : Nat) : Lane :=
  let o := a % 0x10000
  if o = 0 then
    if bitAt v 30 then L.vfEnable v
    else
      let fs := [Reg.VF_CTRL_LOCK, Reg.VF_CTRL_LAUNCH, Reg.VF_CTRL_MCAST, Reg.VF_CTRL_NODE, Reg.VF_CTRL_LTMO, Reg.VF_CTRL_WIN]
      if L.bit Reg.VF_CTRL_LOCK && L.changesLocked fs v then L.raise 116
      else ((((L.writeFlds fs v).set Reg.VF_CTRL_EN 0).set Reg.VF_MAN_VALID 0).set Reg.VF_MAN_ELEMS 0).stopOriginating
  else if o = 0x28 then L.vfCommit v
  else if let some p := arr o 0x4C 2 16 then L.sendRequest m p v
  else if 0x1000 ≤ o && o < 0x2000 then if L.bit Reg.VF_CTRL_EN then L.raise 116 else L.freeWrite a v
  else if o = 0x18 then L.plainWrite (L.bit Reg.VF_CTRL_LOCK) (·.raise 116) a v
  else L.freeWrite a v

/-- TB (Tables 11.5 to 11.9; R494, R505, R506, R509). A write of TB_CTRL that LOCK refuses does no RESYNC either (R704; log entry 199). -/
def Lane.writeTb (L : Lane) (a v : Nat) : Lane :=
  let o := a % 0x10000
  let locked (v : Nat) : Lane := L.plainWrite (L.bit Reg.TB_CTRL_LOCK) (·.raise 120) a v
  if o = 0 then
    let refused := L.bit Reg.TB_CTRL_LOCK && (regFields L.me a).any fun fs => L.changesLocked fs (clrBit v 30)
    let L1 := locked (clrBit v 30)
    if bitAt v 30 && !refused then (L1.slewChanged L).doResync else L1.slewChanged L
  else if o = 0x20 then if bitAt v 31 then L.snapAll else L
  else if let some d := arr o 0x100 2 32 then
    if (Reg.TB_DOM_CFG_DOMAIN d).of v = L.get (Reg.TB_DOM_CFG_DOMAIN (1 - d)) then L.raise 120 else (locked v).showSlave d
  else if let some c := arr o 0x400 16 16 then if 5 ≤ (Reg.TB_CMP_CFG_BASE c).of v then L.raise 120 else locked v
  else if let some c := arr o 0x404 16 16 then (locked v).setFired c false
  else if let some c := arr o 0x408 16 16 then (locked v).setFired c false
  else locked v

/-- SM_CMD: each command whose bit is 1; an assertion prevails over a release, which is refused (Table 12.7). -/
def Lane.writeSmCmd (L : Lane) (v : Nat) : Lane :=
  let L1 := if bitAt v 28 then L.smAbort else L
  let L2 := if bitAt v 31 then L1.smStop else L1
  let L3 := if bitAt v 30 then L2.smToff else L2
  if bitAt v 29 then L3.smRelease else L3

/-- SYS_START.MASK shows the inputs whose START is set (Table 2.14). -/
def Lane.showStart (L : Lane) : Lane :=
  (L.set Reg.SYS_START_MASK ((List.range 8).foldl (fun a i => a + L.get (Reg.SM_SI_CFG_START i) * 2 ^ i) 0)).startDone

/-- SM (Tables 12.9 to 12.12; R534, R547). The deputy judges with what was written (R516). -/
def Lane.writeSm (L : Lane) (a v : Nat) : Lane :=
  let o := a % 0x10000
  let locked : Lane := L.plainWrite (L.bit Reg.SM_CTRL_LOCK) (·.raise 133) a v
  if o = 0x08 then L.writeSmCmd v
  else if let some _ := arr o 0x100 8 4 then locked.showStart
  else if o = 0x120 then L.clearInputs (v / 2 ^ 24)
  else if let some b := arr o 0x230 2 4 then if isService L.mode then L.raise 133 b else (L.freeWrite a v).deputy
  else if 0x200 ≤ o && o < 0x280 then locked.deputy
  else locked

/-- FM (Tables 13.6 to 13.11; R557, R559, R561, R564, R567). Its locked registers refuse without a source. -/
def Lane.writeFm (L : Lane) (a v : Nat) : Lane :=
  let o := a % 0x10000
  if o = 0x08 then if bitAt v 31 then L.writePrel else L
  else if o = 0x0C then if bitAt v 31 then L.ackTrap else L
  else if let some g := arr o 0x20 6 4 then L.clearStatus g v
  else if let some g := arr o 0x60 6 4 then L.force g v
  else if let some s := arr o 0x400 192 4 then L.writeReact s v
  else L.plainWrite (L.bit Reg.FM_CTRL_LOCK) id a v

/-- PM (Table 15.11; R629, R639). -/
def Lane.writePm (L : Lane) (a v : Nat) : Lane :=
  match a % 0x10000 with
  | 0 =>
    let t := Reg.PM_REQ_TARGET.of v
    if bitAt v 31 then L.pmRequest t else L.set Reg.PM_REQ_TARGET t
  | 0x10 => if bitAt v 0 then { L.set Reg.PM_STAT_PADHOLD 0 with pm := { L.pm with pads := [] } } else L
  | _ => L.plainWrite (L.bit Reg.PM_CFG_LOCK) id a v

/-- ST (Table 15.13; R657, R658). -/
def Lane.writeSt (L : Lane) (a v : Nat) : Lane :=
  match a % 0x10000 with
  | 0x08 => if bitAt v 31 then L.requestLbist else L
  | 0x10 => if bitAt v 31 then L.requestBurn else L
  | _ => L.plainWrite (L.bit Reg.ST_CTRL_LOCK) id a v

/-- RS_CMD (R663, R664): a write requested or aborted. -/
def Lane.writeRsCmd (L : Lane) (m : Mem) (v : Nat) : Lane :=
  let n := Reg.RS_CMD_SLOT.of v
  let L0 := L.set Reg.RS_CMD_SLOT n
  let L1 := if bitAt v 31 then (L0.record m n none).set Reg.RS_CMD_RESULT (L0.recordCode n (m.word L0.stageAddr) (m.word (L0.stageAddr + 8)))
    else L0
  if bitAt v 30 then (L1.abortWrite n).set Reg.RS_CMD_RESULT (L1.abortWriteCode n) else L1
def Lane.writeRs (L : Lane) (m : Mem) (a v : Nat) : Lane := if a % 0x10000 = 4 then L.writeRsCmd m v else L.freeWrite a v

/-- HL_MOTION_CFG (R609): both partitions must have MOTION authority. -/
def Lane.writeMotionCfg (L : Lane) (a v : Nat) : Lane :=
  let motion (f : Fld) : Bool := L.get (Reg.HL_PART_CFG_AUTH (f.of v)) = 1
  if motion Reg.HL_MOTION_CFG_PPART && motion Reg.HL_MOTION_CFG_SPART then L.plainWrite (L.bit Reg.HL_CTRL_LOCK) id a v
  else L.set Reg.HL_STAT_CFGREF 1

/-- HL (Tables 14.13 to 14.16); its locked registers refuse without a source. -/
def Lane.writeHl (L : Lane) (a v : Nat) : Lane :=
  if a % 0x10000 = 0x0C then L.writeMotionCfg a v else L.plainWrite (L.bit Reg.HL_CTRL_LOCK) id a v

/-- SX (Tables 12.14 and 12.15; R540, R548). -/
def Lane.writeSx (L : Lane) (a v : Nat) : Lane :=
  let o := a % 0x10000
  let locked : Lane := L.plainWrite (L.bit Reg.SX_CTRL_LOCK) (·.raise 137) a v
  if o = 4 then L.writeSend v
  else if let some c := arr o 0x100 64 16 then
    let fs := (regFields L.me a).getD []
    if L.bit Reg.SX_CTRL_LOCK && L.changesLocked fs v then locked else locked.afterConnCfg c
  else locked

/-- A write to an address of the peripheral blocks (Table 0.3), and whether it ended with a bus error. An offset without a register is
reserved: nothing is written (R22). -/
def Lane.regWrite (L : Lane) (m : Mem) (r a v : Nat) : Lane × Bool :=
  match a / 0x10000 with
  | 0x4000 => (L.writeSys a v, false)
  | 0x4001 => (L.writeTs r a v, L.pushRefused a)
  | 0x4002 => (L.writeIx a v, false)
  | 0x4003 => L.writeLe a v
  | 0x4004 => (L.writeFc a v, false)
  | 0x4005 => (L.writeAf a v, false)
  | 0x4006 => (L.writeGd a v, false)
  | 0x4007 => (L.writeAm a v, false)
  | 0x4008 => (L.writeXf a v, false)
  | 0x4009 => (L.writeVf m a v, false)
  | 0x400A => (L.writeTb a v, false)
  | 0x400B => (L.writeSm a v, false)
  | 0x400C => (L.writeFm a v, false)
  | 0x400D => (L.writePm a v, false)
  | 0x400E => (L.plainWrite (L.bit Reg.TM_CFG_LOCK) id a v, false)
  | 0x400F => (L.writeSt a v, false)
  | 0x4010 => (L.writeRs m a v, false)
  | 0x4011 => (L.writeHl a v, false)
  | 0x4013 => (L.writeSx a v, false)
  | _ => (L, false)

/-! ### Reads -/

/-- The views that show what a lane holds elsewhere than in its registers, brought up to date in the block that is read. -/
def Lane.showBlock (L : Lane) (a : Nat) : Lane :=
  match a / 0x10000 with
  | 0x4000 => L.showPair
  | 0x4003 => L.showLe
  | 0x4004 => (L.showBridge 0).showBridge 1
  | 0x4005 => (L.showAf 0).showAf 1
  | 0x4008 => L.showVote.set Reg.XF_DIGEST_DIGEST L.digest
  | 0x4009 => L.showVf
  | 0x400B => L.measure.showStop
  | 0x400C => L.showFm
  | 0x400F => L.showTest
  | 0x4011 => L.forEach (List.range 4) fun p L => L.showPart p
  | _ => L

/-- The word of the register at an address; a reserved offset reads 0 (R22). -/
def Lane.regWord (L : Lane) (a : Nat) : Nat :=
  match regFields L.me a with
  | none => 0
  | some fs => L.word fs

/-- TS reads that act (R405, R413, R417). Where no task runs on the reading target no item is admitted, for want of a holder (log entry
175). -/
def Lane.readTs (L : Lane) (r a : Nat) : Lane :=
  let o := a % 0x10000
  if o = 0x10 then L.readDisp (L.dispatcherOf r)
  else if let some f := arr o 0x480 32 4 then
    match L.running (L.dispatcherOf r) with
    | some n => L.admitItem f n
    | none => L.set (Reg.TS_FLOW_ADMIT_ITEM f) 0
  else if let some q := arr o 0xE00 64 4 then L.pop q r
  else L

/-- A read of a time pair or of a snapshot pair (R506): LO latches HI for the reading requester, which HI then returns. -/
def Lane.readTb (L : Lane) (r a : Nat) : Nat × Lane :=
  let o := a % 0x10000
  let pair (b : Nat) : Nat × Lane := (L.pairValue b % 2 ^ 32, L.readLo r b)
  let latched (k d : Nat) : Nat := (spGet none (16 * r + k) L.tb.hi).getD d
  let hi (b : Nat) : Nat × Lane := (latched b 0, L)
  if let some i := arr o 0x28 10 4 then
    if i % 2 = 0 then
      (L.regWord a, { L with tb := { L.tb with hi := spSet none (16 * r + 8 + i / 2) (some (L.regWord (a + 4))) L.tb.hi } })
    else (latched (8 + i / 2) (L.regWord a), L)
  else match o with
  | 0x08 => pair 0
  | 0x0C => hi 0
  | 0x10 => pair 1
  | 0x14 => hi 1
  | 0x18 => pair 4
  | 0x1C => hi 4
  | _ => (L.regWord a, L)

/-- The stores of LE as a core reads them (R136, R188). -/
def Lane.readLe (L : Lane) (a : Nat) : Nat :=
  let o := a % 0x10000
  if let some k := arr o 0x1000 1024 4 then L.phys (L.windowAt k)
  else if let some i := arr o 0x4000 4096 4 then L.sig i
  else if let some i := arr o 0x8000 4096 8 then L.prog i % 2 ^ 32
  else if let some i := arr o 0x8004 4096 8 then L.prog i / 2 ^ 32
  else L.regWord a

/-- A read from the peripheral blocks: its value, and the lane after it. -/
def Lane.regRead (L : Lane) (r a : Nat) : Nat × Lane :=
  let L1 := L.showBlock a
  match a / 0x10000 with
  | 0x4001 =>
    let L2 := L1.readTs r a
    (L2.regWord a, L2)
  | 0x4003 => (L1.readLe a, L1)
  | 0x400A => L1.readTb r a
  | _ => (L1.regWord a, L1)

/-! ### The bus -/

/-- The IX decode-fault source (R10). -/
def Lane.decodeFault (L : Lane) : Lane := L.raise 27

/-- A word of the record-store window (R659). -/
def Lane.recordWord (L : Lane) (a : Nat) : Nat := spGet 0 ((a - 0x103C0000) / 4) L.rs.store
def Lane.setRecordWord (L : Lane) (a v : Nat) : Lane :=
  { L with rs := { L.rs with store := spSet 0 ((a - 0x103C0000) / 4) v L.rs.store } }

/-- The bytes of `v` that a mask selects, laid over a word. -/
def maskWord (mask v old : Nat) : Nat :=
  (List.range 4).foldl (fun a i => a + (if bitAt mask i then v else old) / 2 ^ (8 * i) % 256 * 2 ^ (8 * i)) 0

/-- A write of the bytes of `v` that a mask selects at word address `a` by requester `r`: the lane, its memory, and whether the access ended
with a bus error response. A register takes the whole word. The boot ROM takes no write; the record-store window takes those of RS
(requester 8) alone, and a core's write there ends as R10 states. -/
def busWrite (r a mask v : Nat) (L : Lane) (m : Mem) : (Lane × Mem) × Bool :=
  let w := a / 4 * 4
  match placeOf a with
  | .mram | .sram | .retention => ((L, m.setMasked w mask v), false)
  | .registers =>
    let p := L.regWrite m r w v
    ((p.1, m), p.2)
  | .rom => ((L, m), false)
  | .records =>
    if r < 2 then ((L.decodeFault, m), true)
    else if r = 8 then ((L.setRecordWord w (maskWord mask v (L.recordWord w)), m), false)
    else ((L, m), false)
  | .nothing => ((L.decodeFault, m), true)

/-- A read of the word that holds address `a`: its value, the lane after it, and whether the access ended with a bus error. -/
def busRead (r a : Nat) (L : Lane) (m : Mem) : (Nat × Lane) × Bool :=
  let w := a / 4 * 4
  match placeOf a with
  | .rom | .mram | .sram | .retention => ((m.word w, L), false)
  | .records => ((L.recordWord w, L), false)
  | .registers => (L.regRead r w, false)
  | .nothing => ((0, L.decodeFault), true)

/-- REGISTER_WRITE: a write by the core pair (R704). -/
def execRegisterWrite (x : LaneId) (addr v : Word) (s : State) : Out :=
  if (s.lane x).up then
    let p := (busWrite 0 addr.toNat 15 v.toNat (s.lane x).noteHeld (s.memOf x)).1
    .next ((s.setLane x p.1).setMem x p.2)
  else .next s

end Sys2Proof.Machine
end

