-- ==== Sys2Proof/Machine/Boot.lean ====
section
/-! DEFINITION. What BOOT loads, and its end (03_loop_engine.md R180, R181; 04_compensators.md R191, R192; 01_triplex.md R89; Table 2.3 No. 2). -/

namespace Sys2Proof.Machine

/-- The LE program store and the coefficient image loaded from their records (R180, R192): 4,096 instructions from slot 8, and
from slot 25 the coefficient words followed by the 128 words of the initial-state block; a banked image fills both banks. Of a program word
the high half comes first, and words that a shorter record lacks are 0 (log entries 212 and 213). -/
def Lane.loadProgram (L : Lane) : Lane :=
  match L.recordWords 8 with
  | none => L
  | some ws => L.forEach (List.range 4096) fun a L => L.setProg a (nth ws (2 * a) * 2 ^ 32 + nth ws (2 * a + 1))

def Lane.loadCoef (L : Lane) : Lane :=
  match L.recordWords 25 with
  | none => L
  | some ws =>
    let n := if L.full then 1024 else 512
    let L1 := L.forEach (List.range n) fun w L => L.setPhys w (nth ws w)
    let L2 := if L.full then L1 else L1.forEach (List.range 512) fun w L => L.setPhys (512 + w) (nth ws w)
    { L2 with le := { L2.le with initBlock := (List.range 128).map fun i => nth ws (n + i) } }

/-- The soft repairs take spares of their macros, rows first (R653; log entry 30): 16 rows and 4 columns each. -/
def Lane.applyRepairs (L : Lane) : Lane :=
  L.forEach (List.range 8) fun m L =>
    let n := countIf (fun a => decide (macroOf a = m)) L.st.repair
    let L1 := (L.set (Reg.ST_REPAIR_ROWS m) (min 16 n)).set (Reg.ST_REPAIR_COLS m) (min 4 (n - 16))
    if 20 < n then { L1 with st := { L1.st with exhausted := true } } else L1

/-- The registers whose record words BOOT does not write as a program would: those loaded as the reset is released, the requests of
firmware, and those that have a step of their own below. -/
def bootSkips (a : Nat) : Bool :=
  isEarly a || [0x40000108, 0x40008004, 0x40030000, 0x40040100, 0x40040180, 0x40080000, 0x40084000, 0x40090000, 0x400D0000].contains a ||
  (arr a 0x40030100 8 16).isSome

/-- A register loaded from the configuration record: its writable fields, with whatever such a write does in its block. -/
def Lane.bootWrite (L : Lane) (m : Mem) (a v : Nat) : Lane :=
  match regFields L.me a with
  | none => L
  | some fs => if bootSkips a || (configFlds fs).isEmpty then L else (L.regWrite m 0 a (configBits fs v)).1

/-- The precedence order loaded (R89): R48 keeps firmware from changing it in BOOT, and R88 asks for a permutation. -/
def Lane.bootPrecedence (L : Lane) (v : Nat) : Lane :=
  let ord := [Reg.XF_VCTRL_FIRST, Reg.XF_VCTRL_SECOND, Reg.XF_VCTRL_THIRD]
  let new := ord.map (·.of v)
  if new.contains 0 && new.contains 1 && new.contains 2 then L.writeFlds (Reg.XF_VCTRL_REVERT :: ord) v else L

/-- Trigger `n` loaded, and enabled where the record marks it: by the scan that every enable runs (R173, R180). -/
def Lane.bootTrig (L : Lane) (n v : Nat) : Lane :=
  let L1 := L.writeFlds [Reg.LE_TRIG_CFG_SRC n, Reg.LE_TRIG_CFG_LIMIT n, Reg.LE_TRIG_CFG_ENTRY n] v
  if bitAt v 31 then L1.scanned n else L1

/-- CCFG as the configuration record gives it (R180). -/
def Lane.bootCcfg (L : Lane) : Lane := L.set Reg.LE_CTRL_CCFG (Reg.LE_CTRL_CCFG.of ((L.configWord 0x40030000).getD 0))

/-- Whether the configuration, the loop program and the coefficient image can be read, and the image has the length that CCFG asks for
(Table 2.3 No. 2, R181, R191). -/
def Lane.imagesOk (L : Lane) : Bool :=
  (L.recordWords 0).isSome && (L.recordWords 8).isSome &&
  (L.recordWords 25).any fun ws => ws.length = if L.bootCcfg.full then 1152 else 640

/-- The records that BOOT reads, each bank that fails raised (R661), and RS_SLOT of every slot in which a record can begin (Table 15.14). -/
def Lane.bootReads (L : Lane) : Lane :=
  let L1 := L.forEach [0, 3, 8, 25] fun n L => L.readRecord n
  L1.forEach (fixedRecords.map (·.2.1) ++ (List.range 36).map (28 + ·)) fun n L => L.showSlot n

/-- What BOOT loads (R89, R180, R192, R549, R574, R653): the soft repairs, CCFG, program and coefficients, the configured registers, the
precedence, the triggers; LE_CTRL.RUN is set last. -/
def Lane.bootLoad (L : Lane) (m : Mem) : Lane :=
  let L1 : Lane := { L with st := { L.st with repair := (L.recordWords 3).getD [] } }
  let L2 := ((L1.applyRepairs.bootCcfg).loadProgram).loadCoef
  let L3 := L2.forEach L.configPairs fun p L => L.bootWrite m p.1 p.2
  let L4 := match L.configWord 0x40084000 with
    | none => L3
    | some v => L3.bootPrecedence v
  let L5 := L4.forEach (List.range 8) fun n M => match L.configWord (0x40030100 + 16 * n) with
    | none => M
    | some v => M.bootTrig n v
  let L6 := L5.set Reg.LE_CTRL_RUN 1
  L6.set Reg.XF_DIGEST_DIGEST L6.digest

/-- BOOT_COMPLETE (Table 2.3 No. 2): STARTUP with ENTRY_CYCLE 0 (log entry 204), rejoin stage 2; the count of failed boots returns to 0 (R113). An image that cannot be read or has
the wrong length, or a macro that needs more spares than it has, fails BOOT (R181, R653). -/
def execBootComplete (x : LaneId) (s : State) : Out :=
  let L := s.lane x
  if !(L.up && L.bootable) then .next s
  else
    let L0 := L.noteHeld.bootReads
    if !L0.imagesOk then .next (s.failBoot x L0)
    else
      let L1 := L0.bootLoad (s.memOf x)
      if L1.st.exhausted then .next (s.failBoot x (L1.raise 155))
      else
        let L2 := (L1.enterMode 1 1 0).setStage 2
        .next (s.setLane x ({ L2 with md := { L2.md with bootFails := 0 } }).startTests)

end Sys2Proof.Machine
end

