-- ==== Sys2Proof/Machine/HlServe.lean ====
section
/-! DEFINITION. Orders as HL performs them (14_host_orders.md R578 to R617): the checks, one operation per order, and module scope
over the relay element. -/

namespace Sys2Proof.Machine

/-- An order that HL has accepted: from Table 14.3, with the authority it runs with, the route of its operation's reports and where its
answer goes. A RAMP relayed brings its first sailing as a fifth argument. -/
structure Order where
  op : Nat
  scope : Bool
  resv : Bool
  narg : Nat
  part : Nat
  tag : Nat
  auth : Nat
  route : Nat
  args : List Nat
  origin : Origin
  deriving DecidableEq, Repr

/-- What an order has done in a lane: the lane and its memory, the code of Table 14.6, the operation it started, its response arguments. -/
structure Done where
  lane : Lane
  mem : Mem
  code : Nat
  opid : Option Nat := none
  args : List Nat := []

def Order.arg (o : Order) (i : Nat) : Nat := nth o.args i

/-- An effect of HL on a lane and its memory; HL runs in SLEEP also (Table 15.1). -/
def onAwakeMem (x : LaneId) (f : Lane → Mem → Lane × Mem) (s : State) : Out :=
  if (s.lane x).awake then
    let p := f (s.lane x).noteHeld (s.memOf x)
    .next ((s.setLane x p.1).setMem x p.2)
  else .next s

/-! ### Checks (R578, R588, R601) -/

/-- Whether an operation code of Table 14.5 takes a number of arguments. -/
def nargOk (op n : Nat) : Bool :=
  match op with
  | 0x01 | 0x05 | 0x06 | 0x07 => n = 0
  | 0x02 | 0x0D => n = 2
  | 0x03 | 0x10 => decide (2 ≤ n ∧ n ≤ 62)
  | 0x04 | 0x08 | 0x09 | 0x0B | 0x0C | 0x0E | 0x11 | 0x12 | 0x13 => n = 1
  | 0x0A => n = 4
  | _ => false

/-- Whether an authority holds an order (Table 14.1); `a0` is its first argument and `mode` the mode it is given in. -/
def authHolds (auth op a0 mode : Nat) : Bool :=
  [0x01, 0x02, 0x0C].contains op ||
  (match auth with
   | 0 => false
   | 1 => [0x08, 0x09, 0x0A].contains op
   | 2 => [0x05, 0x06, 0x07, 0x08, 0x09, 0x0B, 0x0D, 0x0E, 0x11].contains op || (op = 0x04 && a0 ≠ 6 && mode ≠ 6)
   | _ => [0x03, 0x04, 0x05, 0x06, 0x07, 0x08, 0x09, 0x0B, 0x0D, 0x0E, 0x10, 0x11, 0x12, 0x13].contains op)

/-- Whether the first argument of an order keeps within its field (Table 14.5). -/
def argOk (op a0 : Nat) : Bool :=
  match op with
  | 0x04 => decide (a0 < 8)
  | 0x08 | 0x0C | 0x11 => decide (a0 < 4)
  | 0x0B => decide (a0 < 2)
  | 0x0D => decide (a0 < 6)
  | 0x0E => decide (a0 < 5)
  | 0x10 => bitsOf a0 30 10 = 0
  | 0x12 => decide (a0 < 64)
  | 0x13 => decide (a0 < 256)
  | _ => true

/-- Whether an order starts an operation (Table 14.5). -/
def abortable (op : Nat) : Bool := [0x06, 0x0A, 0x0E, 0x11, 0x12, 0x13].contains op

/-- The code that keeps an order from being performed; 0 where none does. -/
def Lane.orderCode (L : Lane) (o : Order) : Nat :=
  if o.resv || !nargOk o.op o.narg then 0x10
  else if !authHolds o.auth o.op (o.arg 0) L.mode then 0x02
  else if !argOk o.op (o.arg 0) then 0x11
  else 0x00

/-! ### Operation numbers and code words (Table 14.5) -/

/-- A word with one byte per lane, A in [7:0]. -/
def laneBytes (f : LaneId → Nat) : Nat := allLanes.foldl (fun a y => a + f y % 2 ^ 8 * 2 ^ (8 * laneNum y)) 0

/-- The OPID word of an operation of this lane alone. -/
def Lane.opidWord (L : Lane) (id : Option Nat) : Nat := laneBytes fun y => if y = L.me then id.getD 0xFF else 0xFF

/-- This lane's byte of an OPID word. -/
def Lane.ownOpid (L : Lane) (w : Nat) : Nat := w / 2 ^ (8 * laneNum L.me) % 2 ^ 8

/-- An order refused. -/
def refuseWith (L : Lane) (m : Mem) (code : Nat) : Done := { lane := L, mem := m, code := code }

/-- An order that acts and answers with a code alone. -/
def acted (L : Lane) (m : Mem) : Done := { lane := L, mem := m, code := 0 }

/-- An order that has started an operation. -/
def started (L : Lane) (m : Mem) (id : Nat) : Done := { lane := L, mem := m, code := 0, opid := some id, args := [L.opidWord (some id)] }

/-- Whether the partition has its four open operations (R600). -/
def Lane.full4 (L : Lane) (p : Nat) : Bool := decide (4 ≤ L.openOps p)

/-! ### Orders of one lane -/

/-- PING: LOCAL, low word. -/
def Lane.doPing (L : Lane) (m : Mem) : Done := { lane := L, mem := m, code := 0, args := [L.now % 2 ^ 32] }

/-- A word read by HL, and whether the access ended with a bus error; one of LE's stores answers with its error code, and an uncorrectable one
is a free value (R134). -/
def hlRead (a : Nat) (L : Lane) (m : Mem) : (Nat × Lane) × Bool :=
  let r := busRead 7 a L m
  if inLeStore a then
    let p := r.1.2.readStores 1
    if p.2 then (p.1.takeFree, r.2) else ((r.1.1, p.1), r.2)
  else r

/-- Words read through HL's requester (R597): `none` where an access ends with a bus error. -/
def Lane.readWords (L : Lane) (m : Mem) (a : Nat) : Nat → Lane × Option (List Nat)
  | 0 => (L, some [])
  | n + 1 =>
    let r := hlRead a L m
    if r.2 then (r.1.2, none)
    else
      let t := r.1.2.readWords m ((a + 4) % 2 ^ 32) n
      (t.1, t.2.map (r.1.1 :: ·))

/-- The words that a response can carry: 14 where it leaves by CAN FD, else 62 (Table 14.2). -/
def Order.maxWords (o : Order) : Nat :=
  match o.origin with
  | .host 2 _ _ => 14
  | _ => 62

/-- READ: 1 to 62 words, or as many as the route's frame holds (log entry 178). -/
def Lane.doRead (L : Lane) (m : Mem) (o : Order) : Done :=
  if o.arg 1 = 0 || o.maxWords < o.arg 1 then refuseWith L m 0x11
  else
    let r := L.readWords m (o.arg 0) (o.arg 1)
    match r.2 with
    | none => refuseWith r.1 m 0x12
    | some ws => { lane := r.1, mem := m, code := 0, args := ws }

/-- Words written through HL's requester (R597): those before a failing one are written. -/
def Lane.writeWords (L : Lane) (m : Mem) (a : Nat) : List Nat → (Lane × Mem) × Bool
  | [] => ((L, m), true)
  | v :: t =>
    let r := busWrite 7 a 15 v L m
    if r.2 then (r.1, false) else r.1.1.writeWords r.1.2 ((a + 4) % 2 ^ 32) t

/-- WRITE (R598): in STARTUP, WORKSHOP and PARK. -/
def Lane.doWrite (L : Lane) (m : Mem) (o : Order) : Done :=
  if L.mode = 1 || L.mode = 6 || L.mode = 7 then
    let r := L.writeWords m (o.arg 0) (o.args.drop 1)
    { lane := r.1.1, mem := r.1.2, code := if r.2 then 0x00 else 0x12 }
  else refuseWith L m 0x0B

/-- What SM_CMD shows of a command that an order presents through it (R599). -/
def Lane.throughCmd (L : Lane) (code : Nat) : Lane := L.set Reg.SM_CMD_RESULT code

/-- TOFF and RELEASE (R599, R528, R530). -/
def Lane.doToff (L : Lane) (m : Mem) : Done :=
  if L.toffCode = 0 then acted (L.torqueOff.throughCmd 0) m else refuseWith (L.throughCmd L.toffCode) m L.toffCode
def Lane.doRelease (L : Lane) (m : Mem) : Done :=
  if L.releaseCode = 0 then acted (L.releaseToff.throughCmd 0) m else refuseWith (L.throughCmd L.releaseCode) m L.releaseCode

/-- STOP (R599, R521): a STOP while a stop runs changes nothing and starts no operation. -/
def Lane.doStop (L : Lane) (m : Mem) (o : Order) : Done :=
  if L.full4 o.part then refuseWith L m 0x16
  else if L.stopCode ≠ 0 then refuseWith (L.throughCmd L.stopCode) m L.stopCode
  else if L.stopping then { lane := L.throughCmd 0, mem := m, code := 0, args := [L.opidWord none] }
  else
    let p := L.openOp o.part o.route .stop false
    started ((p.2.startStop (some p.1)).throughCmd 0) m p.1

/-- ONEWAY (R599): SM_ONEWAY[b].SET; the deputy judges with it at once (R516). -/
def Lane.doOneway (L : Lane) (m : Mem) (o : Order) : Done :=
  acted ((L.setBool (Reg.SM_ONEWAY_SET (o.arg 0 / 2)) (bitAt (o.arg 0) 0)).deputy) m

/-- SUBSCRIBE: the reports of the order's route. -/
def Lane.doSubscribe (L : Lane) (m : Mem) (o : Order) : Done :=
  acted ((L.setBool (Reg.HL_RPT_CFG_TALLY o.route) (bitAt (o.arg 0) 1)).setBool (Reg.HL_RPT_CFG_FAULT o.route) (bitAt (o.arg 0) 0)) m

/-- FAULT_CLEAR (R599, R564). -/
def Lane.doFaultClear (L : Lane) (m : Mem) (o : Order) : Done := acted (L.clearStatus (o.arg 0) (o.arg 1)) m

/-- POWER (R629). -/
def Lane.doPower (L : Lane) (m : Mem) (o : Order) : Done :=
  if L.full4 o.part then refuseWith L m 0x16
  else if L.powerCode (o.arg 0) ≠ 0 then refuseWith L m (L.powerCode (o.arg 0))
  else
    let p := L.openOp o.part o.route .power false
    started (p.2.takePower (o.arg 0) (some p.1)) m p.1

/-- RECORD (R664). -/
def Lane.doRecord (L : Lane) (m : Mem) (o : Order) : Done :=
  let c := L.recordCode (o.arg 0) (m.word L.stageAddr) (m.word (L.stageAddr + 8))
  if L.full4 o.part then refuseWith L m 0x16
  else if c ≠ 0 then refuseWith L m c
  else
    let p := L.openOp o.part o.route (.record (o.arg 0)) false
    started (p.2.record m (o.arg 0) (some p.1)) m p.1

/-- BIST (R656): one at a time. -/
def Lane.doBist (L : Lane) (m : Mem) (o : Order) : Done :=
  if L.full4 o.part then refuseWith L m 0x16
  else if !bistMode L.mode then refuseWith L m 0x0B
  else if L.st.bist.isSome then refuseWith L m 0x16
  else
    let p := L.openOp o.part o.route .bist false
    started (p.2.startBist (o.arg 0) (some p.1)) m p.1

/-! ### Sailings and RAMPs (R433, R460, R611) -/

/-- Whether the lane takes part in sailings: XF enabled and ferry time adopted. -/
def Lane.sails (L : Lane) : Bool := L.xf.adopted && L.bit Reg.XF_CTRL_EN

/-- LOCAL at a ferry time that may lie before 0, as the first latch point after a launch does. -/
def Lane.localAt (L : Lane) (ferry : Int) : Nat := (ferry - L.xf.off).toNat

/-- The next sailing whose latch point is awaited, with its time: 2 µs before its departure. -/
def Lane.laneLatchDue (L : Lane) : Option (Nat × Nat) :=
  let n := max L.xf.next ((L.ferry + 200) / 2500)
  if L.sails && !(L.xf.latched && L.xf.next = n) then some (n, L.localAt ((n * 2500 : Nat) - 200)) else none

/-- The word of a RAMP in sailing `n` (R611). -/
def rampWord (r : Ramp) (n : Nat) : Int :=
  let v := r.start + (n - r.sailing : Nat) * r.step
  if 0 ≤ r.step then min v r.final else max v r.final

/-- Whether a RAMP reaches its commit point at the present tick or has passed it (R611, R616). -/
def Lane.rampCommitted (L : Lane) (r : Ramp) : Bool :=
  r.committed || (match L.laneLatchDue with
    | some (n, t) => decide (t ≤ L.now) && decide (r.sailing ≤ n) && rampWord r n = r.final
    | none => false)

/-! ### Aborts (R580, R613 to R616, R624) -/

/-- The abort of an open operation other than a script, presented to its owner: the code and the lane after it. A commit point that falls in
the same tick counts as passed (R616). -/
def Lane.abortOwned (L : Lane) (p : Op) : Nat × Lane :=
  if p.committed then (0x0C, L)
  else match p.kind with
    | .stop => if L.stopAbortCode = 0 then (0x00, L.endMonitored 4 false 0) else (L.stopAbortCode, L)
    | .ramp =>
      if L.hl.ramps.any fun r => r.opid = some p.id && L.rampCommitted r then (0x0C, L)
      else
      let L1 : Lane := { L with hl := { L.hl with ramps := L.hl.ramps.filter fun r => r.opid ≠ some p.id } }
      (0x00, (L1.endOp p.id false 0 none).restoreTarget)
    | .power =>
      if L.pm.qop = some p.id then
        let L1 : Lane := { (L.set Reg.PM_STAT_QVALID 0).set Reg.PM_STAT_QUEUED 0 with pm := { L.pm with qop := none } }
        (0x00, L1.endOp p.id false 0 none)
      else (0x00, { L with pm := { L.pm with abort := true } })
    | .script => (0x00, L)
    | .record n => (L.abortWriteCode n, L.abortWrite n)
    | .bist => (0x00, L.abortBist)

/-- The running script aborted before its commit point, with the operation it waits on (R624). -/
def Lane.abortScript (L : Lane) (r : ScriptRun) : Lane :=
  let L1 := match r.waiting, r.op.bind L.findOp with
    | some (true, _), some q => (L.abortOwned q).2
    | _, _ => L
  match L1.hl.run with
  | none => L1
  | some r' => L1.endScript r' false 0

/-- ABORT (R580, R614, R615): of an operation of the same partition. -/
def Lane.abortOp (L : Lane) (part id : Nat) : Nat × Lane :=
  match L.findOp id with
  | none => (0x0D, L)
  | some p =>
    if p.part ≠ part then (0x0D, L)
    else match p.kind, p.committed, L.hl.run with
      | .script, false, some r => (0x00, L.abortScript r)
      | _, _, _ => L.abortOwned p

def Lane.doAbort (L : Lane) (m : Mem) (o : Order) : Done :=
  let r := L.abortOp o.part (L.ownOpid (o.arg 0))
  { lane := r.2, mem := m, code := r.1 }

/-! ### Motion (R609 to R611) -/

/-- The connection of the primary motion host (0) or of the secondary (1). -/
def Lane.motionHost (L : Lane) (sel : Nat) : Nat :=
  if sel = 1 then L.get Reg.HL_MOTION_CFG_SCONN else L.get Reg.HL_MOTION_CFG_PCONN

/-- The RAMPs whose commit point has passed closed by a MOTION_SELECT (R611). -/
def Lane.closeCommitted (L : Lane) : Lane :=
  let L1 : Lane := { L with hl := { L.hl with ramps := L.hl.ramps.filter fun r => !r.committed } }
  let done := L.hl.ramps.filter fun r => r.committed
  if done.isEmpty then L else (L1.forEach done fun r L => L.endOp? r.opid true 0 none).restoreTarget

/-- MOTION_SELECT (R610, Table 14.11): the primary is selected only while it is LIVE. -/
def Lane.doMotionSelect (L : Lane) (m : Mem) (o : Order) : Done :=
  if o.arg 0 = 0 && L.sxState (L.motionHost 0) ≠ 2 then refuseWith L m 0x01
  else acted ((L.takeover (o.arg 0)).closeCommitted) m

/-- The words of the target element. -/
def Lane.targetWords (L : Lane) : Nat := (L.desc .lane (L.get Reg.HL_ELEM_TELEM)).words

/-- RAMP in this lane (R611), from sailing `arg 4` on. -/
def Lane.doRamp (L : Lane) (m : Mem) (o : Order) : Done :=
  if L.full4 o.part then refuseWith L m 0x16
  else if !L.permits .motion then refuseWith L m 0x0B
  else if L.targetWords ≤ o.arg 0 then refuseWith L m 0x11
  else
    let p := L.openOp o.part o.route .ramp false
    let r : Ramp := ⟨o.arg 0, sgn 32 (o.arg 1), sgn 32 (o.arg 2), sgn 32 (o.arg 3), o.arg 4, some p.1, false⟩
    started { p.2 with hl := { p.2.hl with ramps := p.2.hl.ramps ++ [r] } } m p.1

/-! ### Scripts (R621, R622) -/

/-- The steps of a script: each a step word, with an order's header and arguments after it; `none` where a kind is not one of Table 14.9
or an order is cut short. -/
def scriptSteps : Nat → List Nat → Option (List (List Nat))
  | _, [] => some []
  | 0, _ => none
  | n + 1, w :: t =>
    if bitsOf w 31 28 = 0 then
      match t with
      | [] => none
      | h :: a =>
        if a.length < h % 2 ^ 6 then none else (scriptSteps n (a.drop (h % 2 ^ 6))).map ((w :: h :: a.take (h % 2 ^ 6)) :: ·)
    else if 5 < bitsOf w 31 28 then none
    else (scriptSteps n t).map ([w] :: ·)

/-- The kind of a step, and the milliseconds it may wait. -/
def stepKind (st : List Nat) : Nat := bitsOf (nth st 0) 31 28
def stepWait (st : List Nat) : Nat := if stepKind st = 1 || stepKind st = 2 then nth st 0 % 2 ^ 20 else 0

/-- The check of R621 on the words of a script, for the authority of the partition that loads it. -/
def scriptOk (auth : Nat) (ws : List Nat) : Bool :=
  match scriptSteps 256 ws with
  | none => false
  | some steps =>
    ((steps.getLast?).any fun st => stepKind st = 5) &&
    (steps.all fun st => stepKind st ≠ 1 || decide (0 < stepWait st)) &&
    ((List.range steps.length).all fun i =>
      let st := steps.getD i []
      stepKind st ≠ 3 || decide (i + 1 + nth st 0 % 2 ^ 8 < steps.length)) &&
    (steps.all fun st => stepKind st ≠ 0 || (authHolds auth (bitsOf (nth st 1) 30 24) (nth st 2) 0 && !bitAt (nth st 1) 17)) &&
    decide (steps.foldl (fun a st => a + stepWait st) 0 ≤ 60000)

def Lane.script (L : Lane) (n : Nat) : Script := spGet {} n L.hl.scripts
def Lane.setScript (L : Lane) (n : Nat) (v : Script) : Lane := { L with hl := { L.hl with scripts := spSet {} n v L.hl.scripts } }

/-- SCRIPT_LOAD (R621). -/
def Lane.doScriptLoad (L : Lane) (m : Mem) (o : Order) : Done :=
  let slot := bitsOf (o.arg 0) 9 8
  let off := o.arg 0 % 2 ^ 8
  let ws := o.args.drop 1
  if L.hl.run.any fun r => r.slot = slot then refuseWith L m 0x16
  else if 256 < off + ws.length then refuseWith L m 0x11
  else
    let L1 := L.forEach (List.range ws.length) fun i L => L.set (Reg.HL_SCRIPT_WORD slot (off + i)) (nth ws i)
    if !bitAt (o.arg 0) 31 then acted (L1.setScript slot ⟨false, o.part⟩) m
    else if scriptOk o.auth ((List.range (off + ws.length)).map fun i => L1.get (Reg.HL_SCRIPT_WORD slot i)) then
      acted (L1.setScript slot ⟨true, o.part⟩) m
    else refuseWith ((L1.forEach (List.range 256) fun i L => L.set (Reg.HL_SCRIPT_WORD slot i) 0).setScript slot {}) m 0x11

/-- SCRIPT_RUN (R622): one script at a time. -/
def Lane.doScriptRun (L : Lane) (m : Mem) (o : Order) : Done :=
  if L.full4 o.part || L.hl.run.isSome then refuseWith L m 0x16
  else if !(L.script (o.arg 0)).runnable then refuseWith L m 0x11
  else
    let p := L.openOp o.part o.route .script false
    let r : ScriptRun := ⟨o.arg 0, 0, 0, none, none, p.1, o.part, false, none⟩
    let L1 : Lane := { p.2 with hl := { p.2.hl with run := some r } }
    started (((L1.set Reg.HL_STAT_SCRIPT (o.arg 0)).set Reg.HL_STAT_SCR_RUN 1).event 133) m p.1

/-! ### An order performed -/

/-- An order performed in this lane. MODE has a way of its own. -/
def Lane.perform (L : Lane) (m : Mem) (o : Order) : Done :=
  match o.op with
  | 0x01 => L.doPing m
  | 0x02 => L.doRead m o
  | 0x03 => L.doWrite m o
  | 0x05 => L.doToff m
  | 0x06 => L.doStop m o
  | 0x07 => L.doRelease m
  | 0x08 => L.doOneway m o
  | 0x09 => L.doAbort m o
  | 0x0A => L.doRamp m o
  | 0x0B => L.doMotionSelect m o
  | 0x0C => L.doSubscribe m o
  | 0x0D => L.doFaultClear m o
  | 0x0E => L.doPower m o
  | 0x10 => L.doScriptLoad m o
  | 0x11 => L.doScriptRun m o
  | 0x12 => L.doRecord m o
  | 0x13 => L.doBist m o
  | _ => refuseWith L m 0x10

/-- Whether an order acts in all lanes (Table 14.5). -/
def moduleScope (o : Order) : Bool := o.op = 0x0A || o.op = 0x0B || (o.scope && [0x05, 0x06, 0x07, 0x08, 0x09].contains o.op)

/-! ### The relay (R603 to R608) -/

/-- Why an order cannot be relayed; 0 where it can: no relay element declared, more than five arguments, the queue full. -/
def Lane.relayCode (L : Lane) (args : List Nat) : Nat :=
  if !L.bit Reg.HL_ELEM_EN then 0x13 else if 5 < args.length then 0x11 else if 16 ≤ L.hl.relayQ.length then 0x16 else 0x00

/-- The header word of an order (Table 14.3). -/
def Order.header (o : Order) : Nat := o.op * 2 ^ 24 + o.tag * 2 ^ 20 + o.part * 2 ^ 18 + b2n o.scope * 2 ^ 17 + o.narg

/-- A request to other lanes (Table 14.4). -/
def Lane.relayRequest (L : Lane) (o : Order) (dests : List LaneId) : Lane :=
  L.relayPush ([relayWord false L.me o.part o.tag (laneMask dests.contains) false 0, o.header] ++ fitWords o.args 5 ++ [0])

/-- Results awaited (R606). -/
def Lane.awaitResults (L : Lane) (a : Await) : Lane := { L with hl := { L.hl with await := L.hl.await ++ [a] } }

/-- Whether the lane that last showed CLAIM is one that cannot be reached now (Table 14.6, ROUTE). -/
def Lane.commandUnreachable (L : Lane) : Bool := (others L.me).any fun y => !L.reaches y && (L.peerOf y).health.any (bitAt · hClaim)

/-- MODE (R607): submitted to the lane's own next watch evaluation, or relayed to the command lane. -/
def Lane.serveMode (L : Lane) (o : Order) : Lane :=
  match L.commandLane with
  | none => L.answer o.origin 0x04 (if L.commandUnreachable then 0x13 else 0x0A) none []
  | some c =>
    if c = L.me then L.submit ⟨o.auth, o.part, o.arg 0, o.origin⟩
    else
      let r := L.relayCode o.args
      if r ≠ 0 then L.answer o.origin 0x04 r none []
      else (L.relayRequest o [c]).awaitResults ⟨o.part, o.tag, 0x04, [c], [], some (L.now + 12 * msTicks), 0, o.origin = .script⟩

/-- The first sailing of a RAMP (R611): the first departure at least 8 sailings after its acceptance. -/
def Lane.rampSailing (L : Lane) : Nat := (L.ferry + 2499) / 2500 + 8

/-- A module-scope order (R608): performed here, relayed to the two other lanes, and answered when the results are in. -/
def Lane.serveModule (L : Lane) (m : Mem) (o : Order) : Lane × Mem :=
  let r := L.relayCode o.args
  if r ≠ 0 then (L.answer o.origin o.op r none [], m)
  else
    let o1 : Order := if o.op = 0x0A then { o with args := fitWords o.args 4 ++ [L.rampSailing] } else o
    let d : Done := L.perform m o1
    let L1 : Lane := d.lane.relayRequest o1 (others L.me)
    (L1.awaitResults ⟨o.part, o.tag, o.op, allLanes, [(L.me, d.code, d.opid.getD 0xFF)], none, 0, o.origin = .script⟩, d.mem)

/-- A MODE order that the command lane refuses before its evaluation counts as refused too (R110, Table 2.13). -/
def Lane.countRefused (L : Lane) (o : Order) : Lane :=
  if o.op = 0x04 && L.isCommand then L.count Reg.SYS_MODE_CNT_REFUSED else L

/-- An accepted order served: answered at once where it is refused or acts in this lane alone (R590, R608). -/
def Lane.serveOrder (L : Lane) (m : Mem) (o : Order) : Lane × Mem :=
  let c := L.orderCode o
  if c ≠ 0 then ((L.countRefused o).answer o.origin o.op c none [], m)
  else if o.op = 0x04 then (L.serveMode o, m)
  else if moduleScope o then L.serveModule m o
  else
    let d := L.perform m o
    (d.lane.answer o.origin o.op d.code d.opid d.args, d.mem)

/-! ### Results (R602, R606) -/

/-- The code and the response arguments of a relayed order whose wait is over; a lane without a result shows RELAY_LOST. -/
def awaitAnswer (a : Await) : Nat × List Nat :=
  let find (y : LaneId) := a.results.find? fun r => r.1 = y
  let code (y : LaneId) : Nat := ((find y).map (·.2.1)).getD 0x15
  let first := code (a.addressed.headD .A)
  let same := a.addressed.all fun y => code y = first
  let codes := laneBytes code
  let opids := laneBytes fun y => ((find y).map (·.2.2)).getD 0xFF
  if a.op = 0x04 then (first, [])
  else
    ((if same then first else 0x17),
     (if !same || [0x05, 0x07, 0x08, 0x09].contains a.op then [codes] else []) ++ (if a.op = 0x06 || a.op = 0x0A then [opids] else []))

/-- A relayed order acted (R606). -/
def Lane.finishAwait (L : Lane) (a : Await) : Lane :=
  let L1 : Lane := { L with hl := { L.hl with await := L.hl.await.filter (· ≠ a) } }
  let own := (a.results.find? fun r => r.1 = L.me).bind fun r => if r.2.2 = 0xFF then none else some r.2.2
  let r := awaitAnswer a
  if a.script then L1.answer .script a.op r.1 own r.2
  else match L1.hl.tags.find? fun t => t.part = a.part && t.tag = a.tag with
    | none => L1
    | some t => L1.answer (.host t.route a.part a.tag) a.op r.1 none r.2

/-- The awaits that are complete, answered. -/
def Lane.finishComplete (L : Lane) : Lane :=
  L.forEach (L.hl.await.filter fun a => a.addressed.all fun y => a.results.any fun r => r.1 = y) fun a L => L.finishAwait a

/-- A result that has landed from lane `y` (event 132). -/
def Lane.takeResult (L : Lane) (y : LaneId) (w : List Nat) : Lane :=
  let w0 := nth w 0
  let code := nth w 7 % 2 ^ 8
  let L1 := L.event 132
  if bitAt w0 8 then (if L1.md.fwAt.isSome then L1.answer .firmware 0x04 code none [] else L1)
  else
    let hit (a : Await) : Bool := a.part = bitsOf w0 28 27 && a.tag = bitsOf w0 26 23 && a.op = bitsOf (nth w 1) 30 24 &&
      a.addressed.contains y && !a.results.any fun r => r.1 = y
    match L1.hl.await.find? hit with
    | none => L1
    | some a =>
      let b : Await := { a with results := a.results ++ [(y, code, w0 % 2 ^ 8)] }
      ({ L1 with hl := { L1.hl with await := L1.hl.await.map fun c => if c = a then b else c } }).finishComplete

/-- The route of the reports of an operation that a relayed order starts: the lowest one its partition is bound to here. -/
def Lane.relayRoute (L : Lane) (p : Nat) : Nat := ((List.range 3).find? fun r => L.bitOf (Reg.HL_PART_CFG_ROUTES p) r).getD 0

/-- A request that has landed (R605, event 131), executed as if received here; MODE goes to the command lane's next evaluation (R607, R111). -/
def Lane.takeRequest (L : Lane) (m : Mem) (w : List Nat) : Lane × Mem :=
  let w0 := nth w 0
  let h := nth w 1
  let op := bitsOf h 30 24
  let p := bitsOf w0 28 27
  let y := (laneOf (bitsOf w0 30 29)).getD .A
  let fw := bitAt w0 8
  let narg := if op = 0x0A then 5 else h % 2 ^ 6
  let o : Order := ⟨op, bitAt h 17, false, h % 2 ^ 6, p, bitsOf w0 26 23, L.get (Reg.HL_PART_CFG_AUTH p), L.relayRoute p,
    (fitWords (w.drop 2) 5).take narg, if fw then .relayFw y else .relay y p (bitsOf w0 26 23)⟩
  let L1 := L.event 131
  let c := L1.orderCode o
  if fw then
    (if L1.isCommand then L1.submit ⟨1, 0, o.arg 0, o.origin⟩ else L1.answer o.origin op 0x0A none [], m)
  else if c ≠ 0 then ((L1.countRefused o).answer o.origin op c none [], m)
  else if op = 0x04 then
    (if L1.isCommand then L1.submit ⟨o.auth, p, o.arg 0, o.origin⟩ else L1.answer o.origin op 0x0A none [], m)
  else
    let d := L1.perform m o
    (d.lane.answer o.origin op d.code d.opid d.args, d.mem)

/-- The eight words of another lane's relay element. -/
def Lane.relayWords (L : Lane) (y : LaneId) : List Nat :=
  (List.range 8).map fun i => L.get (Reg.XF_IMP_WORD (laneNum y) (L.impBase .lane (L.get Reg.HL_ELEM_RELEM) + i))

/-- What the relay element of lane `y` brings at a landing (R605). -/
def Lane.landRelay (L : Lane) (m : Mem) (y : LaneId) : Lane × Mem :=
  if !L.bit Reg.HL_ELEM_EN || !L.impFresh y (L.get Reg.HL_ELEM_RELEM) then (L, m)
  else
    let w := L.relayWords y
    let w0 := nth w 0
    if bitAt w0 31 then (if bitsOf w0 30 29 = laneNum L.me then L.takeResult y w else L, m)
    else if bitAt w0 (18 + laneNum L.me) then L.takeRequest m w
    else (L, m)

/-- A landing counts the sailings of the results awaited (R606). -/
def Lane.countSailings (L : Lane) : Lane :=
  { L with hl := { L.hl with await := L.hl.await.map fun a => { a with sailings := a.sailings + 1 } } }

/-- Whether an awaited result is lost at LOCAL tick `t` (R606). -/
def awaitLost (t : Nat) (a : Await) : Bool :=
  match a.modeDue with
  | some d => decide (d ≤ t)
  | none => decide (16 ≤ a.sailings)

/-- When a relayed result counts as lost: 12 ms after a MODE order or a firmware request, else once 16 sailings have landed. -/
def Lane.relayDue (L : Lane) : Option Nat :=
  let times := (L.hl.await.filterMap fun a => match a.modeDue with
    | some d => some d
    | none => if 16 ≤ a.sailings then some L.now else none) ++ (L.md.fwAt.map (· + 12 * msTicks)).toList
  match times with
  | [] => none
  | t :: r => some (r.foldl min t)

/-- The waits that are over end (R606, R111). -/
def Lane.relayLost (L : Lane) : Lane :=
  let L1 := L.forEach (L.hl.await.filter (awaitLost L.now)) fun a L => L.finishAwait a
  match L1.md.fwAt with
  | none => L1
  | some t => if t + 12 * msTicks ≤ L1.now then L1.answer .firmware 0x04 0x0A none [] else L1

/-- RELAY_LOST (R606). -/
def execRelayLost (x : LaneId) (s : State) : Out := awakeAtDue x Lane.relayDue Lane.relayLost s

end Sys2Proof.Machine
end

