-- ==== Sys2Proof/Machine/Ferry.lean ====
section
/-! DEFINITION. The sailings of the lane ferry as a lane meets them (10_ferry.md R433 to R441, R456 to R463; 01_triplex.md R706): latch
points, departures, judgements and landings. What a lane does between its latch point and its landing with the frames themselves is in
Sys2Proof/Machine/Ring.lean. -/

namespace Sys2Proof.Machine

/-! ### Sailings -/

/-- The harbour master that the lane knows, and a new one (event 192). -/
def Lane.harbourMaster (L : Lane) : Option LaneId := laneOf (L.get Reg.XF_STAT_HM)
def Lane.setMaster (L : Lane) (y : LaneId) : Lane :=
  if L.harbourMaster = some y then L else (L.set Reg.XF_STAT_HM (laneNum y)).event 192

/-- Whether the lane may originate, relieve or launch (R449, R91). -/
def Lane.mayOriginate (L : Lane) : Bool := !L.md.refuge && !L.xf.mismatch && L.bit Reg.SYS_LANE_ID_MATCH

/-! ### The latch point (R460) -/

/-- The oldest relay message put into the relay element (R604). -/
def Lane.popRelay (L : Lane) : Lane :=
  match L.hl.relayQ with
  | [] => L
  | w :: t =>
    if L.bit Reg.HL_ELEM_EN then
      let L1 : Lane := { L with hl := { L.hl with relayQ := t } }
      (L1.set Reg.HL_STAT_RELAYQ t.length).refresh .lane (L.get Reg.HL_ELEM_RELEM) w false
    else L

/-- The RAMPs that have begun put their words into the target element in place of the unit's; the commit point is the first latch point
at which the word is final (R611). -/
def Lane.rampTarget (L : Lane) (n : Nat) : Lane :=
  let on := L.hl.ramps.filter fun r => decide (r.sailing ≤ n)
  if on.isEmpty || !L.bit Reg.HL_ELEM_EN then L
  else
    let ws := on.foldl (fun ws r => listPut 0 (uns 32 (rampWord r n)) r.word ws) (fitWords L.hl.target L.targetWords)
    let done (r : Ramp) : Bool := decide (r.sailing ≤ n) && rampWord r n = r.final
    let L1 : Lane := { L with hl := { L.hl with ramps := L.hl.ramps.map fun r => if done r then { r with committed := true } else r } }
    (L1.forEach (L.hl.ramps.filter fun r => done r && !r.committed) fun r L => match r.opid with
      | none => L
      | some id => L.commitOp id).refresh .lane (L.get Reg.HL_ELEM_TELEM) ws false

/-- The elements that XF, AF and the mode manager refresh for every sailing (R37, R93, R119, Table 10.7); the hall edges from rejoin stage 2
on (Table 1.5). -/
def Lane.latchElements (L : Lane) (n : Nat) : Lane :=
  let k := n * 2500 / L.outerPeriod
  let L1 := L.refreshSrc .lane 2 0 [L.healthWord] false
  let L2 := (L1.set Reg.XF_DIGEST_DIGEST L1.digest).refreshSrc .lane 2 2 [L1.digest] false
  let L3 := ((L2.modeVote k).formElement k).stateElement n
  let L4 := L3.forEach [0, 1] fun b L =>
    let M := if L.get Reg.XF_REJOIN_STAGE < 2 then L else (L.refreshSrc .lane 4 b (L.hallWords b (n * 2500)) false).hallSent b
    let M := M.showAf b
    (M.refreshSrc .lane 7 b [M.get (Reg.AF_POS_POS b)] false).refreshSrc .lane 7 (b + 2) [M.aqWord b] false
  if L4.bit Reg.XF_VSTAT_SELF_CMD then L4.publishShares else L4

/-- ITAG of the berth of sailing `n` (R438): the number of the first outer tick at or after its landing. -/
def Lane.itag (L : Lane) (n : Nat) : Nat :=
  if L.inputs.isEmpty then 0 else ((n + 1) * 2500 + L.outerPeriod - 1) / L.outerPeriod % 2 ^ 8

/-- QUALIFIED before a latch point: a split pair clears it (R385), and so does SELF_OK clear, with which it comes back (Table 1.6, K5). -/
def Lane.settleQual (L : Lane) : Lane :=
  let L0 := if L.lockstep then L else L.set Reg.XF_VSTAT_QUALIFIED 0
  if !L0.selfOk && L0.bit Reg.XF_VSTAT_QUALIFIED then
    { L0.set Reg.XF_VSTAT_QUALIFIED 0 with xf := { L0.xf with unqual := true } }
  else if L0.xf.unqual && L0.selfOk && L0.bit Reg.XF_VSTAT_IN_STEP && L0.get Reg.XF_REJOIN_STAGE = 6 && L0.lockstep then
    { L0.set Reg.XF_VSTAT_QUALIFIED 1 with xf := { L0.xf with unqual := false, justQual := true } }
  else L0

/-- PAIR_LOCK and QUALIFIED in the berth of the departure after a rejoin of the pair (R388). Where IN_STEP was lost or a disagreement seen, the
lane goes back to stage 5 with COUNT 0, in STARTUP (R101), and from there, out of step, to stage 4 (R76; log entry 205). -/
def Lane.pairRejoined (L : Lane) : Lane :=
  if !L.cp.afterRejoin || !L.lockstep then L
  else
    let L1 : Lane := { L with cp := { L.cp with afterRejoin := false } }
    let st := L1.get Reg.XF_REJOIN_STAGE
    if st < 5 then L1.set Reg.XF_REJOIN_COUNT 0
    else if !L.cp.lostStep && !L.cp.sawDisagree then
      let L2 := if st = 5 then L1.setStage 6 else L1
      let L3 := if L2.selfOk then L2.set Reg.XF_VSTAT_QUALIFIED 1 else L2
      let L4 : Lane := { L3 with xf := { L3.xf with justQual := L3.selfOk, unqual := !L3.selfOk } }
      if st = 5 then L4.adoptPublished else L4
    else
      let L2 := ((L1.set Reg.XF_VSTAT_QUALIFIED 0).set Reg.XF_REJOIN_COUNT 0).showStartup
      if L2.bit Reg.XF_VSTAT_IN_STEP then L2.setStage 5
      else
        let L3 := L2.setStage 4
        { L3 with xf := { L3.xf with waitDigest := true } }

/-- The latch point of sailing `n`: what is committed before it, the decision on a claim that QUALIFIED brought since the judgement (R77),
PAIR_LOCK after a rejoin of the pair, the elements, and the own berth. -/
def Lane.latchLane (L : Lane) (n : Nat) : Lane :=
  let L1 := (L.settleQual.commitStop.popRelay).rampTarget n
  let L2 := if L1.xf.justQual then L1.decideClaim else L1
  let L3 : Lane := { L2 with xf := { L2.xf with justQual := false, latchTicks := (L2.xf.latchTicks.2, L2.xf.tick) } }
  let L4 := L3.pairRejoined.latchElements n
  let r := L4.makeBerth .lane (laneNum L.me) n (L4.itag n)
  { r.1 with xf := { r.1.xf with next := n, latched := true, berth := r.2 }, md := { r.1.md with resetShown := r.1.md.resetNext } }

/-- The ferry whose latch point comes first, with its sailing and the LOCAL tick. -/
def Lane.latchDue (L : Lane) : Option (Ferry × Nat × Nat) :=
  match L.laneLatchDue, L.vehLatchDue with
  | some (n, t), some (m, u) => if t ≤ u then some (.lane, n, t) else some (.vehicle, m, u)
  | some (n, t), none => some (.lane, n, t)
  | none, some (m, u) => some (.vehicle, m, u)
  | none, none => none

/-- LATCH_POINT (R460). -/
def execLatchPoint (x : LaneId) (s : State) : Out :=
  if (s.lane x).up then
    match (s.lane x).latchDue with
    | none => .next s
    | some (.lane, n, t) => onLane x (·.latchLane n) (s.reach x t)
    | some (.vehicle, n, t) => onLane x (·.vehLatch n) (s.reach x t)
  else .next s

/-! ### Landing (R437, R456, R463) -/

/-- The sailing-complete event of the LE: every trigger of SRC 8 fires (R437, R140). -/
def Lane.fireLanding (L : Lane) : Lane :=
  L.forEach ((List.range 8).filter fun n => L.get (Reg.LE_TRIG_CFG_SRC n) = 8) fun n L => L.fire n

/-- The berths of sailing `n` moved into the import areas, event 18, the LE's sailing-complete event, and what the blocks take from them. -/
def Lane.landBerths (L : Lane) (n : Nat) : Lane :=
  let L1 := L.forEach allLanes fun y L => L.landBerth .lane (laneNum y) (n * 2500) (L.xf.got.get y) Reg.XF_CNT_ABSENT_COUNT
  let L2 := ((L1.set Reg.XF_LAND_SAILING n).event 18).fireLanding
  L2.forEach [0, 1] fun b L => L.forEach (others L.me) fun y L => L.hallMissing b y

/-- What follows: the parts of a snapshot, the agreed inputs' copies, the digest, the vote, shares and modes, the stages of a rejoin. A lane
that enters stage 4 here gathers from the next sailing on (R72), and a digest that differs bars the vote of this landing (R35). -/
def Lane.afterLanding (L : Lane) (n : Nat) : Lane :=
  let L1 := (((L.gatherPart n).landCopies L.nextTick).checkDigest).vote
  let L2 := (L1.declareLost.takeShares).landVote
  (L2.leavePark.landStages).showVote

/-- The landing of the sailing under way, if there is one. -/
def Lane.land (L : Lane) (m : Mem) : Lane × Mem :=
  match L.xf.cur with
  | none => (L, m)
  | some n =>
    let L1 : Lane := (L.landBerths n).afterLanding n
    let p := (others L.me).foldl (fun p y => p.1.landRelay p.2 y) (L1.countSailings, m)
    ({ p.1 with xf := { p.1.xf with cur := none, landedAt := some p.1.now } }, p.2)

/-- An effect on a running lane and its memory at a LOCAL tick. -/
def State.withLane (s : State) (x : LaneId) (f : Lane → Mem → Lane × Mem) : State :=
  let p := f (s.lane x).noteHeld (s.memOf x)
  (s.setLane x p.1).setMem x p.2

/-- LANDING (R433, R437). -/
def execLanding (x : LaneId) (s : State) : Out :=
  match (s.lane x).up && (s.lane x).sails, (s.lane x).xf.cur with
  | true, some n => .next ((s.reach x ((s.lane x).localOf ((n + 1) * 2500))).withLane x fun L m => L.land m)
  | _, _ => .next s

/-- A landing that is due at the present instant: it precedes an outer tick (R439, Table 10.12). -/
def Lane.landDue (L : Lane) (m : Mem) : Lane × Mem :=
  if L.xf.cur.any fun n => (n + 1) * 2500 ≤ L.ferry then L.land m else (L, m)

/-- OUTER_TICK (R436). -/
def execOuterTick (x : LaneId) (s : State) : Out :=
  match (s.lane x).up, (s.lane x).tickDue with
  | true, some t => .next ((s.reach x t).withLane x fun L m =>
      let p := L.landDue m
      (p.1.outerTick p.1.nextTick, p.2))
  | _, _ => .next s

/-! ### Departure (R433, R388) -/

/-- The sailing that departs next. -/
def Lane.departNext (L : Lane) : Nat := max L.xf.next (L.ferry / 2500)

/-- The lane at the departure of sailing `n`: a landing that is still due comes first; then the sailing begins with nothing received, and
a lane reset that waits for a departure may follow once the berth that departs shows REFUGE (R560). -/
def Lane.depart (L : Lane) (m : Mem) (n : Nat) : Lane × Mem :=
  let p := L.land m
  let L1 := p.1
  let own := if L1.xf.latched && L1.xf.next = n then L1.xf.berth else []
  let L2 : Lane := { L1 with
    xf := { L1.xf with
      next := n + 1, latched := false, cur := some n, judged := false, delay := 0, relief := false, readOnly := false, berth := own, asked := L1.asksSnapshot
      got := ⟨none, none, none⟩, head := [], accepted := [], matched := [] }
    md := { L1.md with resetReady := L1.md.resetReady || (L1.md.resetNext && L1.md.resetShown), resetNext := L1.md.resetNext && !L1.md.resetShown, resetShown := false } }
  let L3 := ((L2.set Reg.XF_STAT_RELIEF 0).set Reg.XF_STAT_WRAP0 0).set Reg.XF_STAT_WRAP1 0
  (L3.forEach (List.range 4) fun a L => L.analogDeparture a, p.2)

/-- The lane as it originates the sailing under way, `late` ticks after its departure: its own frames are there and carry its berth. -/
def Lane.originates (L : Lane) (late : Nat) : Lane :=
  let own := [(0, L.me), (1, L.me)]
  let got := if L.xf.berth.isEmpty then L.xf.got else L.xf.got.set L.me (some L.xf.berth)
  { L with xf := { L.xf with
      head := own ++ L.xf.head, accepted := own ++ L.xf.accepted, matched := own ++ L.xf.matched, got := got, frameAt := L.now, delay := late
      relief := decide (late ≠ 0) } }

/-! ### The links and frames between the lanes (R440, R442, R450) -/

/-- Whether the link of two lanes counts as up: valid line code in both directions (R442). -/
def linkIn (rx : List (LaneId × LaneId)) (a b : LaneId) : Bool := rx.contains (a, b) && rx.contains (b, a)

/-- The lane's view of its links brought up to date with the line codes it receives: XF_STAT.LINKS, and event 193 on a change. -/
def Lane.seeLinks (L : Lane) (net : Net) : Lane :=
  if (others L.me).all fun y => (L.xf.peer.get y).up = linkIn net.rx L.me y then L
  else
    let L1 := L.forEach (others L.me) fun y L => L.setPeer y { L.peerOf y with up := linkIn net.rx L.me y }
    (L1.set Reg.XF_STAT_LINKS ((others L.me).foldl (fun a y => a + b2n (linkIn net.rx L.me y) * 2 ^ laneNum y) 0)).event 193

/-- The header of a lane-ferry frame (Table 10.3): KIND, originator, path, RELIEF, the low 32 bits of the sailing number, MANIFEST, HCHECK. -/
def ringHeader (kind : Nat) (h : LaneId) (path : Nat) (relief : Bool) (n man : Nat) : List Byte :=
  let head := beBytes 1 kind ++ beBytes 1 (laneNum h * 64 + path * 32 + b2n relief * 16) ++ beBytes 4 (n % 2 ^ 32) ++ beBytes 4 man ++ beBytes 2 0
  head ++ beBytes 4 (crc32c head)

/-- The fields of a frame's header. -/
def ringNum (f : RingFrame) (i n : Nat) : Nat := ofBe (slice f.bytes i n)
def ringRelief (f : RingFrame) : Bool := bitAt (ringNum f 1 1) 4
def ringSailing (f : RingFrame) : Nat := ringNum f 2 4
def ringManifest (f : RingFrame) : Nat := ringNum f 6 4
def ringCheckOk (f : RingFrame) : Bool := ringNum f 12 4 = crc32c (f.bytes.take 12)

/-- A frame of the lane's own on a path. -/
def Lane.ownFrame (L : Lane) (net : Net) (kind path : Nat) (relief : Bool) (n : Nat) (berths : List Byte) : RingFrame :=
  ⟨L.me, path, kind, L.me, net.rx, ringHeader kind L.me path relief n (L.get Reg.XF_MAN_CRC_CRC) ++ berths⟩

/-- Frames put on the ring in place of the lane's earlier ones of the kinds given. -/
def Net.send (net : Net) (h : LaneId) (kinds : List Nat) (fs : List RingFrame) : Net :=
  { net with frames := net.frames.filter (fun f => !(f.orig = h && kinds.contains f.kind)) ++ fs }

/-- The main frames of sailing `n` sent on both paths: every berth but the lane's own filled with 0 (R454). -/
def Lane.sendMain (L : Lane) (net : Net) (n : Nat) (relief : Bool) : Net :=
  let zeros := List.replicate (L.berthLen .lane 0) (0 : Byte)
  let berths := allLanes.flatMap fun y => if y = L.me && !L.xf.berth.isEmpty then L.xf.berth else zeros
  net.send L.me [1, 2] ([0, 1].map fun p => L.ownFrame net 1 p relief n berths)

/-- The ring at the departure of sailing `n`: the frames of the sailing before have ended (R445). -/
def Net.depart (net : Net) (n : Nat) : Net :=
  { net with frames := net.frames.filter fun f => f.kind = 3 || ringSailing f = n % 2 ^ 32 }

/-- SAILING_DEPARTURE (R433, R440): the harbour master originates the sailing. Where another lane originates it too, both sail it, and the
higher-numbered one stops from the next on (R449). -/
def execSailingDeparture (x : LaneId) (s : State) : Out :=
  let L := s.lane x
  if L.up && L.sails then
    let n := L.departNext
    let s1 := (s.reach x (L.localOf (n * 2500))).withLane x fun L m =>
      let p := L.depart m n
      (p.1.seeLinks s.net, p.2)
    let M := s1.lane x
    if M.harbourMaster = some x && M.mayOriginate then
      .next { s1.setLane x (M.originates 0) with net := M.sendMain (s.net.depart n) n false }
    else .next { s1 with net := s.net.depart n }
  else .next s

/-! ### Judgement (R51, R60, R61, R706) -/

/-- When the sailing under way is judged: 21.0 µs after its departure or its relief. -/
def Lane.judgeDue (L : Lane) : Option Nat :=
  match L.xf.cur with
  | some n => if L.sails && !L.xf.judged then some (L.localOf (n * 2500 + 2100 + L.xf.delay)) else none
  | none => none

/-- The judgement of sailing `n`. -/
def Lane.judge (L : Lane) (n : Nat) : Lane :=
  let passed := L.xf.latchTicks.1 ≠ L.xf.latchTicks.2
  let L0 : Lane := { L with xf := { L.xf with judged := true, ownClaim := bitAt (L.berthWord L.xf.berth 2 0 0) hClaim } }
  let L1 := L0.forEach allLanes fun y L => L.judgePeer passed y
  let L2 := L1.setBool Reg.XF_VSTAT_CLAIM_CONFLICT (decide (2 ≤ countIf L1.claims allLanes))
  ((L2.judgeQuorum (L.localOf (n * 2500))).declareLost.decideClaim).showVote

/-- SAILING_JUDGEMENT. After 64 sailings in succession with the quorum met, an isolated lane performs a lane reset (R61). -/
def execSailingJudgement (x : LaneId) (s : State) : Out :=
  match (s.lane x).up, (s.lane x).judgeDue, (s.lane x).xf.cur with
  | true, some t, some n =>
    let s1 := (s.reach x t).withLane x fun L m => (L.judge n, m)
    if (s1.lane x).bit Reg.XF_VSTAT_ISOLATED && decide (64 ≤ (s1.lane x).xf.isoRun) then .next (s1.laneReset x) else .next s1
  | _, _, _ => .next s

end Sys2Proof.Machine
end

