-- ==== Sys2Proof/Machine/Gate.lean ====
section
/-! DEFINITION. The commit gate (08_core_pair.md R364 to R376, R384, R387) and the grants of the interconnect (09_tasks_arbitration.md R424). -/

namespace Sys2Proof.Machine

/-! ### Comparison (R364, R369) -/

/-- What the gate finds different in two transactions (Table 8.11, WHERE). -/
def txnDiffers (t0 t1 : CoreTxn) : Option Nat :=
  if (t0.kind = .wfi) ≠ (t1.kind = .wfi) then some 6
  else if t0.kind ≠ t1.kind then some 0
  else if t0.kind = .wfi then none
  else if t0.addr ≠ t1.addr then some 1
  else if t0.size ≠ t1.size || t0.mask ≠ t1.mask then some 2
  else if t0.kind = .store && t0.data ≠ t1.data then some 3
  else if t0.machineMode ≠ t1.machineMode || pmpAllows t0 ≠ pmpAllows t1 then some 4
  else none

/-- Whether the gate lets the pair go on: not in a restart, not in WFI, not paused by throttling (R644), and not stopped by the entry to a
low-power state from AP2 on (Table 15.2). -/
def Lane.coresRun (L : Lane) : Bool :=
  L.get Reg.CP_STAT_STATE ≠ 1 && !L.cp.wfi && !(L.bit Reg.PM_STAT_ENTERING && decide (2 ≤ L.pm.passed))

/-! ### The access (R365, R370, R371) -/

/-- Whether a store is journaled: to SRAM or retention SRAM outside the shared windows in force (R370). -/
def Lane.journals (L : Lane) (t : CoreTxn) : Bool :=
  let p := placeOf t.addr.toNat
  t.kind = .store && (p = .sram || p = .retention) && !L.inShared t.addr.toNat

/-- Whether an access is irrevocable (R371): every access but a journaled store and a read of SRAM or retention SRAM outside the shared
windows in force (log entry 55). -/
def Lane.irrevocable (L : Lane) (t : CoreTxn) : Bool :=
  let p := placeOf t.addr.toNat
  !((p = .sram || p = .retention) && !L.inShared t.addr.toNat)

/-- The journal entry of a store: address, byte mask, old value. -/
def Lane.noteStore (L : Lane) (m : Mem) (t : CoreTxn) : Lane :=
  let a := t.addr.toNat / 4 * 4
  { L with cp := { L.cp with journal := (a, t.mask, BitVec.ofNat 32 (m.word a)) :: L.cp.journal } }

/-- Whether a transaction makes an access that the gate performs: one that PMP denies makes no bus access, nor does a WFI. -/
def performed (t : CoreTxn) : Bool := pmpAllows t && t.kind ≠ .wfi

/-- A read by a core (R365): where it meets an error in a store of LE, the error is counted, or raises "uncorrectable ECC" and its value is
free (R134; log entry 15). An instruction fetch is answered as a load is, from a range that Table 0.4 gives no execute access too (log entry
168). -/
def Lane.gateRead (L : Lane) (m : Mem) (r : Nat) (t : CoreTxn) : Lane × Answer :=
  let a := t.addr.toNat
  let p := busRead r a L m
  match (if inLeStore a then t.ecc else .clean) with
  | .clean => (p.1.2, ⟨BitVec.ofNat 32 p.1.1, p.2⟩)
  | .corrected => (p.1.2.count Reg.LE_CNT_ECC_COUNT, ⟨BitVec.ofNat 32 p.1.1, p.2⟩)
  | .uncorrectable =>
    let g := (p.1.2.raise 10).takeFree
    (g.2, ⟨BitVec.ofNat 32 g.1, p.2⟩)

/-- An access performed for requester `r`, and what it answers: the data read and whether it ended with a bus error (R365). -/
def Lane.gateAccess (L : Lane) (m : Mem) (r : Nat) (t : CoreTxn) : (Lane × Answer) × Mem :=
  match t.kind with
  | .wfi => ((L, {}), m)
  | .store =>
    let p := busWrite r t.addr.toNat t.mask.toNat t.data.toNat L m
    ((p.1.1, ⟨0, p.2⟩), p.1.2)
  | .fetch | .load => (L.gateRead m r t, m)

/-- The same answer to both cores, or the answer to one (R365). -/
def Lane.answerPair (L : Lane) (a : Answer) : Lane := { L with cp := { L.cp with answer := ⟨a, a⟩ } }
def Lane.answerCore (L : Lane) (core : Nat) (a : Answer) : Lane := { L with cp := { L.cp with answer := L.cp.answer.set core a } }

/-- Cores that take the dispatch interrupt see the machine external interrupt's cause (R404). -/
def Lane.dispCause (L : Lane) (cores : List Nat) : Lane :=
  { L with cp := { L.cp with mcause := cores.foldl (fun m c => m.set c (some 0x8000000B)) L.cp.mcause } }

/-- Whether a dispatch interrupt of target `k` waits for its trap (R368). -/
def Lane.trapWaits (L : Lane) (k : Nat) : Bool := (L.target k).irq && !(L.target k).taken

/-! ### Checkpoints (R372, R374, R384) -/

/-- The cause of a checkpoint at the boundary after a transaction (Table 8.2), in the order of the table; `trap`: the dispatch trap is taken
there. -/
def Lane.checkpointCause (L : Lane) (t : CoreTxn) (trap : Bool) : Option Nat :=
  if trap then some 0
  else if 1024 ≤ L.cp.journal.length then some 1
  else if performed t && L.irrevocable t then some 2
  else if 16 ≤ max L.cp.inlog.zero.length L.cp.inlog.one.length then some 3
  else if L.cp.splitReq.isSome || !L.cp.haltReq.isEmpty || L.cp.pmReq then some 4
  else none

/-- A checkpoint (R372): a difference of the snapshots is a mismatch and abandons it (R374); else a split or a halt that waits takes place. -/
def Lane.takeCheckpoint (L : Lane) (cause : Nat) (t0 t1 : CoreTxn) : Lane :=
  if crc32c (coreBytes t0.regs) ≠ crc32c (coreBytes t1.regs) then L.mismatch 5 t0.addr.toNat
  else
    let L1 := L.checkpoint cause t0.regs t1.regs
    ({ L1 with cp := { L1.cp with pmReq := false } }).splitAtCheckpoint

/-- The boundary that follows a transaction of the pair: the checkpoint, and the traps that waited before the transaction and follow one that
was performed (R368, R372, R560). -/
def Lane.pairBoundary (L : Lane) (t0 t1 : CoreTxn) (disp trap : Bool) : Lane :=
  let L1 := match L.checkpointCause t0 disp with
    | none => L
    | some c => L.takeCheckpoint c t0 t1
  if L1.get Reg.CP_STAT_STATE = 1 then L1
  else
    let L2 := if disp then (L1.setTarget 0 { L1.target 0 with taken := true }).dispCause [0, 1] else L1
    if trap then L2.takeTrap else L2

/-- A transaction that both cores present (R364 to R374). -/
def Lane.pairTxn (L : Lane) (m : Mem) (t0 t1 : CoreTxn) : Lane × Mem :=
  let L1 := (L.atBoundary 0 t0).atBoundary 1 t1
  match txnDiffers t0 t1 with
  | some w => ((L1.mismatch w t0.addr.toNat).showPair, m)
  | none =>
    if t0.kind = .wfi then (L1.bothWfi.showPair, m)
    else if !performed t0 then ((L1.pairBoundary t0 t1 false false).showPair, m)
    else
      let L2 := if L1.journals t0 then L1.noteStore m t0 else L1
      let p := L2.gateAccess m 0 t0
      (((p.1.1.answerPair p.1.2).pairBoundary t0 t1 (L.trapWaits 0) L.cp.trap).showPair, p.2)

/-! ### Split running (R385, R387, R393) -/

/-- Whether a core of a split pair runs: not isolated, not under the logic self-test, not paused, and halted only in a single step. A halted
core completes the accesses of the instruction it is in. -/
def Lane.coreRuns (L : Lane) (core : Nat) (t : CoreTxn) : Bool :=
  !L.bitOf Reg.CP_STAT_ISOLATED core && L.st.lbist ≠ some core && !L.throttled (L.targetOf core) &&
  (!L.bit (haltFld core) || t.kind ≠ .fetch || L.cp.stepping.get core)

/-- The rejoin completed at a gate boundary of the lead, once the follower's work is drained (R387) and while no core is halted by debug (R392;
log entry 216). -/
def Lane.rejoinAt (L : Lane) (core : Nat) (t : CoreTxn) : Lane :=
  if L.get Reg.CP_STAT_STATE = 4 && core = L.get Reg.CP_STAT_LEAD && L.drained &&
    !L.bit Reg.CP_STAT_HALT0 && !L.bit Reg.CP_STAT_HALT1 then L.finishRejoin t.regs else L

/-- A transaction of one core of a split pair: nothing is compared or recorded. The traps that waited before it follow where it was
performed: each core that of its own target, the lead FM's. -/
def Lane.coreTxn (L : Lane) (m : Mem) (core : Nat) (t : CoreTxn) : Lane × Mem :=
  if !L.coreRuns core t then (L, m)
  else
    let L0 := L.atBoundary core t
    if !performed t then (L0.rejoinAt core t, m)
    else
      let k := L.targetOf core
      let p := L0.gateAccess m core t
      let L1 := p.1.1.answerCore core p.1.2
      let L2 : Lane := if t.kind = .fetch then { L1 with cp := { L1.cp with stepping := L1.cp.stepping.set core false } } else L1
      let L3 := if L.trapWaits k then (L2.setTarget k { L2.target k with taken := true }).dispCause [core] else L2
      ((if core = L3.get Reg.CP_STAT_LEAD && L.cp.trap then L3.takeTrap else L3).rejoinAt core t, p.2)

/-- The two cores of a split pair, core 0 first; two WFIs may put the lane into IDLE (R628). -/
def Lane.splitTxns (L : Lane) (m : Mem) (t0 t1 : CoreTxn) : Lane × Mem :=
  if t0.kind = .wfi && t1.kind = .wfi then (L.bothWfi, m)
  else
    let p := L.coreTxn m 0 t0
    if p.1.lockstep then p else p.1.coreTxn p.2 1 t1

/-- COMMIT_GATE_TRANSACTION. -/
def execCommitGateTransaction (x : LaneId) (t0 t1 : CoreTxn) (s : State) : Out :=
  let L := s.lane x
  if L.up && L.coresRun && !(L.lockstep && L.throttled 0) then
    let p := if L.lockstep then L.noteHeld.pairTxn (s.memOf x) t0 t1 else L.noteHeld.splitTxns (s.memOf x) t0 t1
    .next ((s.setLane x p.1).setMem x p.2)
  else .next s

/-! ### Grants (R424) -/

/-- The IX target of an address (Table 9.5): 0 SRAM, 1 MRAM, 2 retention SRAM, 3 the peripheral window. -/
def targetOfAddr (a : Nat) : Option Nat :=
  match placeOf a with
  | .sram => some 0
  | .mram | .records => some 1
  | .retention => some 2
  | .registers => some 3
  | .rom | .nothing => none

/-- The beats one grant covers, and its cost in the units of Table 9.5. -/
def grantBeats (t : Nat) (q : IxReq) : Nat := min q.beats (if t = 1 && q.write then 4 else 8)
def grantCost (t : Nat) (q : IxReq) : Nat :=
  if t = 3 then 1 else if t = 1 && q.write then 4 * grantBeats t q else grantBeats t q

/-- Of two requests, the one with the larger tally, else the lower-numbered. -/
def Lane.moreTally (L : Lane) (t : Nat) (a b : IxReq) : IxReq :=
  let ta := L.get (Reg.IX_TALLY_TALLY t a.r)
  let tb := L.get (Reg.IX_TALLY_TALLY t b.r)
  if tb < ta || (ta = tb && a.r.val ≤ b.r.val) then a else b

/-- The distance of a requester after the last one granted without tally, in round-robin order. -/
def Lane.turn (L : Lane) (t : Nat) (q : IxReq) : Nat := (q.r.val + 10 - spGet 10 t L.ix.last) % 11

/-- The request granted among those pending at a target. -/
def Lane.granted (L : Lane) (t : Nat) : List IxReq → Option IxReq
  | [] => none
  | q :: qs =>
    let withTally := (q :: qs).filter fun c => L.get (Reg.IX_TALLY_TALLY t c.r) ≠ 0
    match withTally with
    | c :: cs => some (cs.foldl (L.moreTally t) c)
    | [] => some (qs.foldl (fun a b => if L.turn t b < L.turn t a then b else a) q)

/-- Words written from an address upward. -/
def Lane.grantWrites (L : Lane) (m : Mem) (r a : Nat) : List Word → Lane × Mem
  | [] => (L, m)
  | v :: t =>
    let p := (busWrite r a 15 v.toNat L m).1
    p.1.grantWrites p.2 r ((a + 4) % 2 ^ 32) t

/-- The transfer of a grant. The core pair's accesses are those of the gate; another requester's write is performed here, and its read of a
register acts on it. -/
def Lane.transfer (L : Lane) (m : Mem) (t : Nat) (q : IxReq) : Lane × Mem :=
  if q.r.val < 2 then (L, m)
  else if q.write then L.grantWrites m q.r q.addr.toNat (q.data.take (if t = 3 then 1 else 2 * grantBeats t q))
  else if t = 3 then
    let L1 := (busRead q.r q.addr.toNat L m).1.2
    (if inLeStore q.addr.toNat then (L1.readStores 1).1 else L1, m)
  else (L, m)

/-- The grant of one target: the tally falls by the cost and stops at 0; a grant without tally moves the round-robin on. -/
def Lane.grantAt (L : Lane) (m : Mem) (t : Nat) (reqs : List IxReq) : Lane × Mem :=
  match L.granted t (reqs.filter fun q => targetOfAddr q.addr.toNat = some t) with
  | none => (L, m)
  | some q =>
    let f := Reg.IX_TALLY_TALLY t q.r
    let key := 16 * t + q.r.val
    let had := L.get f
    let L1 := L.set f (had - grantCost t q)
    let ix := { L1.ix with served := spSet 0 key (spGet 0 key L1.ix.served + grantCost t q) L1.ix.served }
    let L2 : Lane := { L1 with ix := if had = 0 then { ix with last := spSet 10 t q.r.val ix.last } else ix }
    L2.transfer m t q

/-- Whether a request is presented: a core whose target is paused by throttling presents none (R411, R644). -/
def Lane.presented (L : Lane) (q : IxReq) : Bool :=
  !(q.r.val < 2 && L.throttled (if L.lockstep then 0 else L.targetOf q.r.val))

/-- IX_GRANT: each target grants one of the requests pending there; an address outside Table 0.4 is answered with an error (R10). A core's
access to one raises the source where the gate performs it. -/
def Lane.grantAll (L : Lane) (m : Mem) (reqs : List IxReq) : Lane × Mem :=
  let qs := reqs.filter L.presented
  let L1 := L.forEach (qs.filter fun q => 2 ≤ q.r.val && decide (placeOf q.addr.toNat = .nothing)) fun _ L => L.decodeFault
  [0, 1, 2, 3].foldl (fun p t => p.1.grantAt p.2 t qs) (L1, m)

def execIxGrant (x : LaneId) (reqs : List IxReq) (s : State) : Out :=
  if (s.lane x).up then
    let p := (s.lane x).noteHeld.grantAll (s.memOf x) reqs
    .next ((s.setLane x p.1).setMem x p.2)
  else .next s

end Sys2Proof.Machine
end

