-- ==== Sys2Proof/Machine/Hl.lean ====
section
/-! DEFINITION. The host link at its routes (14_host_orders.md R582 to R595, R618 to R620): order frames, responses, reports, the command
link and CAN FD. -/

namespace Sys2Proof.Machine

/-! ### Sync of the command link (R584) -/

def Lane.setLink (L : Lane) (r : Nat) (isUp : Bool) : Lane :=
  let L1 : Lane := { L with hl := { L.hl with linkUp := BitVec.ofNat 3 (putBit L.hl.linkUp.toNat r isUp) } }
  if r = 0 then L1.setBool Reg.HL_STAT_LINK isUp else L1

/-- The receiver loses its sync (R584): out of sync, down, raised; TS event 135 where the link was up (Table 9.16). A receiver without sync has
none to lose. -/
def Lane.syncLoss (L : Lane) : Lane :=
  if !L.bit Reg.HL_STAT_SYNC then L
  else
    let L0 : Lane := { L with hl := { L.hl with lostAt := some L.now } }
    let L1 := ((L0.set Reg.HL_STAT_SYNC 0).setLink 0 false).raise 160
    if L.routeUp 0 then L1.event 135 else L1

/-! ### Frames received (R583, R585 to R588) -/

/-- The bytes of symbols that are all data. -/
def dataBytes : List Sym → Option (List Byte)
  | [] => some []
  | .data b :: t => (dataBytes t).map (b :: ·)
  | _ => none

/-- The words of whole groups of four bytes, most significant byte first. -/
def groupWords : List Byte → Option (List Nat)
  | [] => some []
  | a :: b :: c :: d :: t => (groupWords t).map (ofBe [a, b, c, d] :: ·)
  | _ => none

/-- The words between the start and the end symbol of a command-link frame (R583). -/
def linkWordsOf (syms : List Sym) : Option (List Nat) :=
  match syms with
  | .k27_7 :: t => if t.getLast? = some .k29_7 then (dataBytes t.dropLast).bind groupWords else none
  | _ => none

/-- The words of a CAN FD frame of 64 bytes without its padding (R586), whose bytes are 0. -/
def canWordsOf (syms : List Sym) : Option (List Nat) :=
  match (dataBytes syms).bind groupWords with
  | some (w :: t) =>
    let n := w % 64 + 1
    if syms.length = 64 && n ≤ 15 && (t.drop n).all (· = 0) then some (w :: t.take n) else none
  | _ => none

/-- The words of a frame as its route carries it. -/
def frameWordsOf (via : FrameVia) (syms : List Sym) : Option (List Nat) :=
  match via.route.val with
  | 0 => linkWordsOf syms
  | 1 => (dataBytes syms).bind groupWords
  | _ => canWordsOf syms

/-- The fields of an order's header word (Table 14.3), its OP first. -/
def headerOf (via : FrameVia) (w : Nat) : Nat × OrderHdr :=
  (bitsOf w 30 24, ⟨via.route, via.node, ⟨w / 2 ^ 18 % 4, by omega⟩, ⟨w / 2 ^ 20 % 16, by omega⟩, bitAt w 17, bitAt w 31 || bitsOf w 16 6 ≠ 0,
    ⟨w % 64, by omega⟩⟩)

/-- A frame read (R589, R591): its operation code, header and arguments; none where its framing, its length or its CRC-32C fails. A frame with
NARG 63 may have any length. -/
def readFrame (via : FrameVia) (syms : List Sym) : Option (Nat × OrderHdr × List Word) :=
  match frameWordsOf via syms with
  | some (w :: t) =>
    let args := t.dropLast
    let h := headerOf via w
    if !t.isEmpty && (w % 64 = 63 || args.length = w % 64) && t.getLast? = some (crc32c (wordBytes (w :: args))) then
      some (h.1, h.2, args.map (BitVec.ofNat 32))
    else none
  | _ => none

/-- Whether four of 16 symbols in succession are invalid (R584). -/
def losesSync (syms : List Sym) : Bool :=
  (List.range syms.length).any fun i => 4 ≤ countIf (fun s => decide (s = .invalid)) ((syms.drop i).take 16)

/-- The frame of a host berth that waits, of a node. -/
def Lane.waitsFrom (L : Lane) (node : Nat) : Option (List Nat) := (L.hl.inbox.find? fun e => e.1 = node).map (·.2)

/-- Whether a frame reaches HL at all: its route enabled; the command link up; the words those of the frame that landed in that node's berth with
AGE 0 (R585); the identifier RXID (R586). -/
def Lane.frameReaches (L : Lane) (via : FrameVia) (syms : List Sym) : Bool :=
  L.bitOf Reg.HL_CTRL_ROUTE_EN via.route &&
  (match via.route.val with
   | 0 => L.routeUp 0
   | 1 => (L.waitsFrom via.node).isSome && L.waitsFrom via.node = (dataBytes syms).bind groupWords
   | _ => via.canId.toNat = L.get Reg.HL_CAN_CFG_RXID)

/-- The frame taken from its route: out of the element's frames; with TS event 160 on CAN FD; and a command link on which four of 16 symbols are
invalid loses its sync (R584). -/
def Lane.takeFrame (L : Lane) (via : FrameVia) (syms : List Sym) : Lane :=
  match via.route.val with
  | 0 => if losesSync syms then L.syncLoss else L
  | 1 => { L with hl := { L.hl with inbox := L.hl.inbox.eraseP fun e => e.1 = via.node.val } }
  | _ => L.event 160

/-! ### Order frames -/

/-- Whether a partition is bound to the route of a frame (R582). -/
def Lane.boundTo (L : Lane) (h : OrderHdr) : Bool :=
  L.bitOf (Reg.HL_PART_CFG_ROUTES h.part) h.route &&
  !(h.route.val = 1 && h.node.val ≠ L.get (Reg.HL_PART_CFG_NODE h.part))

/-- Why a frame is refused (Table 14.7, FRAME_REFUSED); 0 where it is accepted (R589). -/
def Lane.refuseReason (L : Lane) (h : OrderHdr) : Nat :=
  if !L.bit (Reg.HL_PART_CFG_EN h.part) then 3
  else if !L.boundTo h then 2
  else if h.narg.val = 63 then 4
  else if L.hl.tags.any fun t => t.part = h.part && t.tag = h.tag then 1
  else 0

/-- A frame refused under R591: reported, counted, raised. -/
def Lane.refuseFrame (L : Lane) (h : OrderHdr) (reason : Nat) : Lane :=
  let L1 := L.reportOn h.route 0x07 [h.part.val * 2 ^ 16 + h.tag.val * 2 ^ 12 + reason] true
  ((L1.count Reg.HL_CNT_CREDIT_COUNT).raise 161).event 137

/-- The tag made outstanding by an acceptance (R589); event 128. -/
def Lane.acceptTag (L : Lane) (h : OrderHdr) (op : Nat) : Lane :=
  let L1 : Lane := { L with hl := { L.hl with tags := L.hl.tags ++ [⟨h.part, h.tag, op, h.route⟩] } }
  (L1.showPart h.part).event 128

/-- The order that an accepted frame holds. -/
def Lane.orderOf (L : Lane) (op : Nat) (h : OrderHdr) (args : List Word) : Order :=
  ⟨op, h.scope, h.resv, h.narg, h.part, h.tag, L.get (Reg.HL_PART_CFG_AUTH h.part), h.route, args.map (·.toNat), .host h.route h.part h.tag⟩

/-- A frame that fails its CRC or its framing (R591). -/
def Lane.badFrame (L : Lane) : Lane := (L.count Reg.HL_CNT_FRAME_COUNT).raise 160

/-- Whether a frame of the command link ends in the tick in which its sync is lost: it is discarded like a bad one (Table 14.11). -/
def Lane.cutFrame (L : Lane) (via : FrameVia) : Bool :=
  via.route.val = 0 && L.bitOf Reg.HL_CTRL_ROUTE_EN 0 && L.hl.lostAt = some L.now

/-- An order frame (R589 to R591): what it orders stands in its header, whichever row names it. -/
def Lane.orderFrame (L : Lane) (m : Mem) (via : FrameVia) (syms : List Sym) : Lane × Mem :=
  if !L.frameReaches via syms then (if L.cutFrame via then L.badFrame else L, m)
  else
    let L1 := L.takeFrame via syms
    match readFrame via syms with
    | none => (L1.badFrame, m)
    | some (op, h, args) =>
      if L1.refuseReason h ≠ 0 then (L1.refuseFrame h (L1.refuseReason h), m)
      else (L1.acceptTag h op).serveOrder m (L1.orderOf op h args)

/-- PING (Table 14.5). -/
def execOrdPing (x : LaneId) (via : FrameVia) (syms : List Sym) (s : State) : Out := onAwakeMem x (fun L m => L.orderFrame m via syms) s
/-- READ (R597). -/
def execOrdRead (x : LaneId) (via : FrameVia) (syms : List Sym) (s : State) : Out := onAwakeMem x (fun L m => L.orderFrame m via syms) s
/-- WRITE (R597, R598). -/
def execOrdWrite (x : LaneId) (via : FrameVia) (syms : List Sym) (s : State) : Out := onAwakeMem x (fun L m => L.orderFrame m via syms) s
/-- MODE (R607). -/
def execOrdMode (x : LaneId) (via : FrameVia) (syms : List Sym) (s : State) : Out := onAwakeMem x (fun L m => L.orderFrame m via syms) s
/-- TOFF (R599, R528). -/
def execOrdToff (x : LaneId) (via : FrameVia) (syms : List Sym) (s : State) : Out := onAwakeMem x (fun L m => L.orderFrame m via syms) s
/-- STOP (R599, R521). -/
def execOrdStop (x : LaneId) (via : FrameVia) (syms : List Sym) (s : State) : Out := onAwakeMem x (fun L m => L.orderFrame m via syms) s
/-- RELEASE (R599, R530). -/
def execOrdRelease (x : LaneId) (via : FrameVia) (syms : List Sym) (s : State) : Out := onAwakeMem x (fun L m => L.orderFrame m via syms) s
/-- ONEWAY (R599). -/
def execOrdOneway (x : LaneId) (via : FrameVia) (syms : List Sym) (s : State) : Out := onAwakeMem x (fun L m => L.orderFrame m via syms) s
/-- ABORT (R580, R613 to R616). -/
def execOrdAbort (x : LaneId) (via : FrameVia) (syms : List Sym) (s : State) : Out := onAwakeMem x (fun L m => L.orderFrame m via syms) s
/-- RAMP (R611). -/
def execOrdRamp (x : LaneId) (via : FrameVia) (syms : List Sym) (s : State) : Out := onAwakeMem x (fun L m => L.orderFrame m via syms) s
/-- MOTION_SELECT (R610). -/
def execOrdMotionSelect (x : LaneId) (via : FrameVia) (syms : List Sym) (s : State) : Out :=
  onAwakeMem x (fun L m => L.orderFrame m via syms) s
/-- SUBSCRIBE (R618). -/
def execOrdSubscribe (x : LaneId) (via : FrameVia) (syms : List Sym) (s : State) : Out :=
  onAwakeMem x (fun L m => L.orderFrame m via syms) s
/-- FAULT_CLEAR (R599, R564). -/
def execOrdFaultClear (x : LaneId) (via : FrameVia) (syms : List Sym) (s : State) : Out :=
  onAwakeMem x (fun L m => L.orderFrame m via syms) s
/-- POWER (R629). -/
def execOrdPower (x : LaneId) (via : FrameVia) (syms : List Sym) (s : State) : Out := onAwakeMem x (fun L m => L.orderFrame m via syms) s
/-- SCRIPT_LOAD (R621). -/
def execOrdScriptLoad (x : LaneId) (via : FrameVia) (syms : List Sym) (s : State) : Out :=
  onAwakeMem x (fun L m => L.orderFrame m via syms) s
/-- SCRIPT_RUN (R622). -/
def execOrdScriptRun (x : LaneId) (via : FrameVia) (syms : List Sym) (s : State) : Out :=
  onAwakeMem x (fun L m => L.orderFrame m via syms) s
/-- RECORD (R664). -/
def execOrdRecord (x : LaneId) (via : FrameVia) (syms : List Sym) (s : State) : Out := onAwakeMem x (fun L m => L.orderFrame m via syms) s
/-- BIST (R656). -/
def execOrdBist (x : LaneId) (via : FrameVia) (syms : List Sym) (s : State) : Out := onAwakeMem x (fun L m => L.orderFrame m via syms) s

/-! ### Frames sent (R583, R585, R586) -/

/-- The words of a frame: header, arguments, CRC-32C. -/
def frameWords (hdr : Nat) (args : List Nat) : List Nat := (hdr :: args) ++ [crc32c (wordBytes (hdr :: args))]

/-- The lane's own SRC 8 element (R585). -/
def Lane.hostElem (L : Lane) : Option Nat :=
  if L.manValid .vehicle then (L.elemsOf .vehicle (L.ownIndex .vehicle)).find? fun e => (L.desc .vehicle e).src = 8 else none

/-- The frame words that already stand in it for the coming sailing. -/
def Lane.hostWords (L : Lane) (e : Nat) : List Nat :=
  let el := L.elem .vehicle e
  if el.fresh then (el.words.drop 1).take (nth el.words 0 % 2 ^ 8) else []

/-- Whether a frame of `n` words can leave by a route now: the command link is up; whole within the coming sailing's element; within one
CAN FD frame of 16 words, unless the controller is off the bus. -/
def Lane.canSend (L : Lane) (r n : Nat) : Bool :=
  L.routeUp r &&
  (match r with
   | 0 => true
   | 1 => match L.hostElem with
     | none => false
     | some e => decide ((L.hostWords e).length + n + 1 ≤ (L.desc .vehicle e).words)
   | _ => decide (n ≤ 16) && L.hl.canState ≠ .busOff)

/-- A frame as its route carries it: between K27.7 and K29.7, followed by K28.5 (R583); in an element as its words (R585); on CAN FD with TXID,
padded with 0 to 64 bytes (R586). -/
def Lane.frameOut (L : Lane) (r : Nat) (ws : List Nat) : HostFrame :=
  let bs := (wordBytes ws).map Sym.data
  match r with
  | 0 => ⟨0, 0, .k27_7 :: bs ++ [.k29_7, .k28_5]⟩
  | 1 => ⟨1, 0, bs⟩
  | _ => ⟨r, L.get Reg.HL_CAN_CFG_TXID, bs ++ List.replicate (64 - bs.length) (.data 0)⟩

/-- A frame sent on a route. -/
def Lane.sendFrame (L : Lane) (r : Nat) (ws : List Nat) : Lane :=
  let L1 : Lane := { L with hl := { L.hl with sent := L.hl.sent ++ [L.frameOut r ws] } }
  match r with
  | 0 => L1
  | 1 => match L1.hostElem with
    | none => L1
    | some e =>
      let l := L1.hostWords e ++ ws
      L1.refresh .vehicle e (l.length :: l) false
  | _ => L1.event 161

/-! ### Responses (R590, R592) -/

/-- The response of partition `p` that leaves a route next: its place in the queue and itself; of those with code LANE_RESET alone where
`reset` is set. -/
def Lane.responseIn (L : Lane) (r p : Nat) (reset : Bool) : Option (Nat × Response) :=
  let q := spGet [] p L.hl.resp
  ((List.range q.length).zip q).find? fun e =>
    e.2.route = r && L.canSend r (e.2.args.length + 2) && (!reset || bitsOf e.2.hdr 15 8 = 0x14)

/-- The response that leaves a route next: one with code LANE_RESET before any other (R594), and the first of the lowest partition that has
one. -/
def Lane.responseReady (L : Lane) (r : Nat) : Option (Nat × Nat × Response) :=
  [true, false].findSome? fun reset => (List.range 4).findSome? fun p => (L.responseIn r p reset).map fun e => (p, e)

/-- A response sent: its tag is no longer outstanding (R590). -/
def Lane.sendResponse (L : Lane) (r : Nat) : Lane :=
  match L.responseReady r with
  | none => L
  | some (p, i, e) =>
    let tag := bitsOf e.hdr 23 20
    let L1 : Lane := { L with hl := { L.hl with
      resp := spSet [] p ((spGet [] p L.hl.resp).eraseIdx i) L.hl.resp
      tags := L.hl.tags.filter fun t => !(t.part = p && t.tag = tag) } }
    (L1.sendFrame r (frameWords e.hdr e.args)).showPart p

/-- RESPONSE_SEND (R590, R592). -/
def execResponseSend (x : LaneId) (route : Fin 3) (s : State) : Out := onAwake x (fun L => L.sendResponse route) s

/-! ### Reports (R618, R620) -/

/-- The oldest report of a route sent; a response that is ready goes before it. -/
def Lane.sendReport (L : Lane) (r : Nat) : Lane :=
  if (L.responseReady r).isSome then L
  else match spGet [] r L.hl.reports with
    | [] => L
    | q :: t =>
      if L.canSend r (q.args.length + 2) then
        let L1 : Lane := { L with hl := { L.hl with reports := spSet [] r t L.hl.reports } }
        L1.sendFrame r (frameWords q.hdr q.args)
      else L

/-- REPORT_SEND (R618, R620). -/
def execReportSend (x : LaneId) (route : Fin 3) (s : State) : Out := onAwake x (fun L => L.sendReport route) s

/-! ### The command link (R584, R593, R595) -/

/-- COMMAND_LINK_SYNC_LOSS (R584). -/
def execCommandLinkSyncLoss (x : LaneId) (s : State) : Out := onAwake x Lane.syncLoss s

/-- COMMAND_LINK_IN_SYNC (R584). -/
def execCommandLinkInSync (x : LaneId) (s : State) : Out := onAwake x (·.set Reg.HL_STAT_SYNC 1) s

/-- The words of LINK_UP (Table 14.7): one per partition bound to the link. -/
def Lane.linkWords (L : Lane) (r : Nat) : List Nat :=
  ((List.range 4).filter fun p => L.bitOf (Reg.HL_PART_CFG_ROUTES p) r).map fun p =>
    b2n (bitAt L.hl.fresh.toNat r) * 2 ^ 31 + p * 2 ^ 16 + (L.showPart p).get (Reg.HL_PART_STAT_OUT p)

/-- A link comes up (R593): LINK_UP is the first frame on it; FRESH once after a power-on reset (R595); TS event 135 for the command link
(Table 9.16). -/
def Lane.comeUp (L : Lane) (r : Nat) : Lane :=
  let n := spGet 0 r L.hl.rseq
  let ws := L.linkWords r
  let L1 : Lane := { L.setLink r true with hl := { (L.setLink r true).hl with
    rseq := spSet 0 r ((n + 1) % 2 ^ 16) L.hl.rseq
    fresh := BitVec.ofNat 3 (clrBit L.hl.fresh.toNat r) } }
  let L2 := L1.sendFrame r (frameWords (reportHdr (laneNum L.me) 0x06 ws.length n) ws)
  if r = 0 then L2.event 135 else L2

/-- COMMAND_LINK_UP (R593, R595). The command link comes up only in sync, and only where it was down (R584). -/
def execCommandLinkUp (x : LaneId) (route : Fin 3) (s : State) : Out :=
  onAwake x (fun L => if route.val = 0 && (!L.bit Reg.HL_STAT_SYNC || L.routeUp 0) then L else L.comeUp route) s

/-! ### CAN FD -/

/-- CN's fault confinement changes: event 162, and its sources on entry (Table 13.1). -/
def Lane.canChange (L : Lane) (st : CanState) : Lane :=
  if L.hl.canState = st then L
  else
    let L1 : Lane := { L with hl := { L.hl with canState := st } }
    let L2 := match st with
      | .active => L1
      | .passive => L1.raise 164
      | .busOff => L1.raise 165
    L2.event 162

/-- CAN_FD_ERROR_STATE_CHANGE. -/
def execCanFdErrorStateChange (x : LaneId) (st : CanState) (s : State) : Out := onAwake x (fun L => L.canChange st) s

end Sys2Proof.Machine
end

