-- ==== Sys2Proof/Machine/Ring.lean ====
section
/-! DEFINITION. The frames of the lane ferry on their two paths (10_ferry.md R440 to R449, R458, R469 to R476), the links and the alive
lines between the lanes, and the launches of both ferries. -/

namespace Sys2Proof.Machine

/-! ### Paths (Table 10.1) -/

def prevLane (x : LaneId) : LaneId := nextLane (nextLane x)

/-- The lanes before and after `x` along a path. -/
def upstream (x : LaneId) (path : Nat) : LaneId := if path = 0 then prevLane x else nextLane x
def downstream (x : LaneId) (path : Nat) : LaneId := if path = 0 then nextLane x else prevLane x

/-- The links from the originator `h` to lane `x` along a path. -/
def links (h x : LaneId) (path : Nat) : Nat :=
  let d := (laneNum x + 3 - laneNum h) % 3
  if path = 0 then d else (3 - d) % 3

/-- Whether a frame passes a lane: forward, or back where a later lane on its path turned it (R443). A link carries what was sent over it
while it has stayed up since the departure; where it goes down meanwhile the frame is cut, and is not turned back there (Table 10.12). A tail
goes to the first lane of its path (Table 10.1). -/
def passes (net : Net) (f : RingFrame) (x : LaneId) (back : Bool) : Bool :=
  let n1 := downstream f.orig f.path
  let n2 := downstream n1 f.path
  let ok (a b : LaneId) : Bool := linkIn f.rx a b && linkIn net.rx a b
  ok f.orig n1 &&
  (if f.kind = 2 then x = n1 && !back
   else if x = n1 then !back || (ok n1 n2 && !linkIn f.rx n2 f.orig)
   else if x = n2 then ok n1 n2 && !back
   else if back then !linkIn f.rx n1 n2 || (ok n1 n2 && !linkIn f.rx n2 f.orig)
   else ok n1 n2 && ok n2 f.orig)

/-- A frame on the ring by its identity and path, as it passes a lane. -/
def Net.frameAt (net : Net) (x : LaneId) (path : Nat) (id : FrameId) : Option RingFrame :=
  (net.frames.find? fun f => f.orig = id.orig && f.path = path && f.kind = (if id.tail then 2 else 1)).filter fun f => passes net f x id.back

/-- The relief delay of lane `y` in ticks (R446): 300 ns or 600 ns by its rank among the lanes other than the harbour master. -/
def Lane.reliefDelay (L : Lane) (y : LaneId) : Nat :=
  match L.harbourMaster with
  | none => 0
  | some h => if y = h then 0 else if (others h).head? = some y then 30 else 60

/-- How late after its departure a sailing left its originator, in ticks (R447). -/
def Lane.lateOf (L : Lane) (f : RingFrame) : Nat := if ringRelief f then L.reliefDelay f.orig else 0

/-- The 64-bit sailing number of a frame, which carries its low 32 bits (R434): the number nearest to that of the lane's own ferry time; a lane
that has not adopted ferry time takes the upper half that its count of sailings holds, 0 after a reset (log entry 114). -/
def Lane.sailingOf (L : Lane) (f : RingFrame) : Nat :=
  if L.xf.adopted then nearSailing ((L.ferry + 1250) / 2500) (ringSailing f) else L.xf.next / 2 ^ 32 * 2 ^ 32 + ringSailing f

/-! ### Heads (R435, R458, R469 to R471) -/

def errFld (path : Nat) : Fld := if path = 0 then Reg.XF_ARR_ERR0 else Reg.XF_ARR_ERR1
def wrapFld (path : Nat) : Fld := if path = 0 then Reg.XF_STAT_WRAP0 else Reg.XF_STAT_WRAP1

/-- The ferry time at which the head of a main frame or of a tail is expected (R440, R470). -/
def Lane.headTime (L : Lane) (f : RingFrame) : Nat :=
  L.sailingOf f * 2500 + 8 * links f.orig L.me f.path + L.lateOf f + (if f.kind = 2 then 100 + 2 * (16 + 3 * L.berthLen .lane 0) else 0)

/-- Ferry time adopted from a head (R434, R435): the lane reads until the next departure. Comparators on FERRY wait for their TIME anew (R505). -/
def Lane.adoptTime (L : Lane) (f : RingFrame) : Lane :=
  let off : Int := (L.headTime f : Nat) - L.now
  Lane.rearm { L with xf := { L.xf with
      off := off, offPast := ((L.now, L.xf.off) :: L.xf.offPast).take 8, adopted := true, next := L.sailingOf f + 1, latched := false
      cur := some (L.sailingOf f), judged := false, readOnly := true
      berth := [], tick := none, got := ⟨none, none, none⟩, head := [], accepted := [], matched := [] } } 1

/-- The lane learns who is harbour master from a frame that is no relief. Of two lanes that originate one sailing the lower-numbered stays
(R449). -/
def Lane.seeMaster (L : Lane) (y : LaneId) : Lane :=
  match L.harbourMaster with
  | some h => if (L.xf.head.any fun k => k.2 = h) && decide (laneNum h < laneNum y) then L else L.setMaster y
  | none => L.setMaster y

/-- Any valid frame: a launch in progress is abandoned (R476); the lane learns of the originator, and of a relief (event 195). -/
def Lane.seeFrame (L : Lane) (f : RingFrame) : Lane :=
  let L1 : Lane := { L.set Reg.XF_STAT_LAUNCHING 0 with xf := { L.xf with frameAt := L.now } }
  if !ringRelief f then if L1.xf.relief then L1 else L1.seeMaster f.orig
  else if L1.xf.relief then L1
  else
    let L2 : Lane := { L1 with xf := { L1.xf with relief := true, delay := L1.lateOf f } }
    (L2.set Reg.XF_STAT_RELIEF 1).event 195

/-- A frame with another manifest (R458): counted, raised, and read only without a landing. -/
def Lane.headMismatch (L : Lane) : Lane :=
  let L1 : Lane := { L with xf := { L.xf with mismatch := true } }
  (((L1.count Reg.XF_CNT_MANIF_COUNT).raise 99).event 194).set Reg.XF_STAT_READONLY 1

/-- The discipline of ferry time (R435): at each head the offset moves toward the arrival by the whole ticks that bring its error within 5 ns,
at most three, which is more than ±1,000 ppm over a sailing asks for (log entry 214). -/
def Lane.discipline (L : Lane) (err : Int) : Lane :=
  let n : Int := (min 3 ((err.natAbs + 7) / 16) : Nat)
  if n = 0 then L else L.setOff (L.xf.off + (if 0 < err then -n else n))

/-- A pass that the lane does not accept: read only, a late ferry (R471). -/
def Lane.lateFerry (L : Lane) : Lane := (((L.set Reg.XF_STAT_READONLY 1).count Reg.XF_CNT_LATE_COUNT).raise 100).event 194

/-- A head judged by the ferryman (R469, R471): accepted within the window, else a late ferry and a passage that only reads. A lane that
joined in this sailing, or whose identity does not match, reads only (R91). A head of the former harbour master while a relief sailing is under
way is late (Table 10.12). -/
def Lane.judgeHead (L : Lane) (f : RingFrame) (err : Int) : Lane :=
  let L1 := (L.setI (errFld f.path) (satW 16 err)).setBool Reg.XF_STAT_SYNC (decide (err.natAbs ≤ 8))
  if L.xf.readOnly || !L.bit Reg.SYS_LANE_ID_MATCH then L1.set Reg.XF_STAT_READONLY 1
  else if L.xf.relief && !ringRelief f then L1.lateFerry
  else if L.xf.cur = some (L.sailingOf f) && decide (err.natAbs ≤ 16 * L.get Reg.XF_CTRL_WIN) then
    ({ L1.set Reg.XF_STAT_READONLY 0 with xf := { L1.xf with accepted := (f.path, f.orig) :: L1.xf.accepted } }).discipline err
  else L1.lateFerry

/-- The head of a main frame. One that comes back was turned: it is read and never written (R443). A lane whose next link is down turns the
path back (WRAP0, WRAP1). -/
def Lane.mainHead (L : Lane) (net : Net) (f : RingFrame) (back : Bool) (err : Int) : Lane :=
  let L0 := (L.seeLinks net).seeFrame f
  let L1 : Lane := { L0 with xf := { L0.xf with head := (f.path, f.orig) :: L0.xf.head } }
  if ringManifest f ≠ L1.get Reg.XF_MAN_CRC_CRC then L1.headMismatch
  else
    let L2 : Lane := { L1 with xf := { L1.xf with mismatch := false, matched := (f.path, f.orig) :: L1.xf.matched } }
    let L3 := if back then L2.set Reg.XF_STAT_READONLY 1 else L2.judgeHead f err
    if !back && !linkIn f.rx L.me (downstream L.me f.path) then L3.set (wrapFld f.path) 1 else L3

/-- The head of a tail: read only by its nature. -/
def Lane.tailHead (L : Lane) (net : Net) (f : RingFrame) : Lane :=
  let L1 := (L.seeLinks net).seeFrame f
  if ringManifest f ≠ L1.get Reg.XF_MAN_CRC_CRC then L1.headMismatch else L1

/-- The frame whose head reaches a lane: one that passes it, in a lane whose XF is enabled and that did not send it. -/
def Lane.frameHere (L : Lane) (net : Net) (path : Nat) (id : FrameId) : Option RingFrame :=
  if L.bit Reg.XF_CTRL_EN && id.orig ≠ L.me then net.frameAt L.me path id else none

/-- Line errors on bytes: each (index, mask) changes the bits of one byte. -/
def flipBytes (bs : List Byte) : List (Nat × Byte) → List Byte
  | [] => bs
  | (i, v) :: t => flipBytes (bs.set i (bs.getD i 0 ^^^ v)) t

/-- A frame on the ring with its bytes replaced. -/
def Net.put (net : Net) (f : RingFrame) (bs : List Byte) : Net :=
  { net with frames := net.frames.map fun g => if g = f then { g with bytes := bs } else g }

/-- FRAME_HEAD_ARRIVAL: a lane that has not adopted ferry time adopts it here. Line errors stay in the frame, and a frame whose HCHECK fails is
discarded in this lane (R452). -/
def execFrameHeadArrival (x : LaneId) (path : Fin 2) (head : FrameHead) (err : Int) (s : State) : Out :=
  let L := s.lane x
  match L.up, L.frameHere s.net path head.id with
  | true, some g =>
    let f : RingFrame := { g with bytes := flipBytes (g.bytes.take 16) head.flips ++ g.bytes.drop 16 }
    let s0 : State := if head.flips.isEmpty then s else { s with net := s.net.put g f.bytes }
    if !ringCheckOk f then .next s0
    else
      let s1 := if L.xf.adopted then s0.reach x (L.localAt ((L.headTime f : Nat) + err / 16)) else s0
      onLane x (fun L =>
        let L1 := if L.xf.adopted then L else L.adoptTime f
        if head.id.tail then L1.tailHead s0.net f else L1.mainHead s0.net f head.id.back err) s1
  | _, _ => .next s

/-! ### Berths (R441, R454, R286) -/

/-- The edges of HALL[b] in a berth's bytes, as (line, level, ferry time, mark of an offset that does not fit). -/
def Lane.hallEdges (L : Lane) (d : List Byte) : List (Nat × Nat × Int × Bool) :=
  (List.range (min 4 ((d.getD 0 0).toNat / 2 % 8))).map fun i =>
    let e := (d.getD (1 + 3 * i) 0).toNat
    let o := ofBe (slice d (2 + 3 * i) 2)
    (e / 2 % 4, e % 2, ((L.xf.cur.getD 0 * 2500 : Nat) : Int) - o, o = 65535)

/-- The HALL[b] element of another lane's berth taken as the berth passes, where it is fresh (R286). -/
def Lane.passHall (L : Lane) (y : LaneId) (bs : List Byte) (b : Nat) : Lane :=
  match L.findElem .lane 4 b with
  | none => L
  | some e =>
    let d := L.berthData bs e
    let w := (d.getD 0 0).toNat
    if L.berthAge bs e = 0 then L.takeHall b y (w / 32) (bitAt w 4) (L.hallEdges d) else L

/-- A copy of another lane's berth read from a frame of sailing `n` (R441, R454): the first one that is present counts. A berth of zeros is
silently absent; a failed check is counted and raised. -/
def Lane.readCopy (L : Lane) (y : LaneId) (n : Nat) (bs : List Byte) : Lane :=
  if berthOwner (laneNum y) bs && berthPasses n bs then
    if (L.xf.got.get y).isSome || L.xf.cur ≠ some n then L
    else
      let L1 : Lane := { L with xf := { L.xf with got := L.xf.got.set y (some bs) } }
      (L1.passHall y bs 0).passHall y bs 1
  else if bs.any (· ≠ 0) && !berthPasses n bs then (L.count Reg.XF_CNT_CHECK_COUNT).raise 98
  else L

/-- The frame whose berths the lane reads: it passes with the lane's manifest, its head having come where it is a main frame. -/
def Lane.reads (L : Lane) (net : Net) (path : Nat) (id : FrameId) : Option RingFrame :=
  if L.bit Reg.XF_CTRL_EN && (id.tail || L.xf.matched.contains (path, id.orig)) then
    (net.frameAt L.me path id).filter fun f => ringManifest f = L.get Reg.XF_MAN_CRC_CRC
  else none

/-- Whether the lane writes its own berth into a main frame (R441, R443, R469): an accepted pass, not turned back, of the sailing it latched
the berth for. -/
def Lane.writes (L : Lane) (f : RingFrame) (back : Bool) : Bool :=
  !back && L.xf.accepted.contains (f.path, f.orig) && L.xf.cur = some (L.sailingOf f) && !L.xf.berth.isEmpty

/-- Where a berth stands in a frame (R450): bytes 16 + iL of a main frame, byte 16 of a tail. -/
def Lane.berthAt (L : Lane) (f : RingFrame) (owner : LaneId) : Nat := if f.kind = 2 then 16 else 16 + laneNum owner * L.berthLen .lane 0

/-- The bytes of a berth in a frame. -/
def Lane.frameBytes (L : Lane) (f : RingFrame) (owner : LaneId) : List Byte := slice f.bytes (L.berthAt f owner) (L.berthLen .lane 0)

/-- The ring with the bytes of a berth in a frame replaced. -/
def Lane.putBerth (L : Lane) (net : Net) (f : RingFrame) (owner : LaneId) (bs : List Byte) : Net :=
  net.put f (putBytes f.bytes (L.berthAt f owner) bs)

/-- BERTH_PASSAGE (R441): the own berth is written into a pass that the lane accepts; another lane's is read. Line errors stay in the frame.
A tail carries the berth of the third lane only. -/
def execBerthPassage (x owner : LaneId) (path : Fin 2) (frame : FrameId) (flips : List (Nat × Byte)) (s : State) : Out :=
  let L := s.lane x
  match L.up && !(frame.tail && (owner = x || owner = frame.orig)), L.reads s.net path frame with
  | true, some f =>
    if owner = x then
      if L.writes f frame.back then
        let M := L.noteHeld
        .next { s.setLane x { M with xf := { M.xf with got := M.xf.got.set x (some M.xf.berth) } } with
          net := L.putBerth s.net f x L.xf.berth }
      else .next s
    else
      let bs := flipBytes (L.frameBytes f owner) flips
      .next { s.setLane x (L.noteHeld.readCopy owner (L.sailingOf f) bs) with
        net := if flips.isEmpty then s.net else L.putBerth s.net f owner bs }
  | _, _ => .next s

/-- The tails of sailing `n` (R440, R444): on each path the one whose berth the originator holds. -/
def Lane.tails (L : Lane) (net : Net) (n : Nat) : List RingFrame :=
  [(0, prevLane L.me), (1, nextLane L.me)].filterMap fun t =>
    (L.xf.got.get t.2).map fun b => L.ownFrame net 2 t.1 L.xf.relief n b

/-- TAIL_SEND (R440, R444): the originator sends each tail for which it holds the berth, 1 µs after the main frames have left. -/
def execTailSend (x : LaneId) (s : State) : Out :=
  let L := s.lane x
  match L.up && L.sails && L.xf.head.contains (0, x), L.xf.cur with
  | true, some n =>
    let s1 := s.reach x (L.localOf (n * 2500 + L.xf.delay + 100 + 2 * (16 + 3 * L.berthLen .lane 0)))
    .next { s1.setLane x (s1.lane x).noteHeld with net := s.net.send x [2] (L.tails s.net n) }
  | _, _ => .next s

/-! ### Relief (R446 to R449) -/

/-- When the lane relieves the harbour master: no head has come on either path. -/
def Lane.reliefDue (L : Lane) : Option Nat :=
  match L.xf.cur, L.harbourMaster with
  | some n, some h =>
    if L.sails && h ≠ L.me && L.mayOriginate && L.xf.head.isEmpty then some (L.localOf (n * 2500 + L.reliefDelay L.me)) else none
  | _, _ => none

/-- The lane relieves in sailing `n`: counted, raised, event 195; at the second in succession it becomes harbour master. -/
def Lane.relieve (L : Lane) (n : Nat) : Lane :=
  let L1 := L.originates (L.reliefDelay L.me)
  let L2 := (((L1.set Reg.XF_STAT_RELIEF 1).count Reg.XF_CNT_RELIEF_COUNT).raise 97).event 195
  let twice := L2.xf.relieved.any fun k => k + 1 = n
  let L3 : Lane := { L2 with xf := { L2.xf with relieved := some n } }
  if twice then L3.setMaster L.me else L3

/-- RELIEF_INSTANT (R446, R447). -/
def execReliefInstant (x : LaneId) (s : State) : Out :=
  match (s.lane x).up, (s.lane x).reliefDue, (s.lane x).xf.cur with
  | true, some t, some n =>
    let s1 := (s.reach x t).withLane x fun L m => (L.relieve n, m)
    .next { s1 with net := (s1.lane x).sendMain s.net n true }
  | _, _, _ => .next s

/-! ### Links and alive lines (R442, R60) -/

/-- Lane `x` declares the link from lane `y` down: counted, raised; it sends the link-down code on the other direction. -/
def Lane.linkLost (L : Lane) (net : Net) (y : LaneId) : Lane :=
  let L1 := (L.count Reg.XF_CNT_WRAP_COUNT).raise 96
  (L1.setPeer y { L1.peerOf y with down := true }).seeLinks net

/-- FERRY_LINK_DOWN (R442): a link is declared down once. -/
def execFerryLinkDown (x y : LaneId) (s : State) : Out :=
  if x = y || !(s.lane x).up || ((s.lane x).peerOf y).down then .next s
  else
    let net : Net := { s.net with rx := s.net.rx.filter (· ≠ (x, y)) }
    onLane x (·.linkLost net y) { s with net := net }

/-- Valid line code from lane `y` for 1 ms: the lane's own declaration ends; the link counts as up once the other direction is valid too. -/
def Lane.linkValid (L : Lane) (net : Net) (y : LaneId) : Lane := (L.setPeer y { L.peerOf y with down := false }).seeLinks net

/-- FERRY_LINK_UP (R442). -/
def execFerryLinkUp (x y : LaneId) (s : State) : Out :=
  if x = y || !(s.lane x).up then .next s
  else
    let net : Net := { s.net with rx := if s.net.rx.contains (x, y) then s.net.rx else s.net.rx ++ [(x, y)] }
    onLane x (·.linkValid net y) { s with net := net }

/-- ALIVE_LINE_EDGE (R60): the line that lane `y` drives to lane `x` toggles. -/
def execAliveLineEdge (x y : LaneId) (s : State) : Out :=
  onUp x (fun L =>
    if x = y then L else (L.setPeer y { L.peerOf y with toggled := some L.now, aliveAt := some L.now }).showVote) s

/-- ALIVE_LINE_TIMEOUT (R60): 75 µs after lane `y` last showed itself alive. -/
def execAliveLineTimeout (x y : LaneId) (s : State) : Out :=
  atDue x (fun L => (L.peerOf y).aliveAt.map (· + 75 * usTicks))
    (fun L => (L.setPeer y { L.peerOf y with aliveAt := none }).showVote) s

/-! ### Launches (R473 to R476) -/

/-- When the lane launches the lane ferry: 100 µs after the last valid frame, and after any hold. -/
def Lane.launchDue (L : Lane) : Option Nat :=
  if L.bit Reg.XF_CTRL_EN && L.bit Reg.XF_CTRL_LAUNCH && L.mayOriginate then some (max (L.xf.frameAt + 10000) L.xf.hold) else none

/-- A launch frame sent on both paths. -/
def Lane.launch (L : Lane) : Lane :=
  let L1 : Lane := { L with xf := { L.xf with hold := L.now + 10000 } }
  L1.set Reg.XF_STAT_LAUNCHING 1

/-- The launch frames of the lane on both paths (R473): a header alone, SAILING 0. -/
def Lane.sendLaunch (L : Lane) (net : Net) : Net := net.send L.me [3] ([0, 1].map fun p => L.ownFrame net 3 p false 0 [])

/-- LAUNCH_TIMEOUT (R473), on the lane ferry or on the lane's vehicle ring. -/
def execLaunchTimeout (x : LaneId) (ferry : Ferry) (s : State) : Out :=
  match ferry with
  | .lane =>
    match (s.lane x).up, (s.lane x).launchDue with
    | true, some t => onLane x Lane.launch { s.reach x t with net := (s.lane x).sendLaunch s.net }
    | _, _ => .next s
  | .vehicle => atDue x Lane.vehLaunchDue Lane.vehLaunch s

/-- Whether a sailing has been seen within the launch timeout: then a launch frame is discarded (Table 10.12). -/
def Lane.seesSailings (L : Lane) : Bool := L.xf.adopted && decide (L.now < L.xf.frameAt + 10000)

/-- The own launch has returned (R475): harbour master, with sailing 0 departing 10 µs later. -/
def Lane.launched (L : Lane) : Lane :=
  let off : Int := -((L.now + 1000 : Nat) : Int)
  let L1 : Lane := { L with xf := { L.xf with
    off := off, offPast := ((L.now, L.xf.off) :: L.xf.offPast).take 8, adopted := true, next := 0, latched := false, cur := none, readOnly := false, tick := none, frameAt := L.now } }
  ((L1.rearm 1).set Reg.XF_STAT_LAUNCHING 0).setMaster L.me

/-- The launch frame of lane `h` on a path that is about to reach lane `x`: the lane it left last is the one before, and their link is up. -/
def Net.launchAt (net : Net) (x h : LaneId) (path : Nat) : Option RingFrame :=
  net.frames.find? fun f => f.orig = h && f.kind = 3 && f.path = path && downstream f.place path = x && linkIn net.rx f.place x

/-- What a launch frame makes of the lane that it reaches (R458, R474, R475; Table 10.12): the own one makes it harbour master; another's is
discarded while sailings come in; a manifest that differs is counted and raised; a lower-numbered one holds the own launch off. -/
def Lane.launchSeen (L : Lane) (f : RingFrame) : Lane :=
  if L.seesSailings then L
  else if f.orig = L.me then if L.bit Reg.XF_STAT_LAUNCHING then L.launched else L
  else
    let L1 := if ringManifest f ≠ L.get Reg.XF_MAN_CRC_CRC then L.headMismatch else L
    if laneNum f.orig < laneNum L.me then ({ L1 with xf := { L1.xf with hold := L.now + 10000 } }).set Reg.XF_STAT_LAUNCHING 0 else L1

/-- Whether the lane forwards a launch frame (R474); with XF not enabled it passes through. -/
def Lane.forwardsLaunch (L : Lane) (f : RingFrame) : Bool :=
  !L.bit Reg.XF_CTRL_EN || (!L.seesSailings && decide (laneNum f.orig < laneNum L.me))

/-- A launch frame leaves lane `x` with its bytes, or ends there. -/
def Net.moveLaunch (net : Net) (f : RingFrame) (x : LaneId) (bs : List Byte) (on : Bool) : Net :=
  { net with frames := if on then net.frames.map fun g => if g = f then { g with place := x, bytes := bs } else g
      else net.frames.filter (· ≠ f) }

/-- A launch frame on the lane ferry. One whose HCHECK fails is discarded (R452). -/
def execRingLaunch (x h : LaneId) (path : Nat) (flips : List (Nat × Byte)) (s : State) : Out :=
  match (s.lane x).up, s.net.launchAt x h path with
  | true, some g =>
    let f : RingFrame := { g with bytes := flipBytes g.bytes flips }
    let ok := ringCheckOk f
    let L := s.lane x
    onLane x (fun L => if L.bit Reg.XF_CTRL_EN && ok then L.launchSeen f else L)
      { s with net := s.net.moveLaunch g x f.bytes ((ok || !L.bit Reg.XF_CTRL_EN) && L.forwardsLaunch f) }
  | _, _ => .next s

/-- LAUNCH_FRAME_RECEIVED (R474, R475). -/
def execLaunchFrameReceived (x : LaneId) (ferry : Ferry) (launch : LaunchFrame) (s : State) : Out :=
  match ferry, launch with
  | .lane, .ring h path flips => execRingLaunch x h path flips s
  | .vehicle, .wire f => onUp x (·.vehLaunched f) s
  | _, _ => .next s

end Sys2Proof.Machine
end

