-- ==== Sys2Proof/Machine/Script.lean ====
section
/-! DEFINITION. The steps of a running order script (14_host_orders.md R621 to R624, Table 14.9). Each command runs the step of its kind that
the script stands at; at any other step it changes nothing. -/

namespace Sys2Proof.Machine

/-- The running script where its next step is of a kind, no order of it is unanswered, and it waits for nothing. -/
def Lane.atStep (L : Lane) (kind : Nat) : Option ScriptRun :=
  match L.hl.run with
  | none => none
  | some r => if r.code ≠ 256 && r.waiting.isNone && bitsOf (L.scriptWord r r.pc) 31 28 = kind then some r else none

def Lane.setRun (L : Lane) (r : ScriptRun) : Lane := { L with hl := { L.hl with run := some r } }

/-- The authority that the steps of a script run with (R622). -/
def Lane.scriptAuth (L : Lane) (r : ScriptRun) : Nat :=
  min (L.get (Reg.HL_PART_CFG_AUTH r.part)) (L.get (Reg.HL_PART_CFG_AUTH (L.script r.slot).part))

/-- The order of an ORDER step. Its operation reports on the route of the script's own order. -/
def Lane.stepOrder (L : Lane) (r : ScriptRun) : Order :=
  let h := L.scriptWord r (r.pc + 1)
  let n := h % 2 ^ 6
  let route := ((L.findOp r.opid).map (·.route)).getD 0
  ⟨bitsOf h 30 24, bitAt h 17, bitAt h 31 || bitsOf h 16 6 ≠ 0, n, r.part, bitsOf h 23 20, L.scriptAuth r, route,
    (List.range n).map fun i => L.scriptWord r (r.pc + 2 + i), .script⟩

/-- An ORDER step (R622, R623): the order is served; its code comes back with its answer. -/
def Lane.runOrder (L : Lane) (m : Mem) : Lane × Mem :=
  match L.atStep 0 with
  | none => (L, m)
  | some r =>
    let o := L.stepOrder r
    (L.setRun { r with pc := r.pc + 2 + o.narg, code := 256, op := none, opDone := none }).serveOrder m o

/-- SCRIPT_ORDER. -/
def execScrOrder (x : LaneId) (s : State) : Out := onAwakeMem x Lane.runOrder s

/-- A wait begins: for a time, or for an operation (`forOp`). -/
def Lane.beginWait (L : Lane) (kind : Nat) (forOp : Bool) : Lane :=
  match L.atStep kind with
  | none => L
  | some r => L.setRun { r with waiting := some (forOp, L.now + L.scriptWord r r.pc % 2 ^ 20 * msTicks) }

/-- WAIT_TIME. -/
def execScrWaitTime (x : LaneId) (s : State) : Out := onAwake x (fun L => L.beginWait 1 false) s

/-- WAIT_OP. -/
def execScrWaitOp (x : LaneId) (s : State) : Out := onAwake x (fun L => L.beginWait 2 true) s

/-- When a WAIT_TIME ends. -/
def Lane.timeDue (L : Lane) : Option Nat :=
  match L.hl.run with
  | some r => match r.waiting with
    | some (false, t) => some t
    | _ => none
  | none => none

def Lane.endTime (L : Lane) : Lane :=
  match L.hl.run with
  | none => L
  | some r => L.setRun { r with pc := r.pc + 1, waiting := none }

/-- WAIT_TIME_END. -/
def execScrWaitTimeEnd (x : LaneId) (s : State) : Out := awakeAtDue x Lane.timeDue Lane.endTime s

/-- When a WAIT_OP ends: with the operation's report, or at its timeout. -/
def Lane.opDue (L : Lane) : Option Nat :=
  match L.hl.run with
  | some r => match r.waiting with
    | some (true, t) => if r.opDone.isSome then some L.now else some t
    | _ => none
  | none => none

/-- The wait ends with 0x00 for COMPLETED, 0x0D for ABORTED or at the timeout. -/
def Lane.endOpWait (L : Lane) : Lane :=
  match L.hl.run with
  | none => L
  | some r => L.stepEnded { r with pc := r.pc + 1, waiting := none } (if r.opDone = some true then 0x00 else 0x0D)

/-- WAIT_OP_END. -/
def execScrWaitOpEnd (x : LaneId) (s : State) : Out := awakeAtDue x Lane.opDue Lane.endOpWait s

/-- The word after the step at a word. -/
def Lane.afterStep (L : Lane) (r : ScriptRun) (pc : Nat) : Nat :=
  if bitsOf (L.scriptWord r pc) 31 28 = 0 then pc + 2 + L.scriptWord r (pc + 1) % 2 ^ 6 else pc + 1
def Lane.afterSteps (L : Lane) (r : ScriptRun) (pc : Nat) : Nat → Nat
  | 0 => pc
  | n + 1 => L.afterSteps r (L.afterStep r pc) n

/-- SKIP: the next N steps are skipped when the last code compares as the step says. -/
def Lane.runSkip (L : Lane) : Lane :=
  match L.atStep 3 with
  | none => L
  | some r =>
    let w := L.scriptWord r r.pc
    let eq := decide (r.code = bitsOf w 23 16)
    L.setRun { r with pc := if eq != bitAt w 24 then L.afterSteps r (r.pc + 1) (w % 2 ^ 8) else r.pc + 1 }
def execScrSkip (x : LaneId) (s : State) : Out := onAwake x Lane.runSkip s

/-- COMMIT (R622): the commit point of the script. -/
def Lane.runCommit (L : Lane) : Lane :=
  match L.atStep 4 with
  | none => L
  | some r => (L.setRun { r with pc := r.pc + 1, committed := true }).commitOp r.opid
def execScrCommit (x : LaneId) (s : State) : Out := onAwake x Lane.runCommit s

/-- END: the script completes. -/
def Lane.runEnd (L : Lane) : Lane :=
  match L.atStep 5 with
  | none => L
  | some r => L.endScript r true 0
def execScrEnd (x : LaneId) (s : State) : Out := onAwake x Lane.runEnd s

end Sys2Proof.Machine
end

