-- ==== Sys2Proof/Machine/Dispatch.lean ====
section
/-! DEFINITION. The dispatcher: one arm per command, each one call of the command's meaning. -/

namespace Sys2Proof.Machine

/-- The effect of a command on everything but the queue. -/
def exec (i : Instr) (s : State) : Host.Outcome State Fault Refusal :=
  match i with
  | .powerOnResetRelease x strap => Sys2Proof.Machine.execPowerOnResetRelease x strap s
  | .supplyLoss x => Sys2Proof.Machine.execSupplyLoss x s
  | .resetPin x lowNs strap => Sys2Proof.Machine.execResetPin x lowNs strap s
  | .supplyThresholdCrossing x mv => Sys2Proof.Machine.execSupplyThresholdCrossing x mv s
  | .crystalFailure x => Sys2Proof.Machine.execCrystalFailure x s
  | .crystalRecovery x => Sys2Proof.Machine.execCrystalRecovery x s
  | .bootComplete x => Sys2Proof.Machine.execBootComplete x s
  | .bootFailure x cause => Sys2Proof.Machine.execBootFailure x cause s
  | .watchStart x crackOpen deputyFault => Sys2Proof.Machine.execWatchStart x crackOpen deputyFault s
  | .watchOverrun x => Sys2Proof.Machine.execWatchOverrun x s
  | .outerTick x => Sys2Proof.Machine.execOuterTick x s
  | .formationPublish x => Sys2Proof.Machine.execFormationPublish x s
  | .unresolvedTimeout x => Sys2Proof.Machine.execUnresolvedTimeout x s
  | .startTestPendingReport x => Sys2Proof.Machine.execStartTestPendingReport x s
  | .boostUpdate x => Sys2Proof.Machine.execBoostUpdate x s
  | .aliveLineEdge x y => Sys2Proof.Machine.execAliveLineEdge x y s
  | .aliveLineTimeout x y => Sys2Proof.Machine.execAliveLineTimeout x y s
  | .sailingDeparture x => Sys2Proof.Machine.execSailingDeparture x s
  | .latchPoint x => Sys2Proof.Machine.execLatchPoint x s
  | .sailingJudgement x => Sys2Proof.Machine.execSailingJudgement x s
  | .landing x => Sys2Proof.Machine.execLanding x s
  | .relayLost x => Sys2Proof.Machine.execRelayLost x s
  | .frameHeadArrival x path head err => Sys2Proof.Machine.execFrameHeadArrival x path head err s
  | .berthPassage x owner path frame flips => Sys2Proof.Machine.execBerthPassage x owner path frame flips s
  | .tailSend x => Sys2Proof.Machine.execTailSend x s
  | .reliefInstant x => Sys2Proof.Machine.execReliefInstant x s
  | .ferryLinkDown x y => Sys2Proof.Machine.execFerryLinkDown x y s
  | .ferryLinkUp x y => Sys2Proof.Machine.execFerryLinkUp x y s
  | .launchTimeout x ferry => Sys2Proof.Machine.execLaunchTimeout x ferry s
  | .launchFrameReceived x ferry launch => Sys2Proof.Machine.execLaunchFrameReceived x ferry launch s
  | .xfCommit x v => Sys2Proof.Machine.execXfCommit x v s
  | .vfCommit x v => Sys2Proof.Machine.execVfCommit x v s
  | .xfEnable x v => Sys2Proof.Machine.execXfEnable x v s
  | .vfEnable x v => Sys2Proof.Machine.execVfEnable x v s
  | .vehicleDeparture x => Sys2Proof.Machine.execVehicleDeparture x s
  | .vehiclePassArrival x frame err => Sys2Proof.Machine.execVehiclePassArrival x frame err s
  | .loadingPassReturn x frame => Sys2Proof.Machine.execLoadingPassReturn x frame s
  | .nonFerryFrame x port etherType da frame => Sys2Proof.Machine.execNonFerryFrame x port etherType da frame s
  | .frameSendRequest x port v => Sys2Proof.Machine.execFrameSendRequest x port v s
  | .heldFrameSend x port => Sys2Proof.Machine.execHeldFrameSend x port s
  | .ferryPassDelayed x port => Sys2Proof.Machine.execFerryPassDelayed x port s
  | .portLinkChange x port link fullDuplex mbit => Sys2Proof.Machine.execPortLinkChange x port link fullDuplex mbit s
  | .samplingInstant x peak c0 c1 => Sys2Proof.Machine.execSamplingInstant x peak c0 c1 s
  | .sampleSetReady x b => Sys2Proof.Machine.execSampleSetReady x b s
  | .triggerFiring x n => Sys2Proof.Machine.execTriggerFiring x n s
  | .leNop x ecc => Sys2Proof.Machine.execLeNop x ecc s
  | .leClr x ecc => Sys2Proof.Machine.execLeClr x ecc s
  | .leLda x ecc => Sys2Proof.Machine.execLeLda x ecc s
  | .leMac x ecc => Sys2Proof.Machine.execLeMac x ecc s
  | .leMacr x ecc => Sys2Proof.Machine.execLeMacr x ecc s
  | .leSta x ecc => Sys2Proof.Machine.execLeSta x ecc s
  | .leMov x ecc => Sys2Proof.Machine.execLeMov x ecc s
  | .leLdc x ecc => Sys2Proof.Machine.execLeLdc x ecc s
  | .leAdd x ecc => Sys2Proof.Machine.execLeAdd x ecc s
  | .leMul x ecc => Sys2Proof.Machine.execLeMul x ecc s
  | .leSat x ecc => Sys2Proof.Machine.execLeSat x ecc s
  | .leSel x ecc => Sys2Proof.Machine.execLeSel x ecc s
  | .leSkp x ecc => Sys2Proof.Machine.execLeSkp x ecc s
  | .leC22 x ecc => Sys2Proof.Machine.execLeC22 x ecc s
  | .leC33 x ecc => Sys2Proof.Machine.execLeC33 x ecc s
  | .leNtc x ecc => Sys2Proof.Machine.execLeNtc x ecc s
  | .leClk x ecc => Sys2Proof.Machine.execLeClk x ecc s
  | .lePrk x ecc => Sys2Proof.Machine.execLePrk x ecc s
  | .leIpk x ecc => Sys2Proof.Machine.execLeIpk x ecc s
  | .leScs x ecc => Sys2Proof.Machine.execLeScs x ecc s
  | .leSvm x ecc => Sys2Proof.Machine.execLeSvm x ecc s
  | .leRcp x ecc => Sys2Proof.Machine.execLeRcp x ecc s
  | .leSqr x ecc => Sys2Proof.Machine.execLeSqr x ecc s
  | .leOut x ecc => Sys2Proof.Machine.execLeOut x ecc s
  | .leWait x ecc => Sys2Proof.Machine.execLeWait x ecc s
  | .waitEventComplete x => Sys2Proof.Machine.execWaitEventComplete x s
  | .waitTimeout x => Sys2Proof.Machine.execWaitTimeout x s
  | .leEnd x ecc => Sys2Proof.Machine.execLeEnd x ecc s
  | .deadlineMiss x n => Sys2Proof.Machine.execDeadlineMiss x n s
  | .paceMeasurement x pace => Sys2Proof.Machine.execPaceMeasurement x pace s
  | .leFireFire x mask => Sys2Proof.Machine.execLeFireFire x mask s
  | .leFireEvt x => Sys2Proof.Machine.execLeFireEvt x s
  | .triggerEnable x n v => Sys2Proof.Machine.execTriggerEnable x n v s
  | .scanEnd x n => Sys2Proof.Machine.execScanEnd x n s
  | .programSwap x v => Sys2Proof.Machine.execProgramSwap x v s
  | .programWordWrite x k high v => Sys2Proof.Machine.execProgramWordWrite x k high v s
  | .signalWordWrite x k v => Sys2Proof.Machine.execSignalWordWrite x k v s
  | .coeffWordWrite x k v => Sys2Proof.Machine.execCoeffWordWrite x k v s
  | .cswapRequest x v => Sys2Proof.Machine.execCswapRequest x v s
  | .cswapIdleApply x => Sys2Proof.Machine.execCswapIdleApply x s
  | .cswapAtRequest x v => Sys2Proof.Machine.execCswapAtRequest x v s
  | .swapCopyEnd x => Sys2Proof.Machine.execSwapCopyEnd x s
  | .holdSchedule x v => Sys2Proof.Machine.execHoldSchedule x v s
  | .carrierWrite x v => Sys2Proof.Machine.execCarrierWrite x v s
  | .brReqOff x b => Sys2Proof.Machine.execBrReqOff x b s
  | .brReqCatch x b => Sys2Proof.Machine.execBrReqCatch x b s
  | .brReqDirect x b => Sys2Proof.Machine.execBrReqDirect x b s
  | .catchTimeout x b => Sys2Proof.Machine.execCatchTimeout x b s
  | .zeroEnd x b => Sys2Proof.Machine.execZeroEnd x b s
  | .lockedRotor x b => Sys2Proof.Machine.execLockedRotor x b s
  | .amCal x => Sys2Proof.Machine.execAmCal x s
  | .amCalEnd x => Sys2Proof.Machine.execAmCalEnd x s
  | .hallEdge x b lines => Sys2Proof.Machine.execHallEdge x b lines s
  | .observerLoss x b => Sys2Proof.Machine.execObserverLoss x b s
  | .standstill x b => Sys2Proof.Machine.execStandstill x b s
  | .hallSetLost x b => Sys2Proof.Machine.execHallSetLost x b s
  | .encoderStep x b => Sys2Proof.Machine.execEncoderStep x b s
  | .encoderEnable x b v => Sys2Proof.Machine.execEncoderEnable x b v s
  | .encoderDisable x b v => Sys2Proof.Machine.execEncoderDisable x b v s
  | .encoderDrained x b => Sys2Proof.Machine.execEncoderDrained x b s
  | .sentFrame x sl frame => Sys2Proof.Machine.execSentFrame x sl frame s
  | .sentTimeout x sl => Sys2Proof.Machine.execSentTimeout x sl s
  | .analogConversion x a code => Sys2Proof.Machine.execAnalogConversion x a code s
  | .switchInputEdge x b ph high on => Sys2Proof.Machine.execSwitchInputEdge x b ph high on s
  | .deadTimeEnd x b ph high => Sys2Proof.Machine.execDeadTimeEnd x b ph high s
  | .profilePhaseEnd x b ph high => Sys2Proof.Machine.execProfilePhaseEnd x b ph high s
  | .dieLinkLoss x => Sys2Proof.Machine.execDieLinkLoss x s
  | .bootstrapUndervoltage x b ph => Sys2Proof.Machine.execBootstrapUndervoltage x b ph s
  | .gateSupplyUndervoltage x => Sys2Proof.Machine.execGateSupplyUndervoltage x s
  | .gateSupplyRecovery x => Sys2Proof.Machine.execGateSupplyRecovery x s
  | .desatDetection x b high low => Sys2Proof.Machine.execDesatDetection x b high low s
  | .hardShortDetection x b phases => Sys2Proof.Machine.execHardShortDetection x b phases s
  | .shortSequenceStage x b => Sys2Proof.Machine.execShortSequenceStage x b s
  | .shortSequenceEnd x b => Sys2Proof.Machine.execShortSequenceEnd x b s
  | .enLow x ns => Sys2Proof.Machine.execEnLow x ns s
  | .enRise x => Sys2Proof.Machine.execEnRise x s
  | .torqueOffLine x => Sys2Proof.Machine.execTorqueOffLine x s
  | .profileWrite x b e v => Sys2Proof.Machine.execProfileWrite x b e v s
  | .directWrite x b v => Sys2Proof.Machine.execDirectWrite x b v s
  | .commitGateTransaction x t0 t1 => Sys2Proof.Machine.execCommitGateTransaction x t0 t1 s
  | .partnerTimeout x late addr => Sys2Proof.Machine.execPartnerTimeout x late addr s
  | .pairRestartEnd x => Sys2Proof.Machine.execPairRestartEnd x s
  | .coreInternalFault x core => Sys2Proof.Machine.execCoreInternalFault x core s
  | .wfi x => Sys2Proof.Machine.execWfi x s
  | .splitRequest x lead => Sys2Proof.Machine.execSplitRequest x lead s
  | .rejoinRequest x => Sys2Proof.Machine.execRejoinRequest x s
  | .drainTimeout x => Sys2Proof.Machine.execDrainTimeout x s
  | .debugHalt x core => Sys2Proof.Machine.execDebugHalt x core s
  | .debugResume x core => Sys2Proof.Machine.execDebugResume x core s
  | .debugSingleStep x core => Sys2Proof.Machine.execDebugSingleStep x core s
  | .tsEvent x sl => Sys2Proof.Machine.execTsEvent x sl s
  | .signal x task flag => Sys2Proof.Machine.execSignal x task flag s
  | .flagClear x task v => Sys2Proof.Machine.execFlagClear x task v s
  | .dispatchRead x target => Sys2Proof.Machine.execDispatchRead x target s
  | .dispatchAck x target => Sys2Proof.Machine.execDispatchAck x target s
  | .tsYield x target => Sys2Proof.Machine.execTsYield x target s
  | .tsYieldEnd x target => Sys2Proof.Machine.execTsYieldEnd x target s
  | .taskEnable x task => Sys2Proof.Machine.execTaskEnable x task s
  | .taskDisable x task => Sys2Proof.Machine.execTaskDisable x task s
  | .taskRestart x task => Sys2Proof.Machine.execTaskRestart x task s
  | .queuePush x q data core => Sys2Proof.Machine.execQueuePush x q data core s
  | .queuePushTimeout x q => Sys2Proof.Machine.execQueuePushTimeout x q s
  | .queueSpacePush x q => Sys2Proof.Machine.execQueueSpacePush x q s
  | .queuePop x q => Sys2Proof.Machine.execQueuePop x q s
  | .flowAdmit x f task => Sys2Proof.Machine.execFlowAdmit x f task s
  | .flowDone x f v => Sys2Proof.Machine.execFlowDone x f v s
  | .flowRelease x f => Sys2Proof.Machine.execFlowRelease x f s
  | .ixRenewal x throughout => Sys2Proof.Machine.execIxRenewal x throughout s
  | .ixGrant x reqs => Sys2Proof.Machine.execIxGrant x reqs s
  | .weightWrite x r v => Sys2Proof.Machine.execWeightWrite x r v s
  | .syncReceived x d port msg => Sys2Proof.Machine.execSyncReceived x d port msg s
  | .followUpReceived x d msg => Sys2Proof.Machine.execFollowUpReceived x d msg s
  | .followUpTimeout x d => Sys2Proof.Machine.execFollowUpTimeout x d s
  | .announceReceived x d port gm msg => Sys2Proof.Machine.execAnnounceReceived x d port gm msg s
  | .pdelayMessage x port msg => Sys2Proof.Machine.execPdelayMessage x port msg s
  | .pdelayReqTimer x port => Sys2Proof.Machine.execPdelayReqTimer x port s
  | .syncDeparture x d port tTx => Sys2Proof.Machine.execSyncDeparture x d port tTx s
  | .receiptTimeout x d => Sys2Proof.Machine.execReceiptTimeout x d s
  | .slewComplete x => Sys2Proof.Machine.execSlewComplete x s
  | .revertQualified x => Sys2Proof.Machine.execRevertQualified x s
  | .comparatorFire x c => Sys2Proof.Machine.execComparatorFire x c s
  | .snapshot x => Sys2Proof.Machine.execSnapshot x s
  | .timeLoRead x requester base => Sys2Proof.Machine.execTimeLoRead x requester base s
  | .resync x => Sys2Proof.Machine.execResync x s
  | .deputyHallEdge x b lines => Sys2Proof.Machine.execDeputyHallEdge x b lines s
  | .deputySpeedTimeout x b => Sys2Proof.Machine.execDeputySpeedTimeout x b s
  | .smCmdStop x => Sys2Proof.Machine.execSmCmdStop x s
  | .smCmdToff x => Sys2Proof.Machine.execSmCmdToff x s
  | .smCmdRelease x => Sys2Proof.Machine.execSmCmdRelease x s
  | .smCmdAbort x => Sys2Proof.Machine.execSmCmdAbort x s
  | .stopGraceExpiry x => Sys2Proof.Machine.execStopGraceExpiry x s
  | .stopHoldExpiry x => Sys2Proof.Machine.execStopHoldExpiry x s
  | .siSample x levels => Sys2Proof.Machine.execSiSample x levels s
  | .siFilterChange x k => Sys2Proof.Machine.execSiFilterChange x k s
  | .testPulseStart x n => Sys2Proof.Machine.execTestPulseStart x n s
  | .testPulseEnd x n => Sys2Proof.Machine.execTestPulseEnd x n s
  | .siFaultClear x mask => Sys2Proof.Machine.execSiFaultClear x mask s
  | .sxSend x v => Sys2Proof.Machine.execSxSend x v s
  | .sxUnitReceived x route unit => Sys2Proof.Machine.execSxUnitReceived x route unit s
  | .sxExpiry x c => Sys2Proof.Machine.execSxExpiry x c s
  | .fmForce x g v => Sys2Proof.Machine.execFmForce x g v s
  | .fmStatusClear x g v => Sys2Proof.Machine.execFmStatusClear x g v s
  | .fmNmtAck x => Sys2Proof.Machine.execFmNmtAck x s
  | .fmBallPrel x => Sys2Proof.Machine.execFmBallPrel x s
  | .errpHoldExpiry x => Sys2Proof.Machine.execErrpHoldExpiry x s
  | .quietPeriodEnd x sl => Sys2Proof.Machine.execQuietPeriodEnd x sl s
  | .laneResetReaction x => Sys2Proof.Machine.execLaneResetReaction x s
  | .modeRequest x target => Sys2Proof.Machine.execModeRequest x target s
  | .precedenceWrite x v => Sys2Proof.Machine.execPrecedenceWrite x v s
  | .importWrite x k v => Sys2Proof.Machine.execImportWrite x k v s
  | .commandLinkSyncLoss x => Sys2Proof.Machine.execCommandLinkSyncLoss x s
  | .commandLinkUp x route => Sys2Proof.Machine.execCommandLinkUp x route s
  | .ordPing x via syms => Sys2Proof.Machine.execOrdPing x via syms s
  | .ordRead x via syms => Sys2Proof.Machine.execOrdRead x via syms s
  | .ordWrite x via syms => Sys2Proof.Machine.execOrdWrite x via syms s
  | .ordMode x via syms => Sys2Proof.Machine.execOrdMode x via syms s
  | .ordToff x via syms => Sys2Proof.Machine.execOrdToff x via syms s
  | .ordStop x via syms => Sys2Proof.Machine.execOrdStop x via syms s
  | .ordRelease x via syms => Sys2Proof.Machine.execOrdRelease x via syms s
  | .ordOneway x via syms => Sys2Proof.Machine.execOrdOneway x via syms s
  | .ordAbort x via syms => Sys2Proof.Machine.execOrdAbort x via syms s
  | .ordRamp x via syms => Sys2Proof.Machine.execOrdRamp x via syms s
  | .ordMotionSelect x via syms => Sys2Proof.Machine.execOrdMotionSelect x via syms s
  | .ordSubscribe x via syms => Sys2Proof.Machine.execOrdSubscribe x via syms s
  | .ordFaultClear x via syms => Sys2Proof.Machine.execOrdFaultClear x via syms s
  | .ordPower x via syms => Sys2Proof.Machine.execOrdPower x via syms s
  | .ordScriptLoad x via syms => Sys2Proof.Machine.execOrdScriptLoad x via syms s
  | .ordScriptRun x via syms => Sys2Proof.Machine.execOrdScriptRun x via syms s
  | .ordRecord x via syms => Sys2Proof.Machine.execOrdRecord x via syms s
  | .ordBist x via syms => Sys2Proof.Machine.execOrdBist x via syms s
  | .responseSend x route => Sys2Proof.Machine.execResponseSend x route s
  | .reportSend x route => Sys2Proof.Machine.execReportSend x route s
  | .scrOrder x => Sys2Proof.Machine.execScrOrder x s
  | .scrWaitTime x => Sys2Proof.Machine.execScrWaitTime x s
  | .scrWaitTimeEnd x => Sys2Proof.Machine.execScrWaitTimeEnd x s
  | .scrWaitOp x => Sys2Proof.Machine.execScrWaitOp x s
  | .scrWaitOpEnd x => Sys2Proof.Machine.execScrWaitOpEnd x s
  | .scrSkip x => Sys2Proof.Machine.execScrSkip x s
  | .scrCommit x => Sys2Proof.Machine.execScrCommit x s
  | .scrEnd x => Sys2Proof.Machine.execScrEnd x s
  | .pmReqGo x target => Sys2Proof.Machine.execPmReqGo x target s
  | .entryAbortPoint x => Sys2Proof.Machine.execEntryAbortPoint x s
  | .domainSwitchOff x => Sys2Proof.Machine.execDomainSwitchOff x s
  | .wake x src => Sys2Proof.Machine.execWake x src s
  | .wakeTimer x => Sys2Proof.Machine.execWakeTimer x s
  | .exitComplete x => Sys2Proof.Machine.execExitComplete x s
  | .padRelease x => Sys2Proof.Machine.execPadRelease x s
  | .tmSample x codes => Sys2Proof.Machine.execTmSample x codes s
  | .nvWindowOpen x => Sys2Proof.Machine.execNvWindowOpen x s
  | .recordWriteRequest x slot => Sys2Proof.Machine.execRecordWriteRequest x slot s
  | .recordWriteAbort x slot => Sys2Proof.Machine.execRecordWriteAbort x slot s
  | .recordWriteCommit x ok => Sys2Proof.Machine.execRecordWriteCommit x ok s
  | .canarySlice x => Sys2Proof.Machine.execCanarySlice x s
  | .canarySliceEnd x fail => Sys2Proof.Machine.execCanarySliceEnd x fail s
  | .bistEnd x => Sys2Proof.Machine.execBistEnd x s
  | .lbistRequest x => Sys2Proof.Machine.execLbistRequest x s
  | .lbistEnd x => Sys2Proof.Machine.execLbistEnd x s
  | .fuseBurn x => Sys2Proof.Machine.execFuseBurn x s
  | .fuseBurnEnd x => Sys2Proof.Machine.execFuseBurnEnd x s
  | .registerWrite x addr v => Sys2Proof.Machine.execRegisterWrite x addr v s
  | .bootstrapRecovery x b ph => Sys2Proof.Machine.execBootstrapRecovery x b ph s
  | .commandLinkInSync x => Sys2Proof.Machine.execCommandLinkInSync x s
  | .canFdErrorStateChange x st => Sys2Proof.Machine.execCanFdErrorStateChange x st s
  | .throttlePauseEnd x => Sys2Proof.Machine.execThrottlePauseEnd x s
  | .limitedRateRelease x b => Sys2Proof.Machine.execLimitedRateRelease x b s
  | .phyResetRelease x => Sys2Proof.Machine.execPhyResetRelease x s
  | .debugSessionChange x isOpen => Sys2Proof.Machine.execDebugSessionChange x isOpen s

end Sys2Proof.Machine
end

