-- ==== Sys2Proof/Safety.lean ====
section
/-! DEFINITION. The terms statements are made in: which lane, which part of a lane and which registers a command may
change, what raising a fault source means, and the invariants of the module. -/

namespace Sys2Proof.Machine

/-- The parts of a lane that no register shows, one per block of Table 0.3, with its power state and its free values. -/
inductive Part where
  | run | free | md | le | fc | af | gd | cp | ts | ix | xf | vf | tb | sm | sx | fm | hl | pm | tm | st | rs | pins
  deriving DecidableEq, Repr

/-- From lane `L` to lane `M`, at most the parts listed and the register fields whose keys `w` picks out have changed; the lane is the
same lane. -/
structure Touches (P : List Part) (w : Nat → Bool) (L M : Lane) : Prop where
  me : M.me = L.me
  run : Part.run ∈ P ∨ M.run = L.run
  free : Part.free ∈ P ∨ M.free = L.free
  md : Part.md ∈ P ∨ M.md = L.md
  le : Part.le ∈ P ∨ M.le = L.le
  fc : Part.fc ∈ P ∨ M.fc = L.fc
  af : Part.af ∈ P ∨ M.af = L.af
  gd : Part.gd ∈ P ∨ M.gd = L.gd
  cp : Part.cp ∈ P ∨ M.cp = L.cp
  ts : Part.ts ∈ P ∨ M.ts = L.ts
  ix : Part.ix ∈ P ∨ M.ix = L.ix
  xf : Part.xf ∈ P ∨ M.xf = L.xf
  vf : Part.vf ∈ P ∨ M.vf = L.vf
  tb : Part.tb ∈ P ∨ M.tb = L.tb
  sm : Part.sm ∈ P ∨ M.sm = L.sm
  sx : Part.sx ∈ P ∨ M.sx = L.sx
  fm : Part.fm ∈ P ∨ M.fm = L.fm
  hl : Part.hl ∈ P ∨ M.hl = L.hl
  pm : Part.pm ∈ P ∨ M.pm = L.pm
  tm : Part.tm ∈ P ∨ M.tm = L.tm
  st : Part.st ∈ P ∨ M.st = L.st
  rs : Part.rs ∈ P ∨ M.rs = L.rs
  pins : Part.pins ∈ P ∨ M.pins = L.pins
  regs : ∀ f : Fld, w f.key = false → M.get f = L.get f

/-- The register fields of some 64 KiB peripheral windows (Table 0.4) and some single fields; and no field. -/
def fields (wins : List Nat) (flds : List Fld) (k : Nat) : Bool :=
  wins.contains (k / 0x200000) || flds.any fun f => decide (k = f.key)
abbrev noRegs : Nat → Bool := fields [] []

/-- From `s` to `t` nothing but lane `x` has changed: the queue, the memories, the ring and the other lanes are as they were. -/
structure OnlyLane (x : LaneId) (s t : State) : Prop where
  pending : t.pending = s.pending
  mem : t.mem = s.mem
  net : t.net = s.net
  other : ∀ y, y ≠ x → t.lane y = s.lane y

/-- From `s` to `t` nothing but lane `x` and its own memory has changed. -/
structure OnlyLaneMem (x : LaneId) (s t : State) : Prop where
  pending : t.pending = s.pending
  mem : ∀ y, y ≠ x → t.memOf y = s.memOf y
  net : t.net = s.net
  other : ∀ y, y ≠ x → t.lane y = s.lane y

/-- From `s` to `t` nothing but lane `x` and the ring has changed, and the ring has become `net`. -/
structure OnlyLaneRing (x : LaneId) (s t : State) (net : Net) : Prop where
  pending : t.pending = s.pending
  mem : t.mem = s.mem
  net : t.net = net
  other : ∀ y, y ≠ x → t.lane y = s.lane y

/-- The fields a TS event may change: TS, and the power state IDLE, which ends by the wake of the cores (R368). -/
abbrev tsRegs : Nat → Bool := fields [0x4001] [Reg.PM_STAT_STATE]

/-- The parts and fields that the stopping of the bridges may change (R252): FC, GD and the shares, and TS and the cores' wait by its
events. -/
abbrev stopParts : List Part := [.fc, .gd, .ts, .cp]
abbrev stopFlds : List Fld := [Reg.PM_STAT_STATE, Reg.FC_BR_STAT_STATE 0, Reg.FC_BR_STAT_STATE 1, Reg.FC_BR_STAT_DRIVE_OK 0,
  Reg.FC_BR_STAT_DRIVE_OK 1, Reg.FC_BR_STAT_RAMP 0, Reg.FC_BR_STAT_RAMP 1, Reg.FC_BR_CTRL_REQ 0, Reg.FC_BR_CTRL_REQ 1,
  Reg.XF_SHARE_OUT_SHARE 0, Reg.XF_SHARE_OUT_SHARE 1, Reg.GD_DIRECT_HS 0, Reg.GD_DIRECT_HS 1, Reg.GD_DIRECT_LS 0, Reg.GD_DIRECT_LS 1]
abbrev stopRegs : Nat → Bool := fields [0x4001] stopFlds

/-- Those that refuge may change as well (R5, R528, R449): the deputy's line with its count, the claim, and SELF_HM. -/
abbrev refugeFlds : List Fld := [Reg.SM_STAT_TOFF, Reg.SM_CNT_TOFF_COUNT, Reg.XF_VSTAT_SELF_CMD, Reg.VF_STAT_SELF_HM] ++ stopFlds
abbrev refugeRegs : Nat → Bool := fields [0x4001] refugeFlds

/-- The parts and fields that an event of source `n` may change: FM, what its reactions reach (R560), and the block that its
reaction B resets. -/
def blockParts : Option Nat → List Part
  | some 0x4009 => [.free, .vf]
  | some 0x400A => [.free, .tb, .xf]
  | some 0x4013 => [.free, .sx]
  | some 0x4010 => [.free, .rs]
  | some 0x400F => [.free, .st]
  | some 0x4011 => [.free, .hl]
  | some 0x4012 => [.free, .hl]
  | some _ => [.free]
  | none => []
/-- The fields beside the block's own: what HL_PART_STAT shows where an operation of RS or ST ends. -/
def blockFlds : Option Nat → List Fld
  | some 0x4010 | some 0x400F => (List.range 4).flatMap fun p => [Reg.HL_PART_STAT_OPS p, Reg.HL_PART_STAT_OUT p]
  | _ => []
def raiseParts (n : Nat) : List Part := [.md, .fc, .gd, .cp, .ts, .sm, .fm, .hl] ++ blockParts (blockOf n)
def raiseRegs (n : Nat) : Nat → Bool := fields (0x4001 :: 0x400C :: (blockOf n).toList) (Reg.HL_CNT_RLOST_COUNT :: blockFlds (blockOf n) ++ refugeFlds)

/-- The fields that an event of source `n` may change, and some more. -/
def raiseAnd (n : Nat) (flds : List Fld) (k : Nat) : Bool := raiseRegs n k || fields [] flds k

/-- The fields that show the lane's view of the vote (Table 1.12). -/
abbrev voteFlds : List Fld := [Reg.XF_VSTAT_CMD_LANE, Reg.XF_VSTAT_QUAL_SET, Reg.XF_VSTAT_REACH_SET, Reg.XF_VSTAT_ALIVE_SET,
  Reg.XF_VSTAT_DRIVE_SET0, Reg.XF_VSTAT_DRIVE_SET1, Reg.XF_BOOST_ACTIVE0, Reg.XF_BOOST_ACTIVE1, Reg.XF_VSTAT_ADVISORY]

/-- Source `n` has been raised once between `L` and `M` (R551): its status is set, its tally stands one higher, the tallies of the
other sources are as they were. Where its block had already raised it in the tick, the two are one event (R552). -/
structure Raised (n : Nat) (L M : Lane) : Prop where
  status : L.raisedNow n = false → M.status n = true
  tally : M.get (Reg.FM_TALLY_TALLY n) =
    if L.raisedNow n then L.get (Reg.FM_TALLY_TALLY n) else (L.get (Reg.FM_TALLY_TALLY n) + 1) % 2 ^ 32
  others : ∀ k, k < 192 → k ≠ n → M.get (Reg.FM_TALLY_TALLY k) = L.get (Reg.FM_TALLY_TALLY k)

/-- TS event `e` has occurred (R399): where its route is enabled, the flag it names is set in the task it names. -/
def Signalled (e : Nat) (L M : Lane) : Prop :=
  L.bit (Reg.TS_ROUTE_EN e) = true →
    M.bitOf (Reg.TS_TASK_FLAGS_FLAGS (L.get (Reg.TS_ROUTE_TASK e))) (L.get (Reg.TS_ROUTE_FLAG e)) = true

/-- Product `i` of a MAC or MACR with 60 fraction bits (R149): s[A + i] by c[K + i], or by s[B + i] with MOD[2], shifted left by 3 where that factor
is Q4.27 and unshifted where MOD[1] makes s[B + i] Q1.30; MOD[3] subtracts it. -/
def Lane.product (L : Lane) (w i : Nat) : Int :=
  (if bitAt (modOf w) 3 then -1 else 1) * L.sigI (aOf w + i) *
    (if bitAt (modOf w) 2 then L.sigI (bOf w + i) else L.coefI (kOf w + i)) *
    (if bitAt (modOf w) 2 && bitAt (modOf w) 1 then 1 else 8)

/-- Lane `x` runs, and the program that runs in its loop engine, `r`, stands before the word `w` of opcode `op`: no WAIT is in progress and the
deadline lies ahead. -/
structure Running (x : LaneId) (op : Nat) (s : State) (r : LeRun) (rest : List LeRun) (w : Nat) : Prop where
  up : (s.lane x).up = true
  runs : (s.lane x).le.runs = r :: rest
  deadline : (s.lane x).now < r.deadline
  wait : r.wait = none
  word : (s.lane x).prog r.pc = w
  op : opOf w = op

/-- From `s` to `t` the running program of lane `x` has become `r`; nothing else of the loop engine, of the lane or of the module has
changed. -/
structure RunBecomes (x : LaneId) (s t : State) (r : LeRun) (rest : List LeRun) : Prop where
  lane : OnlyLane x s t
  touches : Touches [.le, .fm] noRegs (s.lane x) (t.lane x)
  le : (t.lane x).le = { (s.lane x).le with runs := r :: rest }

/-- From `s` to `t` an instruction of the running program `r` has run: the program stands at the next one; no other run, no other lane and no
memory has changed. -/
structure WentOn (x : LaneId) (s t : State) (r : LeRun) (rest : List LeRun) : Prop where
  lane : OnlyLane x s t
  next : ∃ q, (t.lane x).le.runs = q :: rest ∧ q.pc = (r.pc + 1) % 4096 ∧ q.trig = r.trig ∧ q.deadline = r.deadline ∧ q.acc = r.acc ∧
    q.staged = r.staged
  pending : (t.lane x).le.pending = (s.lane x).le.pending

/-- The run after an instruction that wrote `v` first: N and Z of `v`, S as `sat` says where the instruction has a saturation rule. -/
def LeRun.wrote (r : LeRun) (v : Nat) (sat : Option Bool) : LeRun :=
  { r with pc := (r.pc + 1) % 4096, n := decide (2 ^ 31 ≤ v % 2 ^ 32), z := decide (v % 2 ^ 32 = 0), s := sat.getD r.s,
           satur := r.satur || sat.getD false }

/-- From `s` to `t` an instruction of the running program `r` has written the words `out` to the signal store from `d` on: those words, the
run's flags and its program counter have changed, and the lock timer that an end-stop bit holds or held (R268); nothing else. -/
structure Writes (x : LaneId) (s t : State) (r : LeRun) (rest : List LeRun) (d : Nat) (out : List Nat) (sat : Option Bool) : Prop where
  lane : OnlyLane x s t
  touches : Touches [.le, .fc, .fm] (fields [] [Reg.FC_BR_STAT_LOCKED 0, Reg.FC_BR_STAT_LOCKED 1]) (s.lane x) (t.lane x)
  free : (∀ b, b < 2 → (s.lane x).endStop b = false ∧ (t.lane x).endStop b = false) → Touches [.le, .fm] noRegs (s.lane x) (t.lane x)
  words : ∀ i, i < out.length → (t.lane x).sig (d + i) = nth out i % 2 ^ 32
  others : ∀ a, (∀ i, i < out.length → (d + i) % 4096 ≠ a % 4096) → (t.lane x).sig a = (s.lane x).sig a
  le : (t.lane x).le = { (s.lane x).le with sig := (t.lane x).le.sig, runs := r.wrote (nth out 0) sat :: rest }

/-- The instructions of the loop engine with their opcodes (Table 3.7), and those among them that write the words of their rule at s[D] and no
state word. -/
def leOps : List (Nat × (LaneId → Ecc → Instr)) :=
  [(0x05, .leSta), (0x06, .leMov), (0x07, .leLdc), (0x08, .leAdd), (0x09, .leMul), (0x0A, .leSat), (0x0B, .leSel), (0x18, .leClk), (0x19, .lePrk),
   (0x1A, .leIpk), (0x1B, .leScs), (0x1C, .leSvm), (0x1D, .leRcp), (0x1E, .leSqr), (0x00, .leNop), (0x01, .leClr), (0x02, .leLda),
   (0x03, .leMac), (0x04, .leMacr), (0x0C, .leSkp), (0x10, .leC22), (0x11, .leC33), (0x12, .leNtc), (0x30, .leOut), (0x31, .leWait), (0x3F, .leEnd)]
def leOpcode (k : Nat) : Nat := (leOps.getD k (0, .leNop)).1
def leCmd (k : Nat) (x : LaneId) (e : Ecc) : Instr := (leOps.getD k (0, .leNop)).2 x e

/-- What the deputy may change when it measures, evaluates its limits and reacts (R516 to R530): itself, FM, TS, the bridges with refuge's
fields, and HL, where the report of an operation ends. -/
abbrev deputyParts : List Part := [.free, .md, .fc, .gd, .cp, .ts, .sm, .fm, .hl]
abbrev deputyRegs : Nat → Bool := fields [0x4001, 0x400B, 0x400C, 0x4011] (Reg.SYS_START_SEEN_HIGH :: Reg.SYS_START_SEEN_LOW ::
  Reg.SYS_START_DONE :: refugeFlds)

/-- The orders of Table 14.5 with their operation codes. -/
def hostOrders : List (Nat × (LaneId → FrameVia → List Sym → Instr)) :=
  [(0x01, .ordPing), (0x02, .ordRead), (0x03, .ordWrite), (0x04, .ordMode), (0x05, .ordToff), (0x06, .ordStop), (0x07, .ordRelease),
   (0x08, .ordOneway), (0x09, .ordAbort), (0x0A, .ordRamp), (0x0B, .ordMotionSelect), (0x0C, .ordSubscribe), (0x0D, .ordFaultClear),
   (0x0E, .ordPower), (0x10, .ordScriptLoad), (0x11, .ordScriptRun), (0x12, .ordRecord), (0x13, .ordBist)]
def ordOp (k : Nat) : Nat := (hostOrders.getD k (0, .ordPing)).1
def ordCmd (k : Nat) (x : LaneId) (via : FrameVia) (syms : List Sym) : Instr := (hostOrders.getD k (0, .ordPing)).2 x via syms

/-- Lane `x` takes a frame on one of its routes, whole and in credit (R589): its header word reads as operation code `op` and header `h`. -/
structure Taken (x : LaneId) (op : Nat) (via : FrameVia) (syms : List Sym) (h : OrderHdr) (args : List Word) (s : State) : Prop where
  awake : (s.lane x).awake = true
  reaches : (s.lane x).frameReaches via syms = true
  read : readFrame via syms = some (op, h, args)
  taken : (s.lane x).refuseReason h = 0

/-- Lane `x` accepts an order frame with operation code `op` (R589), and no check of R588 or R601 refuses the order. -/
structure Accepted (x : LaneId) (op : Nat) (via : FrameVia) (syms : List Sym) (h : OrderHdr) (args : List Word) (s : State) : Prop where
  taken : Taken x op via syms h args s
  legal : (s.lane x).orderCode ((s.lane x).orderOf op h args) = 0

/-- Between `L` and `M` the order of frame `h` has been answered: its response, with `code` and `args`, stands last in its partition's queue, and
its tag is outstanding (R590). -/
structure Answered (op code : Nat) (args : List Nat) (h : OrderHdr) (L M : Lane) : Prop where
  response : spGet [] h.part.val M.hl.resp =
    spGet [] h.part.val L.hl.resp ++ [⟨h.route, respHdr (laneNum L.me) op h.tag h.part code args.length, args⟩]
  tag : ⟨h.part, h.tag, op, h.route⟩ ∈ M.hl.tags

/-- Between `L` and `M` the order of frame `h` has been performed here with `code` and, where it opened one, operation `id` (else 0xFF), and relayed to
the two other lanes; its answer waits for their results (R604, R606, R608). -/
structure Relayed (op code id : Nat) (h : OrderHdr) (L M : Lane) : Prop where
  await : M.hl.await = L.hl.await ++ [⟨h.part, h.tag, op, allLanes, [(L.me, code, id)], none, 0, false⟩]
  queue : M.hl.relayQ.length = L.hl.relayQ.length + 1
  response : M.hl.resp = L.hl.resp
  tag : ⟨h.part, h.tag, op, h.route⟩ ∈ M.hl.tags

/-- The fields that the acceptance of an order frame may change (R589): what HL_PART_STAT shows, TS, and the power state IDLE. -/
abbrev orderFlds (h : OrderHdr) : List Fld := [Reg.PM_STAT_STATE, Reg.HL_PART_STAT_OPS h.part, Reg.HL_PART_STAT_OUT h.part]

/-- Every lane's memory is in canonical form. -/
def State.MemoryWf (s : State) : Prop := ∀ x, Memory.wf (s.memOf x) = true

end Sys2Proof.Machine
end

