-- ==== Sys2Proof/WellFormed.lean ====
section
/-! DEFINITION. Which commands are well formed: the operands that spec/ gives a command its meaning for. The lane a command acts in. -/

namespace Sys2Proof

/-- Whether a frame is one of the order with an operation code: its OP field says so, or names no order of Table 14.5 (R588), or there is none. -/
def frameIs (op : Nat) (via : FrameVia) (syms : List Sym) : Bool :=
  match (syms.drop (if via.route.val = 0 then 1 else 0)).head? with
  | some (.data b) =>
    let c := b.toNat % 128
    c = op || c = 0 || c = 15 || decide (19 < c)
  | _ => true

/-- The lane a command acts in: every row names one. -/
def Instr.lane : Instr → LaneId
  | .powerOnResetRelease x _ => x
  | .supplyLoss x => x
  | .resetPin x _ _ => x
  | .supplyThresholdCrossing x _ => x
  | .crystalFailure x => x
  | .crystalRecovery x => x
  | .bootComplete x => x
  | .bootFailure x _ => x
  | .watchStart x _ _ => x
  | .watchOverrun x => x
  | .outerTick x => x
  | .formationPublish x => x
  | .unresolvedTimeout x => x
  | .startTestPendingReport x => x
  | .boostUpdate x => x
  | .aliveLineEdge x _ => x
  | .aliveLineTimeout x _ => x
  | .sailingDeparture x => x
  | .latchPoint x => x
  | .sailingJudgement x => x
  | .landing x => x
  | .relayLost x => x
  | .frameHeadArrival x _ _ _ => x
  | .berthPassage x _ _ _ _ => x
  | .tailSend x => x
  | .reliefInstant x => x
  | .ferryLinkDown x _ => x
  | .ferryLinkUp x _ => x
  | .launchTimeout x _ => x
  | .launchFrameReceived x _ _ => x
  | .xfCommit x _ => x
  | .vfCommit x _ => x
  | .xfEnable x _ => x
  | .vfEnable x _ => x
  | .vehicleDeparture x => x
  | .vehiclePassArrival x _ _ => x
  | .loadingPassReturn x _ => x
  | .nonFerryFrame x _ _ _ _ => x
  | .frameSendRequest x _ _ => x
  | .heldFrameSend x _ => x
  | .ferryPassDelayed x _ => x
  | .portLinkChange x _ _ _ _ => x
  | .samplingInstant x _ _ _ => x
  | .sampleSetReady x _ => x
  | .triggerFiring x _ => x
  | .leNop x _ => x
  | .leClr x _ => x
  | .leLda x _ => x
  | .leMac x _ => x
  | .leMacr x _ => x
  | .leSta x _ => x
  | .leMov x _ => x
  | .leLdc x _ => x
  | .leAdd x _ => x
  | .leMul x _ => x
  | .leSat x _ => x
  | .leSel x _ => x
  | .leSkp x _ => x
  | .leC22 x _ => x
  | .leC33 x _ => x
  | .leNtc x _ => x
  | .leClk x _ => x
  | .lePrk x _ => x
  | .leIpk x _ => x
  | .leScs x _ => x
  | .leSvm x _ => x
  | .leRcp x _ => x
  | .leSqr x _ => x
  | .leOut x _ => x
  | .leWait x _ => x
  | .waitEventComplete x => x
  | .waitTimeout x => x
  | .leEnd x _ => x
  | .deadlineMiss x _ => x
  | .paceMeasurement x _ => x
  | .leFireFire x _ => x
  | .leFireEvt x => x
  | .triggerEnable x _ _ => x
  | .scanEnd x _ => x
  | .programSwap x _ => x
  | .programWordWrite x _ _ _ => x
  | .signalWordWrite x _ _ => x
  | .coeffWordWrite x _ _ => x
  | .cswapRequest x _ => x
  | .cswapIdleApply x => x
  | .cswapAtRequest x _ => x
  | .swapCopyEnd x => x
  | .holdSchedule x _ => x
  | .carrierWrite x _ => x
  | .brReqOff x _ => x
  | .brReqCatch x _ => x
  | .brReqDirect x _ => x
  | .catchTimeout x _ => x
  | .zeroEnd x _ => x
  | .lockedRotor x _ => x
  | .amCal x => x
  | .amCalEnd x => x
  | .hallEdge x _ _ => x
  | .observerLoss x _ => x
  | .standstill x _ => x
  | .hallSetLost x _ => x
  | .encoderStep x _ => x
  | .encoderEnable x _ _ => x
  | .encoderDisable x _ _ => x
  | .encoderDrained x _ => x
  | .sentFrame x _ _ => x
  | .sentTimeout x _ => x
  | .analogConversion x _ _ => x
  | .switchInputEdge x _ _ _ _ => x
  | .deadTimeEnd x _ _ _ => x
  | .profilePhaseEnd x _ _ _ => x
  | .dieLinkLoss x => x
  | .bootstrapUndervoltage x _ _ => x
  | .gateSupplyUndervoltage x => x
  | .gateSupplyRecovery x => x
  | .desatDetection x _ _ _ => x
  | .hardShortDetection x _ _ => x
  | .shortSequenceStage x _ => x
  | .shortSequenceEnd x _ => x
  | .enLow x _ => x
  | .enRise x => x
  | .torqueOffLine x => x
  | .profileWrite x _ _ _ => x
  | .directWrite x _ _ => x
  | .commitGateTransaction x _ _ => x
  | .partnerTimeout x _ _ => x
  | .pairRestartEnd x => x
  | .coreInternalFault x _ => x
  | .wfi x => x
  | .splitRequest x _ => x
  | .rejoinRequest x => x
  | .drainTimeout x => x
  | .debugHalt x _ => x
  | .debugResume x _ => x
  | .debugSingleStep x _ => x
  | .tsEvent x _ => x
  | .signal x _ _ => x
  | .flagClear x _ _ => x
  | .dispatchRead x _ => x
  | .dispatchAck x _ => x
  | .tsYield x _ => x
  | .tsYieldEnd x _ => x
  | .taskEnable x _ => x
  | .taskDisable x _ => x
  | .taskRestart x _ => x
  | .queuePush x _ _ _ => x
  | .queuePushTimeout x _ => x
  | .queueSpacePush x _ => x
  | .queuePop x _ => x
  | .flowAdmit x _ _ => x
  | .flowDone x _ _ => x
  | .flowRelease x _ => x
  | .ixRenewal x _ => x
  | .ixGrant x _ => x
  | .weightWrite x _ _ => x
  | .syncReceived x _ _ _ => x
  | .followUpReceived x _ _ => x
  | .followUpTimeout x _ => x
  | .announceReceived x _ _ _ _ => x
  | .pdelayMessage x _ _ => x
  | .pdelayReqTimer x _ => x
  | .syncDeparture x _ _ _ => x
  | .receiptTimeout x _ => x
  | .slewComplete x => x
  | .revertQualified x => x
  | .comparatorFire x _ => x
  | .snapshot x => x
  | .timeLoRead x _ _ => x
  | .resync x => x
  | .deputyHallEdge x _ _ => x
  | .deputySpeedTimeout x _ => x
  | .smCmdStop x => x
  | .smCmdToff x => x
  | .smCmdRelease x => x
  | .smCmdAbort x => x
  | .stopGraceExpiry x => x
  | .stopHoldExpiry x => x
  | .siSample x _ => x
  | .siFilterChange x _ => x
  | .testPulseStart x _ => x
  | .testPulseEnd x _ => x
  | .siFaultClear x _ => x
  | .sxSend x _ => x
  | .sxUnitReceived x _ _ => x
  | .sxExpiry x _ => x
  | .fmForce x _ _ => x
  | .fmStatusClear x _ _ => x
  | .fmNmtAck x => x
  | .fmBallPrel x => x
  | .errpHoldExpiry x => x
  | .quietPeriodEnd x _ => x
  | .laneResetReaction x => x
  | .modeRequest x _ => x
  | .precedenceWrite x _ => x
  | .importWrite x _ _ => x
  | .commandLinkSyncLoss x => x
  | .commandLinkUp x _ => x
  | .ordPing x _ _ => x
  | .ordRead x _ _ => x
  | .ordWrite x _ _ => x
  | .ordMode x _ _ => x
  | .ordToff x _ _ => x
  | .ordStop x _ _ => x
  | .ordRelease x _ _ => x
  | .ordOneway x _ _ => x
  | .ordAbort x _ _ => x
  | .ordRamp x _ _ => x
  | .ordMotionSelect x _ _ => x
  | .ordSubscribe x _ _ => x
  | .ordFaultClear x _ _ => x
  | .ordPower x _ _ => x
  | .ordScriptLoad x _ _ => x
  | .ordScriptRun x _ _ => x
  | .ordRecord x _ _ => x
  | .ordBist x _ _ => x
  | .responseSend x _ => x
  | .reportSend x _ => x
  | .scrOrder x => x
  | .scrWaitTime x => x
  | .scrWaitTimeEnd x => x
  | .scrWaitOp x => x
  | .scrWaitOpEnd x => x
  | .scrSkip x => x
  | .scrCommit x => x
  | .scrEnd x => x
  | .pmReqGo x _ => x
  | .entryAbortPoint x => x
  | .domainSwitchOff x => x
  | .wake x _ => x
  | .wakeTimer x => x
  | .exitComplete x => x
  | .padRelease x => x
  | .tmSample x _ => x
  | .nvWindowOpen x => x
  | .recordWriteRequest x _ => x
  | .recordWriteAbort x _ => x
  | .recordWriteCommit x _ => x
  | .canarySlice x => x
  | .canarySliceEnd x _ => x
  | .bistEnd x => x
  | .lbistRequest x => x
  | .lbistEnd x => x
  | .fuseBurn x => x
  | .fuseBurnEnd x => x
  | .registerWrite x _ _ => x
  | .bootstrapRecovery x _ _ => x
  | .commandLinkInSync x => x
  | .canFdErrorStateChange x _ => x
  | .throttlePauseEnd x => x
  | .limitedRateRelease x _ => x
  | .phyResetRelease x => x
  | .debugSessionChange x _ => x

/-- A frame of the vehicle ferry as a port takes one: its header is whole, and it is no longer than the wire allows (R450, R451). -/
def VFrame.ok (f : VFrame) : Bool := decide (28 ≤ f.bytes.length) && decide (f.bytes.length ≤ 1514)

/-- The registers whose reads reach the gate's input log (Table 8.1). -/
def asyncCsrs : List (BitVec 12) := [0xC00, 0xC80, 0xB00, 0xB80, 0xC01, 0xC81, 0xFC0]

/-- A transaction at the gate whose size is 1, 2 or 4 bytes at an aligned address, as a core presents it (R361, R364), with reads of the
registers of Table 8.1 and of mhartid alone. -/
def CoreTxn.ok (t : CoreTxn) : Bool :=
  (t.size = 1 || t.size = 2 || t.size = 4) && decide (t.addr.toNat % t.size = 0) &&
  t.csrReads.all fun r => asyncCsrs.contains r.csr || r.csr = 0xF14

/-- A crossbar request of one to eight beats, with its words where it writes (R424). -/
def IxReq.ok (q : IxReq) : Bool := decide (1 ≤ q.beats) && (!q.write || decide (q.data.length ≤ 2 * q.beats))

/-- Well-formed commands: between the operands of a command, what spec/ presupposes holds. -/
def Instr.wellFormed : Instr → Bool
  | .powerOnResetRelease _ _ => true
  | .supplyLoss _ => true
  | .resetPin _ _ _ => true
  | .supplyThresholdCrossing _ _ => true
  | .crystalFailure _ => true
  | .crystalRecovery _ => true
  | .bootComplete _ => true
  | .bootFailure _ _ => true
  | .watchStart _ _ _ => true
  | .watchOverrun _ => true
  | .outerTick _ => true
  | .formationPublish _ => true
  | .unresolvedTimeout _ => true
  | .startTestPendingReport _ => true
  | .boostUpdate _ => true
  | .aliveLineEdge x y => x ≠ y
  | .aliveLineTimeout x y => x ≠ y
  | .sailingDeparture _ => true
  | .latchPoint _ => true
  | .sailingJudgement _ => true
  | .landing _ => true
  | .relayLost _ => true
  | .frameHeadArrival _ _ _ _ => true
  | .berthPassage x o _ t f => !(t.tail && decide (o = x)) && f.all fun e => decide (e.2 ≠ 0)
  | .tailSend _ => true
  | .reliefInstant _ => true
  | .ferryLinkDown x y => x ≠ y
  | .ferryLinkUp x y => x ≠ y
  | .launchTimeout _ _ => true
  | .launchFrameReceived _ f n =>
    (match f, n with
     | .lane, .ring _ _ _ => true
     | .vehicle, .wire g => g.ok
     | _, _ => false)
  | .xfCommit _ _ => true
  | .vfCommit _ _ => true
  | .xfEnable _ v => v.getLsbD 0
  | .vfEnable _ v => v.getLsbD 30
  | .vehicleDeparture _ => true
  | .vehiclePassArrival _ f _ => f.ok
  | .loadingPassReturn _ f => f.ok
  | .nonFerryFrame _ _ e d bs => decide (e < 2 ^ 16) && decide (d < 2 ^ 48) && decide (bs.bytes.length ≤ 1514)
  | .frameSendRequest _ _ _ => true
  | .heldFrameSend _ _ => true
  | .ferryPassDelayed _ _ => true
  | .portLinkChange _ _ _ _ m => m = 10 || m = 100 || m = 1000
  | .samplingInstant _ _ c0 c1 => decide (c0.length = 4) && decide (c1.length = 4)
  | .sampleSetReady _ _ => true
  | .triggerFiring _ _ => true
  | .leNop _ _ => true
  | .leClr _ _ => true
  | .leLda _ _ => true
  | .leMac _ _ => true
  | .leMacr _ _ => true
  | .leSta _ _ => true
  | .leMov _ _ => true
  | .leLdc _ _ => true
  | .leAdd _ _ => true
  | .leMul _ _ => true
  | .leSat _ _ => true
  | .leSel _ _ => true
  | .leSkp _ _ => true
  | .leC22 _ _ => true
  | .leC33 _ _ => true
  | .leNtc _ _ => true
  | .leClk _ _ => true
  | .lePrk _ _ => true
  | .leIpk _ _ => true
  | .leScs _ _ => true
  | .leSvm _ _ => true
  | .leRcp _ _ => true
  | .leSqr _ _ => true
  | .leOut _ _ => true
  | .leWait _ _ => true
  | .waitEventComplete _ => true
  | .waitTimeout _ => true
  | .leEnd _ _ => true
  | .deadlineMiss _ _ => true
  | .paceMeasurement _ _ => true
  | .leFireFire _ _ => true
  | .leFireEvt _ => true
  | .triggerEnable _ _ _ => true
  | .scanEnd _ _ => true
  | .programSwap _ _ => true
  | .programWordWrite _ _ _ _ => true
  | .signalWordWrite _ _ _ => true
  | .coeffWordWrite _ _ _ => true
  | .cswapRequest _ _ => true
  | .cswapIdleApply _ => true
  | .cswapAtRequest _ _ => true
  | .swapCopyEnd _ => true
  | .holdSchedule _ _ => true
  | .carrierWrite _ _ => true
  | .brReqOff _ _ => true
  | .brReqCatch _ _ => true
  | .brReqDirect _ _ => true
  | .catchTimeout _ _ => true
  | .zeroEnd _ _ => true
  | .lockedRotor _ _ => true
  | .amCal _ => true
  | .amCalEnd _ => true
  | .hallEdge _ _ lines => decide (1 ≤ lines.held)
  | .observerLoss _ _ => true
  | .standstill _ _ => true
  | .hallSetLost _ _ => true
  | .encoderStep _ _ => true
  | .encoderEnable _ _ _ => true
  | .encoderDisable _ _ _ => true
  | .encoderDrained _ _ => true
  | .sentFrame _ _ _ => true
  | .sentTimeout _ _ => true
  | .analogConversion _ _ _ => true
  | .switchInputEdge _ _ _ _ _ => true
  | .deadTimeEnd _ _ _ _ => true
  | .profilePhaseEnd _ _ _ _ => true
  | .dieLinkLoss _ => true
  | .bootstrapUndervoltage _ _ _ => true
  | .gateSupplyUndervoltage _ => true
  | .gateSupplyRecovery _ => true
  | .desatDetection _ _ _ _ => true
  | .hardShortDetection _ _ _ => true
  | .shortSequenceStage _ _ => true
  | .shortSequenceEnd _ _ => true
  | .enLow _ _ => true
  | .enRise _ => true
  | .torqueOffLine _ => true
  | .profileWrite _ _ _ _ => true
  | .directWrite _ _ _ => true
  | .commitGateTransaction _ a b => a.ok && b.ok
  | .partnerTimeout _ _ _ => true
  | .pairRestartEnd _ => true
  | .coreInternalFault _ _ => true
  | .wfi _ => true
  | .splitRequest _ _ => true
  | .rejoinRequest _ => true
  | .drainTimeout _ => true
  | .debugHalt _ _ => true
  | .debugResume _ _ => true
  | .debugSingleStep _ _ => true
  | .tsEvent _ _ => true
  | .signal _ _ _ => true
  | .flagClear _ _ _ => true
  | .dispatchRead _ _ => true
  | .dispatchAck _ _ => true
  | .tsYield _ _ => true
  | .tsYieldEnd _ _ => true
  | .taskEnable _ _ => true
  | .taskDisable _ _ => true
  | .taskRestart _ _ => true
  | .queuePush _ _ _ _ => true
  | .queuePushTimeout _ _ => true
  | .queueSpacePush _ _ => true
  | .queuePop _ _ => true
  | .flowAdmit _ _ _ => true
  | .flowDone _ _ _ => true
  | .flowRelease _ _ => true
  | .ixRenewal _ l => l.all fun e => decide (e.1 < 4) && decide (e.2 < 11)
  | .ixGrant _ qs => qs.all IxReq.ok
  | .weightWrite _ _ _ => true
  | .syncReceived _ _ _ _ => true
  | .followUpReceived _ _ _ => true
  | .followUpTimeout _ _ => true
  | .announceReceived _ _ _ _ _ => true
  | .pdelayMessage _ _ _ => true
  | .pdelayReqTimer _ _ => true
  | .syncDeparture _ _ _ _ => true
  | .receiptTimeout _ _ => true
  | .slewComplete _ => true
  | .revertQualified _ => true
  | .comparatorFire _ _ => true
  | .snapshot _ => true
  | .timeLoRead _ _ _ => true
  | .resync _ => true
  | .deputyHallEdge _ _ lines => decide (1 ≤ lines.held)
  | .deputySpeedTimeout _ _ => true
  | .smCmdStop _ => true
  | .smCmdToff _ => true
  | .smCmdRelease _ => true
  | .smCmdAbort _ => true
  | .stopGraceExpiry _ => true
  | .stopHoldExpiry _ => true
  | .siSample _ _ => true
  | .siFilterChange _ _ => true
  | .testPulseStart _ _ => true
  | .testPulseEnd _ _ => true
  | .siFaultClear _ _ => true
  | .sxSend _ _ => true
  | .sxUnitReceived _ _ u => decide (u.length ≤ 128)
  | .sxExpiry _ _ => true
  | .fmForce _ _ _ => true
  | .fmStatusClear _ _ _ => true
  | .fmNmtAck _ => true
  | .fmBallPrel _ => true
  | .errpHoldExpiry _ => true
  | .quietPeriodEnd _ _ => true
  | .laneResetReaction _ => true
  | .modeRequest _ _ => true
  | .precedenceWrite _ _ => true
  | .importWrite _ _ _ => true
  | .commandLinkSyncLoss _ => true
  | .commandLinkUp _ _ => true
  | .ordPing _ via syms => frameIs 0x01 via syms
  | .ordRead _ via syms => frameIs 0x02 via syms
  | .ordWrite _ via syms => frameIs 0x03 via syms
  | .ordMode _ via syms => frameIs 0x04 via syms
  | .ordToff _ via syms => frameIs 0x05 via syms
  | .ordStop _ via syms => frameIs 0x06 via syms
  | .ordRelease _ via syms => frameIs 0x07 via syms
  | .ordOneway _ via syms => frameIs 0x08 via syms
  | .ordAbort _ via syms => frameIs 0x09 via syms
  | .ordRamp _ via syms => frameIs 0x0A via syms
  | .ordMotionSelect _ via syms => frameIs 0x0B via syms
  | .ordSubscribe _ via syms => frameIs 0x0C via syms
  | .ordFaultClear _ via syms => frameIs 0x0D via syms
  | .ordPower _ via syms => frameIs 0x0E via syms
  | .ordScriptLoad _ via syms => frameIs 0x10 via syms
  | .ordScriptRun _ via syms => frameIs 0x11 via syms
  | .ordRecord _ via syms => frameIs 0x12 via syms
  | .ordBist _ via syms => frameIs 0x13 via syms
  | .responseSend _ _ => true
  | .reportSend _ _ => true
  | .scrOrder _ => true
  | .scrWaitTime _ => true
  | .scrWaitTimeEnd _ => true
  | .scrWaitOp _ => true
  | .scrWaitOpEnd _ => true
  | .scrSkip _ => true
  | .scrCommit _ => true
  | .scrEnd _ => true
  | .pmReqGo _ _ => true
  | .entryAbortPoint _ => true
  | .domainSwitchOff _ => true
  | .wake _ _ => true
  | .wakeTimer _ => true
  | .exitComplete _ => true
  | .padRelease _ => true
  | .tmSample _ cs => decide (cs.length = 8)
  | .nvWindowOpen _ => true
  | .recordWriteRequest _ _ => true
  | .recordWriteAbort _ _ => true
  | .recordWriteCommit _ _ => true
  | .canarySlice _ => true
  | .canarySliceEnd _ _ => true
  | .bistEnd _ => true
  | .lbistRequest _ => true
  | .lbistEnd _ => true
  | .fuseBurn _ => true
  | .fuseBurnEnd _ => true
  | .registerWrite _ _ _ => true
  | .bootstrapRecovery _ _ _ => true
  | .commandLinkInSync _ => true
  | .canFdErrorStateChange _ _ => true
  | .throttlePauseEnd _ => true
  | .limitedRateRelease _ _ => true
  | .phyResetRelease _ => true
  | .debugSessionChange _ _ => true

/-- A well-formed command. -/
abbrev WellFormed (i : Instr) : Prop := i.wellFormed = true

end Sys2Proof
end

