-- ==== Sys2Proof/Certificates/Slice0/Obligations.lean ====
section
/-! DEFINITION. The statements for the provers. A statement about a command says that `exec` answers a next state, what that state
holds, and what it leaves as it was: `OnlyLane` and `OnlyLaneMem` bound the effect to the lane (and its memory), `Touches` to parts
of the lane and to registers. A timed command acts at the LOCAL tick it is due (`State.reach`). -/

open Sys2Proof Sys2Proof.Machine

/-! ### The machine -/

/-- A step takes the command at the front of the queue and answers `exec` of it on the state with the queue's rest. -/
def Obligations.StepRunsTheFrontCommand : Prop :=
  ∀ (c : Instr) (rest : List Instr) (s : State), s.pending = c :: rest → step s = exec c { s with pending := rest }

/-- With an empty queue the module's clock moves on by one tick (log entry 10), and nothing else changes. -/
def Obligations.IdleStepIsOneTick : Prop :=
  ∀ s : State, s.pending = [] → ∃ t, step s = .next t ∧ t.pending = [] ∧ t.mem = s.mem ∧ t.net = s.net ∧
    ∀ x, (t.lane x).regs = (s.lane x).regs ∧
      (t.lane x).now = if (s.lane x).run = .unpowered ∨ (s.lane x).run = .off then (s.lane x).now else ((s.lane x).now + 1) % 2 ^ 64

/-- After reset every lane is released from power-on reset and in BOOT, with its identity sampled and matching (R90, R91), every mode
register 0, no memory listed, no command waiting and no sailing under way. Reset memory is in canonical form in every lane. -/
def Obligations.ResetLeavesEveryLaneInBoot : Prop :=
  State.reset.pending = [] ∧ State.reset.net.frames = [] ∧
  (∀ x, (State.reset.lane x).me = x ∧ (State.reset.lane x).run = .on ∧ (State.reset.lane x).mode = 0 ∧
    (State.reset.lane x).bit Reg.SYS_LANE_ID_MATCH = true ∧ (State.reset.lane x).get Reg.SYS_LANE_ID_STRAP = laneNum x ∧
    State.reset.memOf x = []) ∧
  State.reset.MemoryWf

/-- Every step keeps every lane's memory in canonical form: addresses rising, no byte listed that equals what an unlisted address
reads as. -/
def Obligations.EveryStepKeepsMemoryCanonical : Prop :=
  ∀ s t : State, s.MemoryWf → step s = .next t → t.MemoryWf

/-- No command stops the machine: every command, in every state, answers a next state, and takes nothing from the queue. -/
def Obligations.NoCommandStopsTheMachine : Prop :=
  ∀ (c : Instr) (s : State), ∃ t, exec c s = .next t ∧ t.pending = s.pending

/-- Isolation (R1, R5): a command that acts in lane `x` changes another lane by the passing of time alone, and no other lane's
memory. -/
def Obligations.ACommandChangesOtherLanesByTimeAlone : Prop :=
  ∀ (c : Instr) (s t : State), exec c s = .next t →
    ∃ d, ∀ y, y ≠ c.lane → t.lane y = (s.lane y).advance d ∧ t.memOf y = s.memOf y

/-- Isolation of information: but for WATCH_START, whose guards read the other lanes (log entry 29), what a command does in lane `x` depends
on that lane, its memory and the ring alone. -/
def Obligations.ACommandReadsItsOwnLaneAndTheRing : Prop :=
  ∀ (c : Instr) (s s' t : State), (∀ x k d, c ≠ .watchStart x k d) →
    s.lane c.lane = s'.lane c.lane → s.memOf c.lane = s'.memOf c.lane → s.net = s'.net → exec c s = .next t →
    ∃ t', exec c s' = .next t' ∧ t'.lane c.lane = t.lane c.lane ∧ t'.memOf c.lane = t.memOf c.lane ∧ t'.net = t.net

/-! ### Supply, reset, BOOT and the watch (02_modes.md, 16_pins_electrical.md) -/

/-- POWER_ON_RESET_RELEASE and SUPPLY_LOSS (R679, R90): a lane without supply starts BOOT with its straps sampled and LOCAL at 0, with its SRAM
and its retention SRAM reading 0, the rest of its memory and its records kept; a lane that loses its supply stops, its switch inputs withdrawn and
its bridges OFF. -/
def Obligations.SupplyStartsAndStopsALane : Prop :=
  (∀ (x : LaneId) (strap : BitVec 2) (s : State), (s.lane x).run = .unpowered →
    ∃ t, exec (.powerOnResetRelease x strap) s = .next t ∧ OnlyLaneMem x s t ∧ (t.lane x).run = .on ∧ (t.lane x).mode = 0 ∧
      (t.lane x).now = 0 ∧ (t.lane x).get Reg.SYS_LANE_ID_STRAP = strap.toNat ∧ (t.lane x).pm.pads = [] ∧
      (t.lane x).rs.store = (s.lane x).rs.store ∧
      (∀ a, (0x20000000 ≤ a ∧ a ≤ 0x207FFFFF) ∨ (0x2F000000 ≤ a ∧ a ≤ 0x2F00FFFF) → (t.memOf x).byte a = 0) ∧
      ∀ a, ¬ (0x20000000 ≤ a ∧ a ≤ 0x207FFFFF) → ¬ (0x2F000000 ≤ a ∧ a ≤ 0x2F00FFFF) → (t.memOf x).byte a = (s.memOf x).byte a) ∧
  (∀ (x : LaneId) (s : State),
    ∃ t, exec (.supplyLoss x) s = .next t ∧ OnlyLane x s t ∧ (t.lane x).run = .unpowered ∧
      (∀ b, b < 2 → (t.lane x).get (Reg.FC_BR_STAT_STATE b) = 0 ∧ (t.lane x).get (Reg.FC_BR_STAT_DRIVE_OK b) = 0 ∧
        (t.lane x).get (Reg.XF_SHARE_OUT_SHARE b) = 0) ∧
      (∀ k, k < 12 → ((t.lane x).sw k).inp = false) ∧
      Touches (.run :: .pins :: .fm :: stopParts) stopRegs (s.lane x) (t.lane x))

/-- RESET_PIN (R676): a low of 1 µs or more, and a longer one than 200 ns where the free value says so, resets a lane that has supply: it is in
BOOT with its straps sampled (R90), its SRAM reads 0, the rest of its memory, its records and LOCAL are kept; a lane held in reset stays held, any
other runs. A low of 200 ns or less changes nothing, and one between the two that does not reset changes nothing but the free values.
CRYSTAL_FAILURE (R697) holds a lane that runs or sleeps in lane reset; CRYSTAL_RECOVERY ends that hold, unless a thermal shutdown holds the lane too
(R645). -/
def Obligations.ResetBallAndCrystal : Prop :=
  (∀ (x : LaneId) (ns : Nat) (strap : BitVec 2) (s : State), (s.lane x).run ≠ .unpowered → (s.lane x).run ≠ .off →
    (1000 ≤ ns ∨ (200 < ns ∧ (s.lane x).takeBit.1 = true)) →
    ∃ t, exec (.resetPin x ns strap) s = .next t ∧ OnlyLaneMem x s t ∧
      (t.lane x).run = (if (s.lane x).run = .held then .held else .on) ∧ (t.lane x).mode = 0 ∧ (t.lane x).now = (s.lane x).now ∧
      (t.lane x).get Reg.SYS_LANE_ID_STRAP = strap.toNat ∧ (t.lane x).rs.store = (s.lane x).rs.store ∧
      ∀ a, (t.memOf x).byte a = if 0x20000000 ≤ a ∧ a ≤ 0x207FFFFF then 0 else (s.memOf x).byte a) ∧
  (∀ (x : LaneId) (ns : Nat) (strap : BitVec 2) (s : State), ns ≤ 200 → exec (.resetPin x ns strap) s = .next s) ∧
  (∀ (x : LaneId) (ns : Nat) (strap : BitVec 2) (s : State), 200 < ns → ns < 1000 →
    ∃ t, exec (.resetPin x ns strap) s = .next t ∧ OnlyLaneMem x s t ∧
      ((s.lane x).takeBit.1 = false → t.mem = s.mem ∧ Touches [.free] noRegs (s.lane x) (t.lane x))) ∧
  (∀ (x : LaneId) (s : State), (s.lane x).run = .on ∨ (s.lane x).run = .sleep →
    ∃ t, exec (.crystalFailure x) s = .next t ∧ OnlyLaneMem x s t ∧ (t.lane x).run = .held ∧ (t.lane x).mode = 0 ∧
      (t.lane x).pins.crystal = false ∧ (t.lane x).now = (s.lane x).now ∧ (t.lane x).rs.store = (s.lane x).rs.store ∧
      ∀ a, (t.memOf x).byte a = if 0x20000000 ≤ a ∧ a ≤ 0x207FFFFF then 0 else (s.memOf x).byte a) ∧
  (∀ (x : LaneId) (s : State), (s.lane x).run = .held → (s.lane x).tm.hold = false → (s.lane x).pins.crystal = false →
    ∃ t, exec (.crystalRecovery x) s = .next t ∧ OnlyLaneMem x s t ∧ (t.lane x).run = .on ∧ (t.lane x).mode = 0 ∧
      (t.lane x).pins.crystal = true ∧ (t.lane x).now = (s.lane x).now ∧ (t.lane x).rs.store = (s.lane x).rs.store ∧
      ∀ a, (t.memOf x).byte a = if 0x20000000 ≤ a ∧ a ≤ 0x207FFFFF then 0 else (s.memOf x).byte a)

/-- BOOT_COMPLETE (Table 2.3 No. 2): where the identity matches, no self-test has failed, the images can be read and no macro needs more spares than
it has, the lane is in STARTUP at rejoin stage 2 with LE_CTRL.RUN set and the count of failed boots back at 0. BOOT_FAILURE (R113): the count rises by one and
the lane is in BOOT, after a lane reset while retries remain; with none left it stays there without one. LANE_RESET_REACTION (R560, R562): the lane
reset that waited for a departure, or that follows at once where the lane takes no part in a sailing. -/
def Obligations.BootEndsInStartupOrRetries : Prop :=
  (∀ (x : LaneId) (s : State), (s.lane x).up = true → (s.lane x).bootable = true → (s.lane x).noteHeld.bootReads.imagesOk = true →
    ((s.lane x).noteHeld.bootReads.bootLoad (s.memOf x)).st.exhausted = false →
    ∃ t, exec (.bootComplete x) s = .next t ∧ OnlyLane x s t ∧ (t.lane x).mode = 1 ∧ (t.lane x).bit Reg.LE_CTRL_RUN = true ∧
      (t.lane x).get Reg.XF_REJOIN_STAGE = 2 ∧ (t.lane x).bit Reg.XF_REJOIN_ACTIVE = true ∧ (t.lane x).md.bootFails = 0) ∧
  (∀ (x : LaneId) (cause : BootCause) (s : State), (s.lane x).up = true → (s.lane x).mode = 0 → (s.lane x).md.bootStop = false →
    ∃ t, exec (.bootFailure x cause) s = .next t ∧ OnlyLaneMem x s t ∧ (t.lane x).mode = 0 ∧
      (t.lane x).md.bootFails = (s.lane x).md.bootFails + 1 ∧
      ((s.lane x).get Reg.SYS_MODE_CFG_BOOT_RETRY ≤ (s.lane x).md.bootFails → t.mem = s.mem ∧ (t.lane x).md.bootStop = true) ∧
      ((s.lane x).md.bootFails < (s.lane x).get Reg.SYS_MODE_CFG_BOOT_RETRY → (t.lane x).run = .on ∧ (t.lane x).md.bootStop = false ∧
        ∀ a, 0x20000000 ≤ a → a ≤ 0x207FFFFF → (t.memOf x).byte a = 0)) ∧
  (∀ (x : LaneId) (s : State), (s.lane x).awake = true →
    ((s.lane x).md.resetReady = true ∨
      (s.lane x).md.resetNext = true ∧ ((s.lane x).run = .sleep ∨ ¬ ((s.lane x).xf.adopted = true ∧ (s.lane x).bit Reg.XF_CTRL_EN = true))) →
    ∃ t, exec (.laneResetReaction x) s = .next t ∧ OnlyLaneMem x s t ∧ (t.lane x).run = .on ∧ (t.lane x).mode = 0 ∧
      (t.lane x).md.resetReady = false ∧ (t.lane x).now = (s.lane x).now ∧ (t.lane x).rs.store = (s.lane x).rs.store ∧
      ∀ a, (t.memOf x).byte a = if 0x20000000 ≤ a ∧ a ≤ 0x207FFFFF then 0 else (s.memOf x).byte a)

/-- WATCH_START (R8, R85, R511): the next watch counts from this one, and the crack-detect loop and the deputy's self-check read as given.
WATCH_OVERRUN (R8) raises "watch overrun". UNRESOLVED_TIMEOUT (R108): a split that has lasted 100 ms is a recovery fault.
START_TEST_PENDING_REPORT (R128): the input states still missing are reported on every route in use that has room, and the next report falls a second
later. SUPPLY_THRESHOLD_CROSSING (R679, Table 15.15): VSUP as given; a fall below 6.0 V with the NV window shut raises "supply low", a rise above 58 V "supply
high", each with TS event 175; a crossing back occurs as that event and raises nothing; with the NV window open a fall below 6.0 V shuts it
(R649). PHY_RESET_RELEASE (R683): 10 ms after PHYCLK_x started, PHYRST_x_N rises. MODE_REQUEST (R111): with FW_SUPER set the request is taken: GO reads 1, TARGET as given, and it waits for the next watch of a lane that is command
lane with no change pending, or stands last in the relay queue of another lane. Without FW_SUPER it is refused with AUTHORITY and GO reads 0. While
a request waits, only TARGET is written (log entry 154). No mode changes. -/
def Obligations.WatchThresholdsAndModeRequest : Prop :=
  (∀ (x : LaneId) (crack bad : Bool) (t0 : Nat) (s : State), (s.lane x).up = true →
    (s.lane x).md.watchAt = some t0 ∨ (s.lane x).md.watchAt = none ∧ t0 + 1000000 = (s.lane x).now →
    ∃ t, exec (.watchStart x crack bad) s = .next t ∧ OnlyLane x (s.reach x (t0 + 1000000)) t ∧
      (t.lane x).md.watchAt = some ((s.reach x (t0 + 1000000)).lane x).now ∧ (t.lane x).pins.crack = crack ∧
      (t.lane x).bit Reg.SM_STAT_INTFLT = bad) ∧
  (∀ (x : LaneId) (s : State), (s.lane x).up = true →
    ∃ t, exec (.watchOverrun x) s = .next t ∧ OnlyLane x s t ∧ Raised 9 (s.lane x) (t.lane x) ∧
      Touches (raiseParts 9) (raiseRegs 9) (s.lane x) (t.lane x)) ∧
  (∀ (x : LaneId) (t0 : Nat) (s : State), (s.lane x).up = true → (s.lane x).md.splitHeld = false → (s.lane x).xf.unresolvedAt = some t0 →
    ∃ t, exec (.unresolvedTimeout x) s = .next t ∧ OnlyLane x (s.reach x (t0 + 10000000)) t ∧ (t.lane x).md.splitHeld = true ∧
      (t.lane x).recoveryFault = some 7 ∧ Touches [.md, .fm] noRegs ((s.reach x (t0 + 10000000)).lane x) (t.lane x)) ∧
  (∀ (x : LaneId) (s : State), (s.lane x).up = true → (s.lane x).mode = 1 → (s.lane x).countGuard 1 = true →
    (∃ y, (s.lane x).qualified y = true ∧ (s.lane x).startDoneOf y = false) →
    ∃ t, exec (.startTestPendingReport x) s = .next t ∧
      OnlyLane x (s.reach x ((s.lane x).md.testReportAt + 100000000)) t ∧
      (t.lane x).md.testReportAt = ((s.reach x ((s.lane x).md.testReportAt + 100000000)).lane x).now ∧
      (∀ r, r < 3 → (s.lane x).routeUsed r = true → (spGet [] r (s.lane x).hl.reports).length < 32 →
        spGet [] r (t.lane x).hl.reports = spGet [] r (s.lane x).hl.reports ++
          [⟨reportHdr (laneNum (s.lane x).me) 0x02 1 (spGet 0 r (s.lane x).hl.rseq),
            [(s.lane x).get Reg.SYS_START_MASK - Nat.land ((s.lane x).get Reg.SYS_START_MASK)
              (Nat.land ((s.lane x).get Reg.SYS_START_SEEN_HIGH) ((s.lane x).get Reg.SYS_START_SEEN_LOW))]⟩]) ∧
      Touches [.md, .hl, .ts, .cp, .fm] (fields [0x4001] [Reg.PM_STAT_STATE, Reg.HL_CNT_RLOST_COUNT])
        ((s.reach x ((s.lane x).md.testReportAt + 100000000)).lane x) (t.lane x)) ∧
  (∀ (x : LaneId) (mv : Nat) (s : State), (s.lane x).awake = true → (s.lane x).nvOpen = false → mv < 6000 → 6000 ≤ (s.lane x).pins.vsup →
    (s.lane x).pins.vsup ≤ 58000 →
    ∃ t, exec (.supplyThresholdCrossing x mv) s = .next t ∧ OnlyLane x s t ∧ (t.lane x).pins.vsup = mv ∧ Raised 140 (s.lane x) (t.lane x) ∧
      Signalled 175 (s.lane x) (t.lane x) ∧ Touches (.pins :: .tm :: raiseParts 140) (raiseRegs 140) (s.lane x) (t.lane x)) ∧
  (∀ (x : LaneId) (mv : Nat) (s : State), (s.lane x).awake = true → 58000 < mv → 6000 ≤ (s.lane x).pins.vsup → (s.lane x).pins.vsup ≤ 58000 →
    ∃ t, exec (.supplyThresholdCrossing x mv) s = .next t ∧ OnlyLane x s t ∧ (t.lane x).pins.vsup = mv ∧ Raised 141 (s.lane x) (t.lane x) ∧
      Signalled 175 (s.lane x) (t.lane x) ∧ Touches (.pins :: raiseParts 141) (raiseRegs 141) (s.lane x) (t.lane x)) ∧
  (∀ (x : LaneId) (mv : Nat) (s : State), (s.lane x).awake = true → 6000 ≤ mv → mv ≤ 58000 →
    ∃ t, exec (.supplyThresholdCrossing x mv) s = .next t ∧ OnlyLane x s t ∧ (t.lane x).pins.vsup = mv ∧
      ((s.lane x).pins.vsup < 6000 ∨ 58000 < (s.lane x).pins.vsup → Signalled 175 (s.lane x) (t.lane x)) ∧
      Touches [.pins, .ts, .cp, .fm] tsRegs (s.lane x) (t.lane x)) ∧
  (∀ (x : LaneId) (mv : Nat) (s : State), (s.lane x).awake = true → mv < 6000 →
    ∃ t, exec (.supplyThresholdCrossing x mv) s = .next t ∧ OnlyLane x s t ∧ (t.lane x).pins.vsup = mv ∧ (t.lane x).nvOpen = false) ∧
  (∀ (x : LaneId) (t0 : Nat) (s : State), (s.lane x).awake = true → (s.lane x).pm.phyUp = false → (s.lane x).pm.phyClk = some t0 →
    ∃ t, exec (.phyResetRelease x) s = .next t ∧ OnlyLane x (s.reach x (t0 + 1000000)) t ∧ (t.lane x).pm.phyUp = true ∧
      Touches [.pm, .fm] noRegs ((s.reach x (t0 + 1000000)).lane x) (t.lane x)) ∧
  (∀ (x : LaneId) (target : Fin 8) (s : State), (s.lane x).up = true → (s.lane x).bit Reg.SYS_MODE_REQ_GO = false →
    (s.lane x).bit Reg.SYS_MODE_CFG_FW_SUPER = true → (s.lane x).isCommand = true → (s.lane x).changePending = false →
    ∃ t, exec (.modeRequest x target) s = .next t ∧ OnlyLane x s t ∧ (t.lane x).get Reg.SYS_MODE_REQ_TARGET = target ∧
      (t.lane x).get Reg.SYS_MODE_REQ_GO = 1 ∧ (t.lane x).md = { (s.lane x).md with reqs := (s.lane x).md.reqs ++ [⟨1, 0, target, .firmware⟩] } ∧
      Touches [.md, .fm] (fields [] [Reg.SYS_MODE_REQ_GO, Reg.SYS_MODE_REQ_TARGET]) (s.lane x) (t.lane x)) ∧
  (∀ (x c : LaneId) (target : Fin 8) (s : State), (s.lane x).up = true → (s.lane x).bit Reg.SYS_MODE_REQ_GO = false →
    (s.lane x).bit Reg.SYS_MODE_CFG_FW_SUPER = true → (s.lane x).isCommand = false → (s.lane x).commandLane = some c →
    (s.lane x).bit Reg.HL_ELEM_EN = true → (s.lane x).hl.relayQ.length < 16 →
    ∃ t, exec (.modeRequest x target) s = .next t ∧ OnlyLane x s t ∧ (t.lane x).get Reg.SYS_MODE_REQ_TARGET = target ∧
      (t.lane x).get Reg.SYS_MODE_REQ_GO = 1 ∧
      (t.lane x).hl.relayQ = (s.lane x).hl.relayQ ++
        [[relayWord false (s.lane x).me 0 0 (2 ^ laneNum c) true 0xFF, 0x04 * 2 ^ 24 + 1, target, 0, 0, 0, 0, 0]] ∧
      Touches [.md, .fm, .hl] (fields [] [Reg.SYS_MODE_REQ_GO, Reg.SYS_MODE_REQ_TARGET, Reg.HL_STAT_RELAYQ]) (s.lane x) (t.lane x)) ∧
  (∀ (x : LaneId) (target : Fin 8) (s : State), (s.lane x).up = true → (s.lane x).bit Reg.SYS_MODE_REQ_GO = false →
    (s.lane x).bit Reg.SYS_MODE_CFG_FW_SUPER = false →
    ∃ t, exec (.modeRequest x target) s = .next t ∧ OnlyLane x s t ∧ (t.lane x).get Reg.SYS_MODE_REQ_TARGET = target ∧
      (t.lane x).get Reg.SYS_MODE_REQ_RESULT = 2 ∧ (t.lane x).get Reg.SYS_MODE_REQ_GO = 0 ∧
      Touches [.md, .fm] (fields [] [Reg.SYS_MODE_REQ_GO, Reg.SYS_MODE_REQ_TARGET, Reg.SYS_MODE_REQ_RESULT, Reg.SYS_MODE_CNT_REFUSED])
        (s.lane x) (t.lane x)) ∧
  (∀ (x : LaneId) (target : Fin 8) (s : State), (s.lane x).up = true → (s.lane x).bit Reg.SYS_MODE_REQ_GO = true →
    ∃ t, exec (.modeRequest x target) s = .next t ∧ OnlyLane x s t ∧ (t.lane x).get Reg.SYS_MODE_REQ_TARGET = target ∧
      Touches [.fm] (fields [] [Reg.SYS_MODE_REQ_TARGET]) (s.lane x) (t.lane x))

/-! ### Outer ticks, sailings and the ring (01_triplex.md, 10_ferry.md) -/

/-- OUTER_TICK (R436, R24): the lane has passed the tick of the next cycle and its agreed set bears that cycle's number; a landing that is due at that
instant comes first (R439). FORMATION_PUBLISH (R119): the leader is to publish F with the coming sailing. BOOST_UPDATE (R68): the next
millisecond counts from this one, and a lane that is not the command lane changes nothing else but what it shows of the vote. ALIVE_LINE_EDGE (R60): an edge of another lane's line shows it alive for 75 µs; ALIVE_LINE_TIMEOUT: those 75 µs have passed. FERRY_LINK_DOWN
(R442): the lane declares the link from another lane down, which is counted and raised as source 96, and sends the link-down code on the other
direction; FERRY_LINK_UP: it declares it up again. The lane counts a link as up where both directions carry valid line code. -/
def Obligations.TicksFormationBoostAndLinks : Prop :=
  (∀ (x : LaneId) (T : Nat) (s : State), (s.lane x).up = true → (s.lane x).tickDue = some T →
    (∀ n, (s.lane x).xf.cur = some n → ((s.reach x T).lane x).ferry < (n + 1) * 2500) →
    ∃ t, exec (.outerTick x) s = .next t ∧ OnlyLane x (s.reach x T) t ∧ (t.lane x).xf.tick = some ((s.reach x T).lane x).nextTick ∧
      (t.lane x).xf.set.cycle = ((s.reach x T).lane x).nextTick % 2 ^ 32) ∧
  (∀ (x : LaneId) (T : Nat) (s : State), (s.lane x).up = true → (s.lane x).formationDue = some T →
    ∃ t, exec (.formationPublish x) s = .next t ∧ OnlyLane x (s.reach x T) t ∧ (t.lane x).xf.formPub = true ∧
      Touches [.xf, .fm] noRegs ((s.reach x T).lane x) (t.lane x)) ∧
  (∀ (x : LaneId) (s : State), (s.lane x).up = true →
    ∃ t, exec (.boostUpdate x) s = .next t ∧ OnlyLane x (s.reach x ((s.lane x).xf.boostAt + 100000)) t ∧
      (t.lane x).xf.boostAt = ((s.reach x ((s.lane x).xf.boostAt + 100000)).lane x).now ∧
      Touches [.xf, .fm] (fields [] (Reg.XF_BOOST_BUDGET0 :: Reg.XF_BOOST_BUDGET1 :: voteFlds))
        ((s.reach x ((s.lane x).xf.boostAt + 100000)).lane x) (t.lane x) ∧
      ((s.lane x).isCommand = false → (t.lane x).get Reg.XF_BOOST_BUDGET0 = (s.lane x).get Reg.XF_BOOST_BUDGET0 ∧
        (t.lane x).get Reg.XF_BOOST_BUDGET1 = (s.lane x).get Reg.XF_BOOST_BUDGET1)) ∧
  (∀ (x : LaneId) (T : Nat) (s : State), (s.lane x).up = true → (s.lane x).tickDue = some T →
    ∃ t k, exec (.outerTick x) s = .next t ∧ OnlyLaneMem x (s.reach x T) t ∧ (t.lane x).xf.tick = some k ∧ (t.lane x).xf.set.cycle = k % 2 ^ 32 ∧
      ((∃ n, (s.lane x).xf.cur = some n ∧ (n + 1) * 2500 ≤ ((s.reach x T).lane x).ferry) → (t.lane x).xf.cur = none)) ∧
  (∀ (x y : LaneId) (s : State), (s.lane x).up = true → x ≠ y →
    ∃ t, exec (.aliveLineEdge x y) s = .next t ∧ OnlyLane x s t ∧ ((t.lane x).peerOf y).toggled = some (s.lane x).now ∧
      ((t.lane x).peerOf y).aliveAt = some (s.lane x).now ∧ (t.lane x).bitOf Reg.XF_VSTAT_ALIVE_SET (laneNum y) = true ∧
      Touches [.xf, .fm] (fields [] voteFlds) (s.lane x) (t.lane x)) ∧
  (∀ (x y : LaneId) (t0 : Nat) (s : State), (s.lane x).up = true → ((s.lane x).peerOf y).aliveAt = some t0 →
    ∃ t, exec (.aliveLineTimeout x y) s = .next t ∧ OnlyLane x (s.reach x (t0 + 7500)) t ∧ ((t.lane x).peerOf y).aliveAt = none ∧
      Touches [.xf, .fm] (fields [] voteFlds) ((s.reach x (t0 + 7500)).lane x) (t.lane x)) ∧
  (∀ (x y : LaneId) (s : State), (s.lane x).up = true → x ≠ y → ((s.lane x).peerOf y).down = false →
    ∃ t, exec (.ferryLinkDown x y) s = .next t ∧
      OnlyLaneRing x s t { frames := s.net.frames, rx := s.net.rx.filter (· ≠ (x, y)) } ∧ ((t.lane x).peerOf y).down = true ∧
      (∀ z, z ∈ others (s.lane x).me → ((t.lane x).peerOf z).up = linkIn t.net.rx (s.lane x).me z) ∧
      (t.lane x).get Reg.XF_CNT_WRAP_COUNT = min ((s.lane x).get Reg.XF_CNT_WRAP_COUNT + 1) (2 ^ 32 - 1) ∧ Raised 96 (s.lane x) (t.lane x) ∧
      Touches (.xf :: raiseParts 96) (raiseAnd 96 [Reg.XF_CNT_WRAP_COUNT, Reg.XF_STAT_LINKS]) (s.lane x) (t.lane x)) ∧
  (∀ (x y : LaneId) (s : State), (s.lane x).up = true → x ≠ y →
    ∃ t, exec (.ferryLinkUp x y) s = .next t ∧ OnlyLaneRing x s t t.net ∧ t.net.frames = s.net.frames ∧
      (∀ z w, (z, w) ∈ t.net.rx ↔ (z, w) ∈ s.net.rx ∨ (z, w) = (x, y)) ∧ ((t.lane x).peerOf y).down = false ∧
      (∀ z, z ∈ others (s.lane x).me → ((t.lane x).peerOf z).up = linkIn t.net.rx (s.lane x).me z) ∧
      Touches [.xf, .ts, .cp, .fm] (fields [0x4001] [Reg.PM_STAT_STATE, Reg.XF_STAT_LINKS]) (s.lane x) (t.lane x))

/-- A sailing in one lane. LATCH_POINT (R460): the lane has latched its own berth of that sailing, on the ferry whose latch point comes first. SAILING_DEPARTURE (R433,
R440, R445): the frames of the sailing before have ended, and the sailing begins with nothing received; the harbour master that may originate has its
main frames on the ring, whichever other lane originates that sailing too. SAILING_JUDGEMENT (R706): the sailing is judged, in a lane that is not about to
leave isolation. LANDING (R437): no sailing is under way any more. -/
def Obligations.ASailingLatchesDepartsIsJudgedAndLands : Prop :=
  (∀ (x : LaneId) (n T : Nat) (s : State), (s.lane x).up = true → (s.lane x).latchDue = some (.lane, n, T) →
    ∃ t, exec (.latchPoint x) s = .next t ∧ OnlyLane x (s.reach x T) t ∧ (t.lane x).xf.latched = true ∧ (t.lane x).xf.next = n) ∧
  (∀ (x : LaneId) (n T : Nat) (s : State), (s.lane x).up = true → (s.lane x).latchDue = some (.vehicle, n, T) →
    ∃ t b, exec (.latchPoint x) s = .next t ∧ OnlyLane x (s.reach x T) t ∧ (t.lane x).vf.berth = some (n, b)) ∧
  (∀ (x : LaneId) (s : State), (s.lane x).up = true → (s.lane x).sails = true →
    ∃ t, exec (.sailingDeparture x) s = .next t ∧ t.pending = s.pending ∧
      (∀ y, y ≠ x → t.lane y = (s.reach x ((s.lane x).localOf ((s.lane x).departNext * 2500))).lane y ∧ t.memOf y = s.memOf y) ∧
      (t.lane x).xf.cur = some (s.lane x).departNext ∧
      (t.lane x).xf.next = (s.lane x).departNext + 1 ∧ (t.lane x).xf.latched = false ∧ (t.lane x).xf.judged = false ∧
      (t.lane x).bit Reg.XF_STAT_RELIEF = false ∧
      t.net = (if (t.lane x).harbourMaster = some x ∧ (t.lane x).mayOriginate = true then
          (t.lane x).sendMain (s.net.depart (s.lane x).departNext) (s.lane x).departNext false
        else s.net.depart (s.lane x).departNext) ∧
      ((t.lane x).harbourMaster = some x → (t.lane x).mayOriginate = true → ∀ p, p < 2 →
        ∃ f, f ∈ t.net.frames ∧ f.orig = (t.lane x).me ∧ f.kind = 1 ∧ f.path = p ∧ ringSailing f = (s.lane x).departNext % 2 ^ 32 ∧
          ringRelief f = false ∧ ringManifest f = (t.lane x).get Reg.XF_MAN_CRC_CRC ∧ ringCheckOk f = true)) ∧
  (∀ (x : LaneId) (n T : Nat) (s : State), (s.lane x).up = true → (s.lane x).judgeDue = some T → (s.lane x).xf.cur = some n →
    (s.lane x).bit Reg.XF_VSTAT_ISOLATED = false ∨ (s.lane x).xf.isoRun < 63 →
    ∃ t, exec (.sailingJudgement x) s = .next t ∧ OnlyLane x (s.reach x T) t ∧ (t.lane x).xf.judged = true) ∧
  (∀ (x : LaneId) (n : Nat) (s : State), (s.lane x).up = true → (s.lane x).sails = true → (s.lane x).xf.cur = some n →
    ∃ t, exec (.landing x) s = .next t ∧ OnlyLaneMem x (s.reach x ((s.lane x).localOf ((n + 1) * 2500))) t ∧ (t.lane x).xf.cur = none ∧
      (t.lane x).xf.landedAt = some (t.lane x).now)

/-- The frames of a sailing. FRAME_HEAD_ARRIVAL (R435, R452, R458): the lane has ferry time, a main frame's head has come on its path, and the manifest
either matches or does not; a frame whose HCHECK line errors spoil is discarded in the lane, and the errors stay in it. BERTH_PASSAGE (R441): the own berth
goes into a pass that the lane accepts; another lane's berth, as line errors leave it, is kept where its owner and check are right and it is the first copy of
the sailing. TAIL_SEND (R444): each tail carries the berth of the lane the other way round, where the originator holds it, and the lane changes nothing of itself. -/
def Obligations.FramesBerthsAndTails : Prop :=
  (∀ (x : LaneId) (path : Fin 2) (head : FrameHead) (err : Int) (g f : RingFrame) (s : State), (s.lane x).up = true →
    (s.lane x).frameHere s.net path head.id = some g → head.id.tail = false →
    f = ⟨g.orig, g.path, g.kind, g.place, g.rx, flipBytes (g.bytes.take 16) head.flips ++ g.bytes.drop 16⟩ → ringCheckOk f = true →
    ∃ t, exec (.frameHeadArrival x path head err) s = .next t ∧ t.pending = s.pending ∧ t.mem = s.mem ∧
      t.net = (if head.flips.isEmpty then s.net else s.net.put g f.bytes) ∧
      (∀ y, y ≠ x → t.lane y = if (s.lane x).xf.adopted then
        (s.reach x ((s.lane x).localAt (((s.lane x).headTime f : Nat) + err / 16))).lane y else s.lane y) ∧
      (t.lane x).xf.adopted = true ∧ (t.lane x).xf.head.contains (path.val, head.id.orig) = true ∧
      (t.lane x).xf.mismatch = decide (ringManifest f ≠ (s.lane x).get Reg.XF_MAN_CRC_CRC) ∧
      (ringManifest f = (s.lane x).get Reg.XF_MAN_CRC_CRC → (t.lane x).xf.matched.contains (path.val, head.id.orig) = true)) ∧
  (∀ (x : LaneId) (path : Fin 2) (head : FrameHead) (err : Int) (g f : RingFrame) (s : State), (s.lane x).up = true →
    (s.lane x).frameHere s.net path head.id = some g → head.id.tail = true →
    f = ⟨g.orig, g.path, g.kind, g.place, g.rx, flipBytes (g.bytes.take 16) head.flips ++ g.bytes.drop 16⟩ → ringCheckOk f = true →
    ∃ t, exec (.frameHeadArrival x path head err) s = .next t ∧ t.pending = s.pending ∧ t.mem = s.mem ∧
      t.net = (if head.flips.isEmpty then s.net else s.net.put g f.bytes) ∧
      (t.lane x).xf.adopted = true ∧ (ringManifest f ≠ (s.lane x).get Reg.XF_MAN_CRC_CRC → (t.lane x).xf.mismatch = true)) ∧
  (∀ (x : LaneId) (path : Fin 2) (frame : FrameId) (flips : List (Nat × Byte)) (f : RingFrame) (s : State), (s.lane x).up = true →
    (s.lane x).reads s.net path frame = some f → frame.tail = false → (s.lane x).writes f frame.back = true →
    ∃ t, exec (.berthPassage x x path frame flips) s = .next t ∧ OnlyLaneRing x s t ((s.lane x).putBerth s.net f x (s.lane x).xf.berth) ∧
      (t.lane x).xf.got.get x = some (s.lane x).xf.berth ∧ Touches [.xf, .fm] noRegs (s.lane x) (t.lane x)) ∧
  (∀ (x y : LaneId) (path : Fin 2) (frame : FrameId) (flips : List (Nat × Byte)) (f : RingFrame) (s : State), (s.lane x).up = true →
    (s.lane x).reads s.net path frame = some f → y ≠ x → (frame.tail = true → y ≠ frame.orig) →
    ∃ t, exec (.berthPassage x y path frame flips) s = .next t ∧
      OnlyLaneRing x s t (if flips.isEmpty then s.net else (s.lane x).putBerth s.net f y (flipBytes ((s.lane x).frameBytes f y) flips)) ∧
      (berthOwner (laneNum y) (flipBytes ((s.lane x).frameBytes f y) flips) = true →
        berthPasses ((s.lane x).sailingOf f) (flipBytes ((s.lane x).frameBytes f y) flips) = true → (s.lane x).xf.got.get y = none →
        (s.lane x).xf.cur = some ((s.lane x).sailingOf f) →
        (t.lane x).xf.got.get y = some (flipBytes ((s.lane x).frameBytes f y) flips))) ∧
  (∀ (x : LaneId) (n T : Nat) (s : State), (s.lane x).up = true → (s.lane x).sails = true → (s.lane x).xf.head.contains (0, x) = true →
    (s.lane x).xf.cur = some n → T = (s.lane x).localOf (n * 2500 + (s.lane x).xf.delay + 100 + 2 * (16 + 3 * (s.lane x).berthLen .lane 0)) →
    ∃ t, exec (.tailSend x) s = .next t ∧ OnlyLaneRing x (s.reach x T) t (s.net.send x [2] ((s.lane x).tails s.net n)) ∧
      (∀ b, (s.lane x).xf.got.get (prevLane (s.lane x).me) = some b →
        ∃ f, f ∈ t.net.frames ∧ f.orig = (s.lane x).me ∧ f.kind = 2 ∧ f.path = 0 ∧ ringSailing f = n % 2 ^ 32 ∧ f.bytes.drop 16 = b) ∧
      (∀ b, (s.lane x).xf.got.get (nextLane (s.lane x).me) = some b →
        ∃ f, f ∈ t.net.frames ∧ f.orig = (s.lane x).me ∧ f.kind = 2 ∧ f.path = 1 ∧ ringSailing f = n % 2 ^ 32 ∧ f.bytes.drop 16 = b) ∧
      Touches [.fm] noRegs ((s.reach x T).lane x) (t.lane x)) ∧
  (∀ (x : LaneId) (path : Fin 2) (head : FrameHead) (err : Int) (g f : RingFrame) (s : State), (s.lane x).up = true →
    (s.lane x).frameHere s.net path head.id = some g →
    f = ⟨g.orig, g.path, g.kind, g.place, g.rx, flipBytes (g.bytes.take 16) head.flips ++ g.bytes.drop 16⟩ → ringCheckOk f = false →
    ∃ t, exec (.frameHeadArrival x path head err) s = .next t ∧ t.pending = s.pending ∧ t.mem = s.mem ∧ t.lanes = s.lanes ∧
      t.net = if head.flips.isEmpty then s.net else s.net.put g f.bytes)

/-- RELIEF_INSTANT (R446 to R449): a lane that hears no head relieves the harbour master: counted, raised as source 97, its frames on the ring;
at the second relief in succession it becomes harbour master. LAUNCH_TIMEOUT (R473): a launch begins, its frames leave, and the next is held off; on the
vehicle ring its frame leaves by port 1. LAUNCH_FRAME_RECEIVED (R458, R474, R475): the return of the own launch makes the lane harbour master, sailing 0 of the lane
ferry departing 10 µs later; a lower-numbered launch prevails, holds the own one off, and is passed on; one with another manifest is counted and raised as
source 99 (113 on the vehicle ring); one that comes while sailings are seen ends. -/
def Obligations.ReliefAndLaunches : Prop :=
  (∀ (x : LaneId) (n T : Nat) (s : State), (s.lane x).up = true → (s.lane x).reliefDue = some T → (s.lane x).xf.cur = some n →
    ∃ t, exec (.reliefInstant x) s = .next t ∧ OnlyLaneRing x (s.reach x T) t ((t.lane x).sendMain s.net n true) ∧
      Raised 97 ((s.reach x T).lane x) (t.lane x) ∧
      (t.lane x).get Reg.XF_CNT_RELIEF_COUNT = min ((s.lane x).get Reg.XF_CNT_RELIEF_COUNT + 1) (2 ^ 32 - 1) ∧
      (t.lane x).bit Reg.XF_STAT_RELIEF = true ∧ (t.lane x).xf.relieved = some n ∧
      (∀ k, (s.lane x).xf.relieved = some k → k + 1 = n → (t.lane x).harbourMaster = some (s.lane x).me) ∧
      (t.lane x).xf.delay = ((s.reach x T).lane x).reliefDelay (s.lane x).me ∧
      Touches (.xf :: raiseParts 97) (raiseAnd 97 [Reg.XF_STAT_RELIEF, Reg.XF_CNT_RELIEF_COUNT, Reg.XF_STAT_HM])
        ((s.reach x T).lane x) (t.lane x) ∧
      ∀ p, p < 2 → ∃ f, f ∈ t.net.frames ∧ f.orig = (s.lane x).me ∧ f.kind = 1 ∧ f.path = p ∧ ringSailing f = n % 2 ^ 32 ∧ ringRelief f = true) ∧
  (∀ (x : LaneId) (T : Nat) (s : State), (s.lane x).up = true → (s.lane x).launchDue = some T →
    ∃ t, exec (.launchTimeout x .lane) s = .next t ∧ OnlyLaneRing x (s.reach x T) t ((s.lane x).sendLaunch s.net) ∧
      (t.lane x).bit Reg.XF_STAT_LAUNCHING = true ∧ (t.lane x).xf.hold = ((s.reach x T).lane x).now + 10000 ∧
      (∀ p, p < 2 → ∃ f, f ∈ t.net.frames ∧ f.orig = (s.lane x).me ∧ f.kind = 3 ∧ f.path = p ∧ f.place = (s.lane x).me ∧ f.bytes.length = 16) ∧
      Touches [.xf, .fm] (fields [] [Reg.XF_STAT_LAUNCHING]) ((s.reach x T).lane x) (t.lane x)) ∧
  (∀ (x : LaneId) (T : Nat) (s : State), (s.lane x).up = true → (s.lane x).vehLaunchDue = some T →
    ((s.reach x T).lane x).vf.busy.one ≤ ((s.reach x T).lane x).now → (s.lane x).vf.waiting.one = [] → (s.lane x).bit Reg.VF_STAT_LINK1 = true →
    ∃ t, exec (.launchTimeout x .vehicle) s = .next t ∧ OnlyLane x (s.reach x T) t ∧ (t.lane x).vf.launching = true ∧
      (t.lane x).vf.out = (s.lane x).vf.out ++ [⟨1, true, (s.lane x).ferryFrame 3 0 [], true⟩] ∧
      (t.lane x).vf.hold = ((s.reach x T).lane x).now + (s.lane x).get Reg.VF_CTRL_LTMO * (s.lane x).vehCyc * 12500 ∧
      (t.lane x).get Reg.VF_CNT_LAUNCH_COUNT = min ((s.lane x).get Reg.VF_CNT_LAUNCH_COUNT + 1) (2 ^ 32 - 1) ∧
      Touches [.vf, .fm] (fields [] [Reg.VF_CNT_LAUNCH_COUNT]) ((s.reach x T).lane x) (t.lane x)) ∧
  (∀ (x : LaneId) (path : Fin 2) (g : RingFrame) (s : State), (s.lane x).up = true → s.net.launchAt x (s.lane x).me path = some g →
    ringCheckOk g = true → (s.lane x).bit Reg.XF_CTRL_EN = true → (s.lane x).seesSailings = false →
    (s.lane x).bit Reg.XF_STAT_LAUNCHING = true →
    ∃ t, exec (.launchFrameReceived x .lane (.ring (s.lane x).me path [])) s = .next t ∧
      OnlyLaneRing x s t (s.net.moveLaunch g x g.bytes false) ∧ (t.lane x).harbourMaster = some (s.lane x).me ∧
      (t.lane x).xf.adopted = true ∧ (t.lane x).xf.next = 0 ∧ (t.lane x).xf.cur = none ∧
      (t.lane x).localOf 0 = (s.lane x).now + 1000 ∧ (t.lane x).bit Reg.XF_STAT_LAUNCHING = false ∧
      Touches [.xf, .tb, .ts, .cp, .fm] (fields [0x4001] [Reg.PM_STAT_STATE, Reg.XF_STAT_LAUNCHING, Reg.XF_STAT_HM]) (s.lane x) (t.lane x)) ∧
  (∀ (x h : LaneId) (path : Fin 2) (g : RingFrame) (s : State), (s.lane x).up = true → s.net.launchAt x h path = some g →
    ringCheckOk g = true → (s.lane x).bit Reg.XF_CTRL_EN = true → (s.lane x).seesSailings = false → laneNum h < laneNum (s.lane x).me →
    ∃ t, exec (.launchFrameReceived x .lane (.ring h path [])) s = .next t ∧ OnlyLaneRing x s t (s.net.moveLaunch g x g.bytes true) ∧
      (t.lane x).xf.hold = (s.lane x).now + 10000 ∧ (t.lane x).bit Reg.XF_STAT_LAUNCHING = false ∧
      (∃ f, f ∈ t.net.frames ∧ f.orig = h ∧ f.kind = 3 ∧ f.path = path.val ∧ f.place = x ∧ f.bytes = g.bytes) ∧
      (ringManifest g = (s.lane x).get Reg.XF_MAN_CRC_CRC → Touches [.xf, .fm] (fields [] [Reg.XF_STAT_LAUNCHING]) (s.lane x) (t.lane x)) ∧
      (ringManifest g ≠ (s.lane x).get Reg.XF_MAN_CRC_CRC → Raised 99 (s.lane x) (t.lane x) ∧ (t.lane x).xf.mismatch = true ∧
        (t.lane x).get Reg.XF_CNT_MANIF_COUNT = min ((s.lane x).get Reg.XF_CNT_MANIF_COUNT + 1) (2 ^ 32 - 1) ∧
        Touches (.xf :: raiseParts 99) (raiseAnd 99 [Reg.XF_STAT_LAUNCHING, Reg.XF_STAT_READONLY, Reg.XF_CNT_MANIF_COUNT]) (s.lane x) (t.lane x))) ∧
  (∀ (x : LaneId) (f : VFrame) (s : State), (s.lane x).up = true → (s.lane x).takesFrame f = true → wireKind f = 3 →
    wireOrig f = (s.lane x).get Reg.VF_CTRL_NODE → (s.lane x).bit Reg.VF_STAT_HM_VALID = false →
    (s.lane x).vf.launching = true → (s.lane x).bit Reg.TB_STAT_VALID = true →
    ∃ t, exec (.launchFrameReceived x .vehicle (.wire f)) s = .next t ∧ OnlyLane x s t ∧
      (t.lane x).bit Reg.VF_STAT_SELF_HM = true ∧ (t.lane x).vf.launching = false ∧
      Touches [.vf, .ts, .cp, .fm] (fields [0x4001] [Reg.PM_STAT_STATE, Reg.VF_STAT_SELF_HM]) (s.lane x) (t.lane x)) ∧
  (∀ (x : LaneId) (f : VFrame) (s : State), (s.lane x).up = true → (s.lane x).takesFrame f = true → wireKind f = 3 →
    wireOrig f < (s.lane x).get Reg.VF_CTRL_NODE → wireManifest f = (s.lane x).get Reg.VF_MAN_CRC_CRC →
    (s.lane x).bit Reg.VF_STAT_HM_VALID = false → (s.lane x).vf.busy.one ≤ (s.lane x).now → (s.lane x).vf.waiting.one = [] →
    (s.lane x).bit Reg.VF_STAT_LINK1 = true →
    ∃ t, exec (.launchFrameReceived x .vehicle (.wire f)) s = .next t ∧ OnlyLane x s t ∧ (t.lane x).vf.launching = false ∧
      (t.lane x).vf.hold = (s.lane x).now + (s.lane x).get Reg.VF_CTRL_LTMO * (s.lane x).vehCyc * 12500 ∧
      (t.lane x).vf.out = (s.lane x).vf.out ++ [passOn f (wireBerths f)] ∧ Touches [.vf, .fm] noRegs (s.lane x) (t.lane x)) ∧
  (∀ (x : LaneId) (f : VFrame) (s : State), (s.lane x).up = true → (s.lane x).takesFrame f = true → wireKind f = 3 →
    wireOrig f ≠ (s.lane x).get Reg.VF_CTRL_NODE → wireManifest f ≠ (s.lane x).get Reg.VF_MAN_CRC_CRC →
    (s.lane x).bit Reg.VF_STAT_HM_VALID = false → (s.lane x).bit (Reg.FM_REACT_B 113) = false → (s.lane x).bit (Reg.FM_REACT_B 115) = false →
    ∃ t, exec (.launchFrameReceived x .vehicle (.wire f)) s = .next t ∧ OnlyLane x s t ∧ ((s.lane x).get Reg.VF_CTRL_NODE < wireOrig f ∨ ((s.lane x).vf.busy.one ≤ (s.lane x).now ∧ (s.lane x).vf.waiting.one = []) →
        Raised 113 (s.lane x) (t.lane x)) ∧
      (t.lane x).vf.mismatch = true ∧ (t.lane x).bit Reg.VF_STAT_SELF_HM = false ∧
      (t.lane x).get Reg.VF_CNT_MANIF_COUNT = min ((s.lane x).get Reg.VF_CNT_MANIF_COUNT + 1) (2 ^ 32 - 1)) ∧
  (∀ (x h : LaneId) (path : Fin 2) (g : RingFrame) (s : State), (s.lane x).up = true → s.net.launchAt x h path = some g →
    (s.lane x).bit Reg.XF_CTRL_EN = true → (s.lane x).seesSailings = true →
    ∃ t, exec (.launchFrameReceived x .lane (.ring h path [])) s = .next t ∧ OnlyLaneRing x s t (s.net.moveLaunch g x g.bytes false) ∧
      Touches [.fm] noRegs (s.lane x) (t.lane x))

/-- A commit (XF_COMMIT, VF_COMMIT; R460, R487, R488) of an own firmware element of an accepted manifest makes the words of its back buffer its front buffer:
the element is fresh, with IMPL as written for an input, and no other element changes; a commit of what is no firmware element of an accepted manifest is
raised as source 101 (116 on the vehicle ferry) and changes nothing. XF_ENABLE and VF_ENABLE (R457, R704): the other fields of the control word are written, and the manifest is checked: REASON names the first check
that fails, or 0; EN and VALID are set exactly where it is 0, and then the manifest's CRC is shown. A write that changes a locked field with LOCK set is
raised as source 101 (116 on the vehicle ferry) and changes nothing. A RESYNC of the same tick is refused after all, as source 120 (R507). -/
def Obligations.CommitsAndManifestChecks : Prop :=
  (∀ (x : LaneId) (v : Word) (s : State), (s.lane x).up = true → (s.lane x).mayCommit .lane (Reg.XF_COMMIT_ELEM.of v.toNat) = true →
    ((s.lane x).elemsOf .lane ((s.lane x).ownIndex .lane)).contains (Reg.XF_COMMIT_ELEM.of v.toNat) = true →
    ∃ t, exec (.xfCommit x v) s = .next t ∧ OnlyLane x s t ∧
      (t.lane x).elem .lane (Reg.XF_COMMIT_ELEM.of v.toNat) = { (s.lane x).elem .lane (Reg.XF_COMMIT_ELEM.of v.toNat) with
        words := (List.range ((s.lane x).desc .lane (Reg.XF_COMMIT_ELEM.of v.toNat)).words).map fun i =>
          (s.lane x).expWord .lane ((s.lane x).expBase .lane (Reg.XF_COMMIT_ELEM.of v.toNat) + i)
        fresh := true
        impl := decide (Reg.XF_COMMIT_IMPL.of v.toNat = 1) && ((s.lane x).desc .lane (Reg.XF_COMMIT_ELEM.of v.toNat)).input } ∧
      (∀ e, e ≠ Reg.XF_COMMIT_ELEM.of v.toNat → (t.lane x).elem .lane e = (s.lane x).elem .lane e) ∧
      Touches [.xf, .fm] noRegs (s.lane x) (t.lane x)) ∧
  (∀ (x : LaneId) (v : Word) (s : State), (s.lane x).up = true → (s.lane x).mayCommit .lane (Reg.XF_COMMIT_ELEM.of v.toNat) = false →
    ∃ t, exec (.xfCommit x v) s = .next t ∧ OnlyLane x s t ∧ Raised 101 (s.lane x) (t.lane x) ∧
      Touches (raiseParts 101) (raiseRegs 101) (s.lane x) (t.lane x)) ∧
  (∀ (x : LaneId) (v : Word) (s : State), (s.lane x).up = true → (s.lane x).mayCommit .vehicle (Reg.VF_COMMIT_ELEM.of v.toNat) = true →
    ((s.lane x).elemsOf .vehicle ((s.lane x).ownIndex .vehicle)).contains (Reg.VF_COMMIT_ELEM.of v.toNat) = true →
    ∃ t, exec (.vfCommit x v) s = .next t ∧ OnlyLane x s t ∧
      (t.lane x).elem .vehicle (Reg.VF_COMMIT_ELEM.of v.toNat) = { (s.lane x).elem .vehicle (Reg.VF_COMMIT_ELEM.of v.toNat) with
        words := (List.range ((s.lane x).desc .vehicle (Reg.VF_COMMIT_ELEM.of v.toNat)).words).map fun i =>
          (s.lane x).expWord .vehicle ((s.lane x).expBase .vehicle (Reg.VF_COMMIT_ELEM.of v.toNat) + i)
        fresh := true
        impl := decide (Reg.VF_COMMIT_IMPL.of v.toNat = 1) && ((s.lane x).desc .vehicle (Reg.VF_COMMIT_ELEM.of v.toNat)).input } ∧
      (∀ e, e ≠ Reg.VF_COMMIT_ELEM.of v.toNat → (t.lane x).elem .vehicle e = (s.lane x).elem .vehicle e) ∧
      Touches [.vf, .fm] noRegs (s.lane x) (t.lane x)) ∧
  (∀ (x : LaneId) (v : Word) (s : State), (s.lane x).up = true → (s.lane x).mayCommit .vehicle (Reg.VF_COMMIT_ELEM.of v.toNat) = false →
    ∃ t, exec (.vfCommit x v) s = .next t ∧ OnlyLane x s t ∧ Raised 116 (s.lane x) (t.lane x) ∧
      Touches (raiseParts 116) (raiseRegs 116) (s.lane x) (t.lane x)) ∧
  (∀ (x : LaneId) (v : Word) (s : State), (s.lane x).up = true →
    (s.lane x).bit Reg.XF_CTRL_LOCK = false ∨
      (s.lane x).changesLocked [Reg.XF_CTRL_LOCK, Reg.XF_CTRL_WIN, Reg.XF_CTRL_LAUNCH] v.toNat = false →
    ∃ t, exec (.xfEnable x v) s = .next t ∧ OnlyLane x s t ∧
      (∀ f, f ∈ [Reg.XF_CTRL_LOCK, Reg.XF_CTRL_WIN, Reg.XF_CTRL_LAUNCH] →
        (t.lane x).get f = ((s.lane x).writeFlds [Reg.XF_CTRL_LOCK, Reg.XF_CTRL_WIN, Reg.XF_CTRL_LAUNCH] v.toNat).get f) ∧
      (t.lane x).get Reg.XF_MAN_REASON = ((s.lane x).writeFlds [Reg.XF_CTRL_LOCK, Reg.XF_CTRL_WIN, Reg.XF_CTRL_LAUNCH] v.toNat).manCheck .lane ∧
      ((t.lane x).bit Reg.XF_CTRL_EN = true ↔ (t.lane x).get Reg.XF_MAN_REASON = 0) ∧
      ((t.lane x).bit Reg.XF_MAN_VALID = true ↔ (t.lane x).get Reg.XF_MAN_REASON = 0) ∧
      ((t.lane x).get Reg.XF_MAN_REASON = 0 → (t.lane x).get Reg.XF_MAN_CRC_CRC = (s.lane x).manCrc .lane) ∧
      Touches [.xf, .fm] (fields [] [Reg.XF_CTRL_EN, Reg.XF_MAN_VALID, Reg.XF_MAN_REASON, Reg.XF_MAN_ELEMS, Reg.XF_MAN_CRC_CRC, Reg.XF_CTRL_LOCK, Reg.XF_CTRL_WIN, Reg.XF_CTRL_LAUNCH])
        (s.lane x) (t.lane x)) ∧
  (∀ (x : LaneId) (v : Word) (s : State), (s.lane x).up = true → (s.lane x).bit Reg.XF_CTRL_LOCK = true →
    (s.lane x).changesLocked [Reg.XF_CTRL_LOCK, Reg.XF_CTRL_WIN, Reg.XF_CTRL_LAUNCH] v.toNat = true →
    ∃ t, exec (.xfEnable x v) s = .next t ∧ OnlyLane x s t ∧ Raised 101 (s.lane x) (t.lane x) ∧
      Touches (raiseParts 101) (raiseRegs 101) (s.lane x) (t.lane x)) ∧
  (∀ (x : LaneId) (v : Word) (s : State), (s.lane x).up = true → ((s.lane x).tb.resync.all fun r => decide (r.at_ ≠ (s.lane x).now)) = true →
    (s.lane x).bit Reg.VF_CTRL_LOCK = false ∨
      (s.lane x).changesLocked [Reg.VF_CTRL_LOCK, Reg.VF_CTRL_LAUNCH, Reg.VF_CTRL_MCAST, Reg.VF_CTRL_NODE, Reg.VF_CTRL_LTMO, Reg.VF_CTRL_WIN] v.toNat = false →
    ∃ t, exec (.vfEnable x v) s = .next t ∧ OnlyLane x s t ∧
      (∀ f, f ∈ [Reg.VF_CTRL_LOCK, Reg.VF_CTRL_LAUNCH, Reg.VF_CTRL_MCAST, Reg.VF_CTRL_NODE, Reg.VF_CTRL_LTMO, Reg.VF_CTRL_WIN] →
        (t.lane x).get f = ((s.lane x).writeFlds [Reg.VF_CTRL_LOCK, Reg.VF_CTRL_LAUNCH, Reg.VF_CTRL_MCAST, Reg.VF_CTRL_NODE, Reg.VF_CTRL_LTMO, Reg.VF_CTRL_WIN] v.toNat).get f) ∧
      (t.lane x).get Reg.VF_MAN_REASON = ((s.lane x).writeFlds [Reg.VF_CTRL_LOCK, Reg.VF_CTRL_LAUNCH, Reg.VF_CTRL_MCAST, Reg.VF_CTRL_NODE, Reg.VF_CTRL_LTMO, Reg.VF_CTRL_WIN] v.toNat).manCheck .vehicle ∧
      ((t.lane x).bit Reg.VF_CTRL_EN = true ↔ (t.lane x).get Reg.VF_MAN_REASON = 0) ∧
      ((t.lane x).bit Reg.VF_MAN_VALID = true ↔ (t.lane x).get Reg.VF_MAN_REASON = 0) ∧
      ((t.lane x).get Reg.VF_MAN_REASON = 0 → (t.lane x).get Reg.VF_MAN_CRC_CRC = (s.lane x).manCrc .vehicle) ∧
      Touches [.vf, .ts, .cp, .fm] (fields [0x4001] [Reg.PM_STAT_STATE, Reg.VF_STAT_SELF_HM, Reg.VF_CTRL_EN, Reg.VF_MAN_VALID, Reg.VF_MAN_REASON, Reg.VF_MAN_ELEMS, Reg.VF_MAN_CRC_CRC, Reg.VF_CTRL_LOCK, Reg.VF_CTRL_LAUNCH, Reg.VF_CTRL_MCAST, Reg.VF_CTRL_NODE, Reg.VF_CTRL_LTMO, Reg.VF_CTRL_WIN])
        (s.lane x) (t.lane x)) ∧
  (∀ (x : LaneId) (v : Word) (s : State), (s.lane x).up = true → ((s.lane x).tb.resync.all fun r => decide (r.at_ ≠ (s.lane x).now)) = true → (s.lane x).bit Reg.VF_CTRL_LOCK = true →
    (s.lane x).changesLocked [Reg.VF_CTRL_LOCK, Reg.VF_CTRL_LAUNCH, Reg.VF_CTRL_MCAST, Reg.VF_CTRL_NODE, Reg.VF_CTRL_LTMO, Reg.VF_CTRL_WIN] v.toNat = true →
    ∃ t, exec (.vfEnable x v) s = .next t ∧ OnlyLane x s t ∧ Raised 116 (s.lane x) (t.lane x) ∧
      Touches (raiseParts 116) (raiseRegs 116) (s.lane x) (t.lane x)) ∧
  (∀ (x : LaneId) (v : Word) (r : Resync) (s : State), (s.lane x).up = true → (s.lane x).tb.resync = some r → r.at_ = (s.lane x).now →
    (s.lane x).bit (Reg.FM_REACT_B 120) = false →
    ∃ t, exec (.vfEnable x v) s = .next t ∧ OnlyLane x s t ∧ (t.lane x).tb.resync = none ∧ (t.lane x).tb.veh = r.veh ∧
      (t.lane x).get Reg.TB_STAT_VALID = r.valid % 2 ∧ ((s.lane x).raisedNow 120 = false → (t.lane x).status 120 = true))

/-- PRECEDENCE_WRITE (R48, R88, R704): a permutation of the lanes is taken, with REVERT and LOCK as written, while LOCK is clear and the mode permits a change
or the order stays as it is. A write that names no permutation, or that would change the order where the mode does not permit it, or that would change any of
these fields with LOCK set, is raised as source 8 and changes nothing. IMPORT_WRITE (R75): a block is taken as written where it is not enabled, and enabled
where it stands alone within the words 0x80 to 0xFFF; one that would begin below word 0x80 is raised as source 101 and changes nothing. -/
def Obligations.PrecedenceAndImportBlocks : Prop :=
  (∀ (x : LaneId) (v : Word) (s : State), (s.lane x).up = true → (s.lane x).bit Reg.XF_VCTRL_LOCK = false →
    (s.lane x).permits .precedence = true ∨
      (s.lane x).changes [Reg.XF_VCTRL_FIRST, Reg.XF_VCTRL_SECOND, Reg.XF_VCTRL_THIRD] v.toNat = false →
    (∀ l, l < 3 → l = Reg.XF_VCTRL_FIRST.of v.toNat ∨ l = Reg.XF_VCTRL_SECOND.of v.toNat ∨ l = Reg.XF_VCTRL_THIRD.of v.toNat) →
    ∃ t, exec (.precedenceWrite x v) s = .next t ∧ OnlyLane x s t ∧
      (∀ f, f ∈ [Reg.XF_VCTRL_LOCK, Reg.XF_VCTRL_REVERT, Reg.XF_VCTRL_FIRST, Reg.XF_VCTRL_SECOND, Reg.XF_VCTRL_THIRD] →
        (t.lane x).get f = f.of v.toNat) ∧
      Touches [.fm] (fields [] [Reg.XF_VCTRL_LOCK, Reg.XF_VCTRL_REVERT, Reg.XF_VCTRL_FIRST, Reg.XF_VCTRL_SECOND, Reg.XF_VCTRL_THIRD])
        (s.lane x) (t.lane x)) ∧
  (∀ (x : LaneId) (v : Word) (l : Nat) (s : State), (s.lane x).up = true → l < 3 → l ≠ Reg.XF_VCTRL_FIRST.of v.toNat →
    l ≠ Reg.XF_VCTRL_SECOND.of v.toNat → l ≠ Reg.XF_VCTRL_THIRD.of v.toNat →
    ∃ t, exec (.precedenceWrite x v) s = .next t ∧ OnlyLane x s t ∧ Raised 8 (s.lane x) (t.lane x) ∧
      Touches (raiseParts 8) (raiseRegs 8) (s.lane x) (t.lane x)) ∧
  (∀ (x : LaneId) (v : Word) (s : State), (s.lane x).up = true →
    (s.lane x).permits .precedence = false ∧ (s.lane x).changes [Reg.XF_VCTRL_FIRST, Reg.XF_VCTRL_SECOND, Reg.XF_VCTRL_THIRD] v.toNat = true ∨
      (s.lane x).bit Reg.XF_VCTRL_LOCK = true ∧
        (s.lane x).changesLocked [Reg.XF_VCTRL_LOCK, Reg.XF_VCTRL_REVERT, Reg.XF_VCTRL_FIRST, Reg.XF_VCTRL_SECOND, Reg.XF_VCTRL_THIRD] v.toNat = true →
    ∃ t, exec (.precedenceWrite x v) s = .next t ∧ OnlyLane x s t ∧ Raised 8 (s.lane x) (t.lane x) ∧
      Touches (raiseParts 8) (raiseRegs 8) (s.lane x) (t.lane x)) ∧
  (∀ (x : LaneId) (i : Fin 8) (v : Word) (s : State), (s.lane x).up = true →
    (v.toNat < 2 ^ 31 ∨ (∀ j, j < 8 → j ≠ i.val → (s.lane x).bit (Reg.XF_IMPORT_EN j) = false) ∧
      0x80 ≤ (Reg.XF_IMPORT_BASE i).of v.toNat ∧ (Reg.XF_IMPORT_BASE i).of v.toNat + (Reg.XF_IMPORT_COUNT i).of v.toNat + 1 ≤ 0x1000) →
    ∃ t, exec (.importWrite x i v) s = .next t ∧ OnlyLane x s t ∧ (t.lane x).get (Reg.XF_IMPORT_BASE i) = (Reg.XF_IMPORT_BASE i).of v.toNat ∧
      (t.lane x).get (Reg.XF_IMPORT_COUNT i) = (Reg.XF_IMPORT_COUNT i).of v.toNat ∧
      (t.lane x).bit (Reg.XF_IMPORT_EN i) = decide (2 ^ 31 ≤ v.toNat) ∧
      Touches [.fm] (fields [] [Reg.XF_IMPORT_EN i, Reg.XF_IMPORT_COUNT i, Reg.XF_IMPORT_BASE i]) (s.lane x) (t.lane x)) ∧
  (∀ (x : LaneId) (i : Fin 8) (v : Word) (s : State), (s.lane x).up = true → 2 ^ 31 ≤ v.toNat → (Reg.XF_IMPORT_BASE i).of v.toNat < 0x80 →
    ∃ t, exec (.importWrite x i v) s = .next t ∧ OnlyLane x s t ∧ Raised 101 (s.lane x) (t.lane x) ∧
      Touches (raiseParts 101) (raiseRegs 101) (s.lane x) (t.lane x))

/-- The vehicle ring. VEHICLE_DEPARTURE (R478, R463): the pass read last lands: LAND_SAILING and HM name it, HM_VALID is set, and TS event 154 occurs; the harbour
master, unless R449 or R91 keeps it from originating, sends the loading pass of the sailing by port 1, with the own berth latched for it; no sailing departs twice.
VEHICLE_PASS_ARRIVAL (R452, R469, R471, R479): a loading pass of another node goes on by port 1: within the window with the own berth of its sailing in it, later
unchanged, read only, counted and raised as source 112; its error is shown. An unloading pass is kept for the landing and goes on as it is; what is no valid frame of the
ring, or the node's own, changes nothing. LOADING_PASS_RETURN (R478): the originator sends the same berths again as the unloading pass and keeps them for its own landing.
FERRY_PASS_DELAYED (R483): the oldest held pass leaves. -/
def Obligations.TheVehicleRing : Prop :=
  (∀ (x : LaneId) (T : Nat) (s : State), (s.lane x).up = true → (s.lane x).vehDepartDue = some T → (s.lane x).bit (Reg.FM_REACT_B 115) = false →
    ∃ t, exec (.vehicleDeparture x) s = .next t ∧ OnlyLane x (s.reach x T) t ∧ (t.lane x).vf.unloading = none ∧
      (t.lane x).vf.departed = some (s.lane x).vehNext ∧ (t.lane x).vf.readOnly = false ∧
      ∀ n orig bs, (s.lane x).vf.unloading = some (n, orig, bs) → (t.lane x).get Reg.VF_LAND_SAILING = n % 2 ^ 32 ∧
        (t.lane x).get Reg.VF_STAT_HM = orig % 16 ∧ (t.lane x).bit Reg.VF_STAT_HM_VALID = true ∧ Signalled 154 (s.lane x) (t.lane x)) ∧
  (∀ (x : LaneId) (T : Nat) (b : List Byte) (s : State), (s.lane x).up = true → (s.lane x).vehDepartDue = some T →
    (s.lane x).bit Reg.VF_STAT_SELF_HM = true → (s.lane x).md.refuge = false → (s.lane x).vf.mismatch = false →
    (s.lane x).bit Reg.SYS_LANE_ID_MATCH = true → (s.lane x).bit Reg.VF_STAT_LINK1 = true →
    (s.lane x).vf.busy.one ≤ ((s.reach x T).lane x).now → (s.lane x).vf.waiting.one = [] → (s.lane x).vf.berth = some ((s.lane x).vehNext, b) →
    (s.lane x).ownIndex .vehicle < (s.lane x).manNodes .vehicle →
    ∃ t, exec (.vehicleDeparture x) s = .next t ∧ OnlyLane x (s.reach x T) t ∧
      (t.lane x).vf.out = (s.lane x).vf.out ++ [⟨1, true, (s.lane x).ferryFrame 1 (s.lane x).vehNext
        (putBytes (List.replicate ((s.lane x).vehFrame - 28) (0 : Byte))
          ((s.lane x).nodeOffset .vehicle ((s.lane x).ownIndex .vehicle) - 28) b), true⟩]) ∧
  (∀ (x : LaneId) (f : VFrame) (err : Int) (m : Nat) (b : List Byte) (s : State), (s.lane x).up = true → (s.lane x).takesFrame f = true →
    wireKind f = 1 → wireOrig f ≠ (s.lane x).get Reg.VF_CTRL_NODE → (s.lane x).bit Reg.VF_STAT_LINK1 = true →
    (s.lane x).bit Reg.VF_STAT_SELF_HM = false → wireManifest f = (s.lane x).get Reg.VF_MAN_CRC_CRC →
    (s.lane x).bit Reg.TB_STAT_VALID = true → (s.lane x).vf.readOnly = false → (s.lane x).bit Reg.SYS_LANE_ID_MATCH = true →
    (s.lane x).ownIndex .vehicle < (s.lane x).manNodes .vehicle → err.natAbs ≤ (s.lane x).get Reg.VF_CTRL_WIN →
    (s.lane x).vf.busy.one ≤ ((s.reachPass x f err).lane x).now → (s.lane x).vf.waiting.one = [] → (s.lane x).vf.berth = some (m, b) →
    m % 2 ^ 32 = wireSailing f →
    ∃ t, exec (.vehiclePassArrival x f err) s = .next t ∧ OnlyLane x (s.reachPass x f err) t ∧ (t.lane x).getI Reg.VF_STAT_ERR = err ∧
      (t.lane x).bit Reg.VF_STAT_READONLY = false ∧
      (t.lane x).vf.out = (s.lane x).vf.out ++
        [passOn f (putBytes (wireBerths f) ((s.lane x).nodeOffset .vehicle ((s.lane x).ownIndex .vehicle) - 28) b)] ∧
      Touches [.vf, .fm] (fields [] [Reg.VF_STAT_ERR, Reg.VF_STAT_READONLY]) ((s.reachPass x f err).lane x) (t.lane x)) ∧
  (∀ (x : LaneId) (f : VFrame) (err : Int) (s : State), (s.lane x).up = true → (s.lane x).takesFrame f = true → wireKind f = 1 →
    wireOrig f ≠ (s.lane x).get Reg.VF_CTRL_NODE → (s.lane x).bit Reg.VF_STAT_LINK1 = true →
    (s.lane x).bit Reg.VF_STAT_SELF_HM = false → wireManifest f = (s.lane x).get Reg.VF_MAN_CRC_CRC →
    (s.lane x).bit Reg.TB_STAT_VALID = true → (s.lane x).vf.readOnly = false → (s.lane x).get Reg.VF_CTRL_WIN < err.natAbs →
    (s.lane x).vf.busy.one ≤ ((s.reachPass x f err).lane x).now → (s.lane x).vf.waiting.one = [] →
    (s.lane x).bit (Reg.FM_REACT_B 112) = false →
    ∃ t, exec (.vehiclePassArrival x f err) s = .next t ∧ OnlyLane x (s.reachPass x f err) t ∧ (t.lane x).getI Reg.VF_STAT_ERR = satW 16 err ∧
      (t.lane x).bit Reg.VF_STAT_READONLY = true ∧ Raised 112 ((s.reachPass x f err).lane x) (t.lane x) ∧
      (t.lane x).get Reg.VF_CNT_LATE_COUNT = min ((s.lane x).get Reg.VF_CNT_LATE_COUNT + 1) (2 ^ 32 - 1) ∧
      (t.lane x).vf.out = (s.lane x).vf.out ++ [passOn f (wireBerths f)] ∧
      Touches (.vf :: raiseParts 112) (raiseAnd 112 [Reg.VF_STAT_ERR, Reg.VF_STAT_READONLY, Reg.VF_CNT_LATE_COUNT])
        ((s.reachPass x f err).lane x) (t.lane x)) ∧
  (∀ (x : LaneId) (f : VFrame) (err : Int) (s : State), (s.lane x).up = true → (s.lane x).takesFrame f = true → wireKind f = 2 →
    wireOrig f ≠ (s.lane x).get Reg.VF_CTRL_NODE → (s.lane x).bit Reg.VF_STAT_LINK1 = true →
    (s.lane x).bit Reg.VF_STAT_SELF_HM = false → wireManifest f = (s.lane x).get Reg.VF_MAN_CRC_CRC →
    (s.lane x).vf.busy.one ≤ (s.lane x).now → (s.lane x).vf.waiting.one = [] → (s.lane x).bit (Reg.FM_REACT_B 114) = false →
    ∃ t, exec (.vehiclePassArrival x f err) s = .next t ∧ OnlyLane x s t ∧
      (t.lane x).vf.unloading = some (wireSailing f, wireOrig f, wireBerths f) ∧
      (t.lane x).vf.out = (s.lane x).vf.out ++ [passOn f (wireBerths f)] ∧
      Touches (.vf :: raiseParts 114) (raiseAnd 114 [Reg.VF_CNT_CHECK_COUNT]) (s.lane x) (t.lane x)) ∧
  (∀ (x : LaneId) (f : VFrame) (s : State), (s.lane x).up = true → (s.lane x).takesFrame f = true →
    (s.lane x).bit Reg.VF_STAT_SELF_HM = true → wireKind f = 1 → f.fcsOk = true → wireOrig f = (s.lane x).get Reg.VF_CTRL_NODE →
    (s.lane x).bit Reg.TB_STAT_VALID = true → (s.lane x).bit Reg.VF_STAT_LINK1 = true → (s.lane x).vf.busy.one ≤ (s.lane x).now →
    (s.lane x).vf.waiting.one = [] → (s.lane x).bit (Reg.FM_REACT_B 114) = false →
    ∃ t, exec (.loadingPassReturn x f) s = .next t ∧ OnlyLane x s t ∧
      (t.lane x).vf.unloading = some (wireSailing f, wireOrig f, wireBerths f) ∧
      (t.lane x).vf.out = (s.lane x).vf.out ++ [⟨1, true, (s.lane x).ferryFrame 2 (wireSailing f) (wireBerths f), true⟩] ∧
      Touches (.vf :: raiseParts 114) (raiseAnd 114 [Reg.VF_CNT_CHECK_COUNT]) (s.lane x) (t.lane x)) ∧
  (∀ (x : LaneId) (port : Fin 2) (o : VfOut) (rest : List VfOut) (s : State), (s.lane x).up = true →
    (s.lane x).vf.waiting.get port = o :: rest → (s.lane x).bit (linkFld o.port) = true →
    ∃ t, exec (.ferryPassDelayed x port) s = .next t ∧ OnlyLane x (s.reach x ((s.lane x).vf.busy.get port)) t ∧
      (t.lane x).vf.waiting.get port = rest ∧ (t.lane x).vf.out = (s.lane x).vf.out ++ [o] ∧
      Touches [.vf, .fm] noRegs ((s.reach x ((s.lane x).vf.busy.get port)).lane x) (t.lane x)) ∧
  (∀ (x : LaneId) (f : VFrame) (err : Int) (s : State), (s.lane x).up = true →
    (s.lane x).takesFrame f = false ∨ wireOrig f = (s.lane x).get Reg.VF_CTRL_NODE →
    ∃ t, exec (.vehiclePassArrival x f err) s = .next t ∧ OnlyLane x (s.reachPass x f err) t ∧
      Touches [.fm] noRegs ((s.reachPass x f err).lane x) (t.lane x))

/-- Other frames. NON_FERRY_FRAME (R481, R495): one addressed to the lane alone stays out of the other port and lies in the receive ring where it fits, WR past it, and is
counted as dropped where it does not, and no byte outside that ring changes; one to be forwarded leaves by the other port where nothing hinders it; one of EtherType
0x88F7 is discarded, counted, and raised as source 121; a ferry frame is none. FRAME_SEND_REQUEST (R482): a frame waits in the transmit buffer while its port is down, and
leaves at once where nothing hinders it; a length outside 60 to 1,514 is raised as source 116 and nothing is sent. HELD_FRAME_SEND: the oldest held frame leaves, with its
TS event. PORT_LINK_CHANGE (R480): a port is up at full duplex and 1,000 Mbit/s alone. -/
def Obligations.FramesBesideTheFerry : Prop :=
  (∀ (x : LaneId) (port : Fin 2) (et : Nat) (f : VFrame) (size wr used : Nat) (s : State), (s.lane x).up = true →
    (s.lane x).bit (linkFld port) = true → et ≠ 0x88F7 → (s.lane x).isFerry et (s.lane x).vfMac = false → (s.lane x).vfMac / 16 ≠ 0x0180C200000 →
    size = 2 ^ (s.lane x).get (Reg.VF_RXB_SIZE port) * 4096 → wr = (s.lane x).get (Reg.VF_RXW_WR port) % size →
    used = (wr + size - (s.lane x).get (Reg.VF_RXR_RD port) % size) % size →
    ∃ t, exec (.nonFerryFrame x port et (s.lane x).vfMac f) s = .next t ∧ OnlyLaneMem x s t ∧
      (if used + (ringBytes f.bytes).length < size then
        (t.lane x).get (Reg.VF_RXW_WR port) = (wr + (ringBytes f.bytes).length) % size % 2 ^ (Reg.VF_RXW_WR port).width ∧
        (∀ i, i < (ringBytes f.bytes).length → placeOf (4096 * (s.lane x).get (Reg.VF_RXB_BASE port) + (wr + i) % size) = .sram →
          (t.memOf x).byte (4096 * (s.lane x).get (Reg.VF_RXB_BASE port) + (wr + i) % size) = (ringBytes f.bytes).getD i 0) ∧
        Signalled (152 + port) (s.lane x) (t.lane x)
      else (t.lane x).get Reg.VF_CNT_DROP_COUNT = min ((s.lane x).get Reg.VF_CNT_DROP_COUNT + 1) (2 ^ 32 - 1) ∧ t.mem = s.mem) ∧
      (∀ a, a < 4096 * (s.lane x).get (Reg.VF_RXB_BASE port) ∨ 4096 * (s.lane x).get (Reg.VF_RXB_BASE port) + size ≤ a ∨ placeOf a ≠ .sram →
        (t.memOf x).byte a = (s.memOf x).byte a) ∧
      Touches [.ts, .cp, .fm] (fields [0x4001] [Reg.PM_STAT_STATE, Reg.VF_RXW_WR port, Reg.VF_CNT_DROP_COUNT]) (s.lane x) (t.lane x)) ∧
  (∀ (x : LaneId) (port : Fin 2) (et da : Nat) (f : VFrame) (s : State), (s.lane x).up = true →
    (s.lane x).bit (linkFld port) = true → (s.lane x).bit (linkFld (1 - port)) = true → et ≠ 0x88F7 → (s.lane x).isFerry et da = false →
    (s.lane x).handling da = (false, true) →
    (s.lane x).vf.tx.get (1 - port) = [] → (s.lane x).startTick (1 - port) f.bytes.length (s.lane x).now = (s.lane x).now →
    ∃ t, exec (.nonFerryFrame x port et da f) s = .next t ∧ OnlyLane x s t ∧
      (t.lane x).vf.out = (s.lane x).vf.out ++ [⟨1 - port, false, f.bytes, f.fcsOk⟩] ∧ Touches [.vf, .fm] noRegs (s.lane x) (t.lane x)) ∧
  (∀ (x : LaneId) (port : Fin 2) (da : Nat) (f : VFrame) (s : State), (s.lane x).up = true →
    (s.lane x).bit (linkFld port) = true → (s.lane x).isFerry 0x88F7 da = false →
    ∃ t, exec (.nonFerryFrame x port 0x88F7 da f) s = .next t ∧ OnlyLane x s t ∧ Raised 121 (s.lane x) (t.lane x) ∧
      ((s.lane x).bit (Reg.FM_REACT_B 121) = false →
        (t.lane x).get Reg.TB_CNT_DISC_COUNT = min ((s.lane x).get Reg.TB_CNT_DISC_COUNT + 1) (2 ^ 32 - 1)) ∧
      Touches (raiseParts 121) (raiseAnd 121 [Reg.TB_CNT_DISC_COUNT]) (s.lane x) (t.lane x)) ∧
  (∀ (x : LaneId) (port : Fin 2) (v : Word) (s : State), (s.lane x).up = true →
    (Reg.VF_TXC_LEN port).of v.toNat < 60 ∨ 1514 < (Reg.VF_TXC_LEN port).of v.toNat →
    ∃ t, exec (.frameSendRequest x port v) s = .next t ∧ OnlyLane x s t ∧ Raised 116 (s.lane x) (t.lane x) ∧
      (t.lane x).vf.out = (s.lane x).vf.out ∧ Touches (raiseParts 116) (raiseRegs 116) (s.lane x) (t.lane x)) ∧
  (∀ (x : LaneId) (port : Fin 2) (v : Word) (s : State), (s.lane x).up = true → 60 ≤ (Reg.VF_TXC_LEN port).of v.toNat →
    (Reg.VF_TXC_LEN port).of v.toNat ≤ 1514 → (s.lane x).txFill port + (Reg.VF_TXC_LEN port).of v.toNat ≤ 32768 →
    (s.lane x).bit (linkFld port) = false →
    ∃ t, exec (.frameSendRequest x port v) s = .next t ∧ OnlyLane x s t ∧
      (t.lane x).vf.tx.get port = (s.lane x).vf.tx.get port ++
        [⟨(s.memOf x).load (2048 * (Reg.VF_TXC_ADDR port).of v.toNat) ((Reg.VF_TXC_LEN port).of v.toNat), true⟩] ∧
      Touches [.vf, .fm] noRegs (s.lane x) (t.lane x)) ∧
  (∀ (x : LaneId) (port : Fin 2) (v : Word) (s : State), (s.lane x).up = true → 60 ≤ (Reg.VF_TXC_LEN port).of v.toNat →
    (Reg.VF_TXC_LEN port).of v.toNat ≤ 1514 → (s.lane x).vf.tx.get port = [] → (s.lane x).bit (linkFld port) = true →
    (s.lane x).startTick port ((Reg.VF_TXC_LEN port).of v.toNat) (s.lane x).now = (s.lane x).now →
    ∃ t, exec (.frameSendRequest x port v) s = .next t ∧ OnlyLane x s t ∧ (t.lane x).vf.tx.get port = [] ∧
      (t.lane x).vf.out = (s.lane x).vf.out ++
        [⟨port, false, (s.memOf x).load (2048 * (Reg.VF_TXC_ADDR port).of v.toNat) ((Reg.VF_TXC_LEN port).of v.toNat), true⟩] ∧
      Signalled (156 + port) (s.lane x) (t.lane x) ∧ Touches [.vf, .ts, .cp, .fm] tsRegs (s.lane x) (t.lane x)) ∧
  (∀ (x : LaneId) (port : Fin 2) (f : VFrame) (rest : List VFrame) (T : Nat) (s : State), (s.lane x).up = true →
    (s.lane x).vf.tx.get port = f :: rest → (s.lane x).heldDue port = some T →
    ∃ t, exec (.heldFrameSend x port) s = .next t ∧ OnlyLane x (s.reach x T) t ∧ (t.lane x).vf.tx.get port = rest ∧
      (t.lane x).vf.out = (s.lane x).vf.out ++ [⟨port, false, f.bytes, f.fcsOk⟩] ∧ Signalled (156 + port) (s.lane x) (t.lane x) ∧
      Touches [.vf, .ts, .cp, .fm] tsRegs ((s.reach x T).lane x) (t.lane x)) ∧
  (∀ (x : LaneId) (port : Fin 2) (link full : Bool) (mbit : Nat) (s : State), (s.lane x).up = true →
    ∃ t, exec (.portLinkChange x port link full mbit) s = .next t ∧ OnlyLane x s t ∧
      (t.lane x).bit (linkFld port) = (link && full && decide (mbit = 1000)) ∧
      Touches [.ts, .cp, .fm] (fields [0x4001] [Reg.PM_STAT_STATE, Reg.VF_STAT_LINK0, Reg.VF_STAT_LINK1]) (s.lane x) (t.lane x)) ∧
  (∀ (x : LaneId) (port : Fin 2) (et da : Nat) (f : VFrame) (s : State), (s.lane x).isFerry et da = true →
    exec (.nonFerryFrame x port et da f) s = .next s)


/-! ### The instructions of the loop engine (03_loop_engine.md, 04_compensators.md) -/

/-- R149 and R148: every product is exact (`Lane.product`), one with a Q4.27 factor shifted left by 3 and one of two Q1.30 factors unshifted, and MACR
adds its N + 1 products one at a time, in ascending order, each addition limited as MAC limits it (`accAdd`). NOP goes on; CLR empties the
accumulator and ends its saturation state; LDA raises a signal word's 30 fraction bits to 60. Nothing but the running program changes. -/
def Obligations.LeAccumulatorInstructions : Prop :=
  (∀ (x : LaneId) (s : State) (r : LeRun) (rest : List LeRun) (w : Nat), Running x 0x00 s r rest w →
    ∃ t, exec (.leNop x .clean) s = .next t ∧ RunBecomes x s t { r with pc := (r.pc + 1) % 4096 } rest) ∧
  (∀ (x : LaneId) (s : State) (r : LeRun) (rest : List LeRun) (w : Nat), Running x 0x01 s r rest w →
    ∃ t, exec (.leClr x .clean) s = .next t ∧
      RunBecomes x s t { r with pc := (r.pc + 1) % 4096, acc := 0, accSat := false } rest) ∧
  (∀ (x : LaneId) (s : State) (r : LeRun) (rest : List LeRun) (w : Nat), Running x 0x02 s r rest w →
    ∃ t, exec (.leLda x .clean) s = .next t ∧
      RunBecomes x s t { r with pc := (r.pc + 1) % 4096, acc := (s.lane x).sigI (aOf w) * 2 ^ 30, accSat := false } rest) ∧
  (∀ (x : LaneId) (s : State) (r : LeRun) (rest : List LeRun) (w : Nat), Running x 0x03 s r rest w →
    ∃ t, exec (.leMac x .clean) s = .next t ∧
      RunBecomes x s t { r with
        pc := (r.pc + 1) % 4096
        acc := (accAdd (r.acc, r.accSat) ((s.lane x).product w 0)).1
        accSat := (accAdd (r.acc, r.accSat) ((s.lane x).product w 0)).2 } rest) ∧
  (∀ (x : LaneId) (s : State) (r : LeRun) (rest : List LeRun) (w : Nat), Running x 0x04 s r rest w →
    ∃ t, exec (.leMacr x .clean) s = .next t ∧
      RunBecomes x s t { r with
        pc := (r.pc + 1) % 4096
        acc := (accSum (r.acc, r.accSat) ((List.range (nOf w + 1)).map ((s.lane x).product w))).1
        accSat := (accSum (r.acc, r.accSat) ((List.range (nOf w + 1)).map ((s.lane x).product w))).2 } rest)

/-- R150 and R152: STA rounds the accumulator once into Q1.30 or Q4.27, saturates, and sets S where it saturated or the accumulator's saturation state
was set; ADD forms s[A] ± s[B] exactly and saturates it; MOV, LDC, SAT and SEL copy words without change; MUL is one rounded product (R151). N and Z
follow the word written at s[D] (R158), which lies outside the input window (R137). A write into the input window (R137) writes nothing: the run goes on with its flags as they were, and "LE write refused" (source 35) is raised. -/
def Obligations.LeWordInstructions : Prop :=
  (∀ (x : LaneId) (s : State) (r : LeRun) (rest : List LeRun) (w : Nat), Running x 0x05 s r rest w → 128 ≤ dOf w →
    ∃ t, exec (.leSta x .clean) s = .next t ∧
      Writes x s t r rest (dOf w) [uns 32 (satW 32 (roundDiv r.acc (if bitAt (modOf w) 3 then 2 ^ 33 else 2 ^ 30)))]
        (some (satHit 32 (roundDiv r.acc (if bitAt (modOf w) 3 then 2 ^ 33 else 2 ^ 30)) || r.accSat))) ∧
  (∀ (x : LaneId) (s : State) (r : LeRun) (rest : List LeRun) (w : Nat), Running x 0x06 s r rest w → 128 ≤ dOf w →
    ∃ t, exec (.leMov x .clean) s = .next t ∧ Writes x s t r rest (dOf w) [(s.lane x).sig (aOf w)] none) ∧
  (∀ (x : LaneId) (s : State) (r : LeRun) (rest : List LeRun) (w : Nat), Running x 0x07 s r rest w → 128 ≤ dOf w →
    ∃ t, exec (.leLdc x .clean) s = .next t ∧ Writes x s t r rest (dOf w) [(s.lane x).coef (kOf w)] none) ∧
  (∀ (x : LaneId) (s : State) (r : LeRun) (rest : List LeRun) (w : Nat), Running x 0x08 s r rest w → 128 ≤ dOf w →
    bitAt (modOf w) 3 = false →
    ∃ t, exec (.leAdd x .clean) s = .next t ∧
      Writes x s t r rest (dOf w) [uns 32 (satW 32 ((s.lane x).sigI (aOf w) + (s.lane x).sigI (bOf w)))]
        (some (satHit 32 ((s.lane x).sigI (aOf w) + (s.lane x).sigI (bOf w))))) ∧
  (∀ (x : LaneId) (s : State) (r : LeRun) (rest : List LeRun) (w : Nat), Running x 0x08 s r rest w → 128 ≤ dOf w →
    bitAt (modOf w) 3 = true →
    ∃ t, exec (.leAdd x .clean) s = .next t ∧
      Writes x s t r rest (dOf w) [uns 32 (satW 32 ((s.lane x).sigI (aOf w) - (s.lane x).sigI (bOf w)))]
        (some (satHit 32 ((s.lane x).sigI (aOf w) - (s.lane x).sigI (bOf w))))) ∧
  (∀ (x : LaneId) (s : State) (r : LeRun) (rest : List LeRun) (w : Nat), Running x 0x09 s r rest w → 128 ≤ dOf w →
    ∃ t, exec (.leMul x .clean) s = .next t ∧
      Writes x s t r rest (dOf w) [uns 32 (satW 32 (roundDiv ((s.lane x).sigI (aOf w) * (s.lane x).sigI (bOf w)) (2 ^ 30)))]
        (some (satHit 32 (roundDiv ((s.lane x).sigI (aOf w) * (s.lane x).sigI (bOf w)) (2 ^ 30))))) ∧
  (∀ (x : LaneId) (s : State) (r : LeRun) (rest : List LeRun) (w : Nat), Running x 0x0A s r rest w → 128 ≤ dOf w →
    bitAt (modOf w) 3 = false →
    ∃ t, exec (.leSat x .clean) s = .next t ∧
      Writes x s t r rest (dOf w)
        [uns 32 (min (max ((s.lane x).sigI (aOf w)) ((s.lane x).sigI (bOf w))) ((s.lane x).sigI (bOf w + 1)))] none) ∧
  (∀ (x : LaneId) (s : State) (r : LeRun) (rest : List LeRun) (w : Nat), Running x 0x0B s r rest w → 128 ≤ dOf w →
    ∃ t, exec (.leSel x .clean) s = .next t ∧
      Writes x s t r rest (dOf w) [if condOf r (modOf w) then (s.lane x).sig (aOf w) else (s.lane x).sig (bOf w)] none) ∧
  (∀ (x : LaneId) (s : State) (r : LeRun) (rest : List LeRun) (w : Nat), Running x 0x06 s r rest w → dOf w < 128 →
    ∃ t, exec (.leMov x .clean) s = .next t ∧ OnlyLane x s t ∧ Raised 35 (s.lane x) (t.lane x) ∧
      (t.lane x).le = { (s.lane x).le with runs := { r with pc := (r.pc + 1) % 4096 } :: rest } ∧
      Touches (.le :: raiseParts 35) (raiseRegs 35) (s.lane x) (t.lane x))

/-- The transforms (R151, R154, R155): each rounds every word it writes once from an exact sum, and S shows whether any saturated; SCS leaves S. Whatever their operands, and wherever they write,
the program goes on with the next instruction. PRK and IPK
are stated by their sums, CLK, SCS, SVM, RCP and SQR by the functions of LeMath.lean. -/
def Obligations.LeTransformInstructions : Prop :=
  (∀ (x : LaneId) (s : State) (r : LeRun) (rest : List LeRun) (w : Nat), Running x 0x18 s r rest w → 128 ≤ dOf w → dOf w < 4095 →
    ∃ t, exec (.leClk x .clean) s = .next t ∧
      Writes x s t r rest (dOf w)
        (satWords (clarke (bitAt (modOf w) 0) ((List.range 3).map fun i => (s.lane x).sig (aOf w + i)))).1
        (some (satWords (clarke (bitAt (modOf w) 0) ((List.range 3).map fun i => (s.lane x).sig (aOf w + i)))).2)) ∧
  (∀ (x : LaneId) (s : State) (r : LeRun) (rest : List LeRun) (w : Nat) (al be sn cs : Int), Running x 0x19 s r rest w → 128 ≤ dOf w →
    dOf w < 4095 → al = (s.lane x).sigI (aOf w) → be = (s.lane x).sigI (aOf w + 1) → sn = (s.lane x).sigI (bOf w) →
    cs = (s.lane x).sigI (bOf w + 1) →
    ∃ t, exec (.lePrk x .clean) s = .next t ∧
      Writes x s t r rest (dOf w)
        [uns 32 (satW 32 (roundDiv (al * cs + be * sn) (2 ^ 30))), uns 32 (satW 32 (roundDiv (be * cs - al * sn) (2 ^ 30)))]
        (some (satHit 32 (roundDiv (al * cs + be * sn) (2 ^ 30)) || satHit 32 (roundDiv (be * cs - al * sn) (2 ^ 30))))) ∧
  (∀ (x : LaneId) (s : State) (r : LeRun) (rest : List LeRun) (w : Nat) (d q sn cs : Int), Running x 0x1A s r rest w → 128 ≤ dOf w →
    dOf w < 4095 → d = (s.lane x).sigI (aOf w) → q = (s.lane x).sigI (aOf w + 1) → sn = (s.lane x).sigI (bOf w) →
    cs = (s.lane x).sigI (bOf w + 1) →
    ∃ t, exec (.leIpk x .clean) s = .next t ∧
      Writes x s t r rest (dOf w)
        [uns 32 (satW 32 (roundDiv (d * cs - q * sn) (2 ^ 30))), uns 32 (satW 32 (roundDiv (d * sn + q * cs) (2 ^ 30)))]
        (some (satHit 32 (roundDiv (d * cs - q * sn) (2 ^ 30)) || satHit 32 (roundDiv (d * sn + q * cs) (2 ^ 30))))) ∧
  (∀ (x : LaneId) (s : State) (r : LeRun) (rest : List LeRun) (w : Nat), Running x 0x1B s r rest w → 128 ≤ dOf w → dOf w < 4095 →
    ∃ t, exec (.leScs x .clean) s = .next t ∧
      Writes x s t r rest (dOf w) ((scs ((s.lane x).sig (aOf w) % 65536)).map fun i => uns 32 (satW 32 i)) none) ∧
  (∀ (x : LaneId) (s : State) (r : LeRun) (rest : List LeRun) (w : Nat), Running x 0x1C s r rest w → 128 ≤ dOf w → dOf w < 4094 →
    ∃ t, exec (.leSvm x .clean) s = .next t ∧
      Writes x s t r rest (dOf w)
        ((svm (modOf w) [(s.lane x).sig (aOf w), (s.lane x).sig (aOf w + 1), (s.lane x).sig (bOf w)]).1.map (uns 32))
        (some (svm (modOf w) [(s.lane x).sig (aOf w), (s.lane x).sig (aOf w + 1), (s.lane x).sig (bOf w)]).2)) ∧
  (∀ (x : LaneId) (s : State) (r : LeRun) (rest : List LeRun) (w : Nat), Running x 0x1D s r rest w → 128 ≤ dOf w →
    ∃ t, exec (.leRcp x .clean) s = .next t ∧
      Writes x s t r rest (dOf w) [uns 32 (rcp ((s.lane x).sig (aOf w))).1] (some (rcp ((s.lane x).sig (aOf w))).2)) ∧
  (∀ (x : LaneId) (s : State) (r : LeRun) (rest : List LeRun) (w : Nat), Running x 0x1E s r rest w → 128 ≤ dOf w →
    ∃ t, exec (.leSqr x .clean) s = .next t ∧
      Writes x s t r rest (dOf w) [uns 32 (sqr ((s.lane x).sig (aOf w))).1] (some (sqr ((s.lane x).sig (aOf w))).2)) ∧
  (∀ (x : LaneId) (s : State) (r : LeRun) (rest : List LeRun) (w : Nat), Running x 0x18 s r rest w →
    ∃ t, exec (.leClk x .clean) s = .next t ∧ WentOn x s t r rest) ∧
  (∀ (x : LaneId) (s : State) (r : LeRun) (rest : List LeRun) (w : Nat), Running x 0x19 s r rest w →
    ∃ t, exec (.lePrk x .clean) s = .next t ∧ WentOn x s t r rest) ∧
  (∀ (x : LaneId) (s : State) (r : LeRun) (rest : List LeRun) (w : Nat), Running x 0x1A s r rest w →
    ∃ t, exec (.leIpk x .clean) s = .next t ∧ WentOn x s t r rest) ∧
  (∀ (x : LaneId) (s : State) (r : LeRun) (rest : List LeRun) (w : Nat), Running x 0x1B s r rest w →
    ∃ t, exec (.leScs x .clean) s = .next t ∧ WentOn x s t r rest) ∧
  (∀ (x : LaneId) (s : State) (r : LeRun) (rest : List LeRun) (w : Nat), Running x 0x1C s r rest w →
    ∃ t, exec (.leSvm x .clean) s = .next t ∧ WentOn x s t r rest) ∧
  (∀ (x : LaneId) (s : State) (r : LeRun) (rest : List LeRun) (w : Nat), Running x 0x1D s r rest w →
    ∃ t, exec (.leRcp x .clean) s = .next t ∧ WentOn x s t r rest) ∧
  (∀ (x : LaneId) (s : State) (r : LeRun) (rest : List LeRun) (w : Nat), Running x 0x1E s r rest w →
    ∃ t, exec (.leSqr x .clean) s = .next t ∧ WentOn x s t r rest)

/-- The compensator macros (R187, R194, R195, R198): C22, C33 and NTC write the limited sum of their form to s[D] and as y[k−1], and move their history on by
one step; under HOLD C22 writes y[k−1] to s[D] and keeps its state. A SAT with MOD[3] adds what it cut off to the y[k−1] of its record's last step. -/
def Obligations.LeCompensatorInstructions : Prop :=
  (∀ (x : LaneId) (s : State) (r : LeRun) (rest : List LeRun) (w k b : Nat) (c : Nat → Int), Running x 0x10 s r rest w →
    128 ≤ dOf w → b = bOf w → 128 ≤ b → b < 4093 → k = (s.lane x).recordOf (kOf w) →
    (dOf w < b ∨ b + 3 < dOf w) →
    (s.lane x).held k = false → (s.lane x).recWord k 15 % 16 = 1 → (∀ i, c i = sgn 32 ((s.lane x).recWord k i)) →
    ∃ t v, exec (.leC22 x .clean) s = .next t ∧ OnlyLane x s t ∧ Touches [.le, .fc, .fm] (fields [] [Reg.FC_BR_STAT_LOCKED 0, Reg.FC_BR_STAT_LOCKED 1]) (s.lane x) (t.lane x) ∧
      v = accRound (accSum (0, false) ([c 0 * (s.lane x).sigI (aOf w), c 1 * (s.lane x).sigI b, c 2 * (s.lane x).sigI (b + 1),
        -(c 4 * (s.lane x).sigI (b + 2)), -(c 5 * (s.lane x).sigI (b + 3))].map (· * 8))) false ∧
      (t.lane x).sig (dOf w) = uns 32 (min (max v.1 (c 13)) (c 12)) ∧ (t.lane x).sig (b + 2) = uns 32 (min (max v.1 (c 13)) (c 12)) ∧
      (t.lane x).sig b = (s.lane x).sig (aOf w) % 2 ^ 32 ∧ (t.lane x).sig (b + 1) = (s.lane x).sig b % 2 ^ 32 ∧
      (t.lane x).sig (b + 3) = (s.lane x).sig (b + 2) % 2 ^ 32) ∧
  (∀ (x : LaneId) (s : State) (r : LeRun) (rest : List LeRun) (w k b : Nat) (c : Nat → Int), Running x 0x11 s r rest w →
    128 ≤ dOf w → b = bOf w → 128 ≤ b → b < 4091 → k = (s.lane x).recordOf (kOf w) →
    (dOf w < b ∨ b + 5 < dOf w) →
    (s.lane x).held k = false → (s.lane x).recWord k 15 % 16 = 2 → (∀ i, c i = sgn 32 ((s.lane x).recWord k i)) →
    ∃ t v, exec (.leC33 x .clean) s = .next t ∧ OnlyLane x s t ∧ Touches [.le, .fc, .fm] (fields [] [Reg.FC_BR_STAT_LOCKED 0, Reg.FC_BR_STAT_LOCKED 1]) (s.lane x) (t.lane x) ∧
      v = accRound (accSum (0, false) ([c 0 * (s.lane x).sigI (aOf w), c 1 * (s.lane x).sigI b, c 2 * (s.lane x).sigI (b + 1),
        c 3 * (s.lane x).sigI (b + 2), -(c 4 * (s.lane x).sigI (b + 3)), -(c 5 * (s.lane x).sigI (b + 4)),
        -(c 6 * (s.lane x).sigI (b + 5))].map (· * 8))) false ∧
      (t.lane x).sig (dOf w) = uns 32 (min (max v.1 (c 13)) (c 12)) ∧ (t.lane x).sig (b + 3) = uns 32 (min (max v.1 (c 13)) (c 12)) ∧
      (t.lane x).sig b = (s.lane x).sig (aOf w) % 2 ^ 32 ∧ (t.lane x).sig (b + 1) = (s.lane x).sig b % 2 ^ 32 ∧
      (t.lane x).sig (b + 2) = (s.lane x).sig (b + 1) % 2 ^ 32 ∧ (t.lane x).sig (b + 4) = (s.lane x).sig (b + 3) % 2 ^ 32 ∧
      (t.lane x).sig (b + 5) = (s.lane x).sig (b + 4) % 2 ^ 32) ∧
  (∀ (x : LaneId) (s : State) (r : LeRun) (rest : List LeRun) (w k b : Nat) (c : Nat → Int), Running x 0x12 s r rest w →
    128 ≤ dOf w → b = bOf w → 128 ≤ b → b < 4093 → k = (s.lane x).recordOf (kOf w) →
    (dOf w < b ∨ b + 3 < dOf w) →
    (s.lane x).held k = false → (s.lane x).recWord k 15 % 16 = 3 → (∀ i, c i = sgn 32 ((s.lane x).recWord k i)) →
    ∃ t v, exec (.leNtc x .clean) s = .next t ∧ OnlyLane x s t ∧ Touches [.le, .fc, .fm] (fields [] [Reg.FC_BR_STAT_LOCKED 0, Reg.FC_BR_STAT_LOCKED 1]) (s.lane x) (t.lane x) ∧
      v = accRound (accSum (0, false) ([c 0 * ((s.lane x).sigI (aOf w) + (s.lane x).sigI (b + 1)), c 1 * (s.lane x).sigI b,
        -(c 4 * (s.lane x).sigI (b + 2)), -(c 5 * (s.lane x).sigI (b + 3))].map (· * 8))) false ∧
      (t.lane x).sig (dOf w) = uns 32 (min (max v.1 (c 13)) (c 12)) ∧ (t.lane x).sig (b + 2) = uns 32 (min (max v.1 (c 13)) (c 12)) ∧
      (t.lane x).sig b = (s.lane x).sig (aOf w) % 2 ^ 32 ∧ (t.lane x).sig (b + 1) = (s.lane x).sig b % 2 ^ 32 ∧
      (t.lane x).sig (b + 3) = (s.lane x).sig (b + 2) % 2 ^ 32) ∧
  (∀ (x : LaneId) (s : State) (r : LeRun) (rest : List LeRun) (w : Nat), Running x 0x10 s r rest w → 128 ≤ dOf w →
    (s.lane x).held ((s.lane x).recordOf (kOf w)) = true →
    ∃ t, exec (.leC22 x .clean) s = .next t ∧ OnlyLane x s t ∧ (t.lane x).sig (dOf w) = (s.lane x).sig (bOf w + 2) % 2 ^ 32 ∧
      ∀ a, a % 4096 ≠ dOf w → (t.lane x).sig a = (s.lane x).sig a) ∧
  (∀ (x : LaneId) (s : State) (r : LeRun) (rest : List LeRun) (w y : Nat) (a v : Int), Running x 0x0A s r rest w → 128 ≤ dOf w →
    (s.lane x).windupWord r w = some y → 128 ≤ y → y < 4096 → y ≠ dOf w → a = (s.lane x).sigI (aOf w) →
    v = min (max a ((s.lane x).sigI (bOf w))) ((s.lane x).sigI (bOf w + 1)) →
    ∃ t, exec (.leSat x .clean) s = .next t ∧ OnlyLane x s t ∧ (t.lane x).sig (dOf w) = uns 32 v ∧
      (t.lane x).sig y = uns 32 (satW 32 ((s.lane x).sigI y + (v - a))) ∧
      ∀ j, j % 4096 ≠ dOf w → j % 4096 ≠ y → (t.lane x).sig j = (s.lane x).sig j)

/-- SKP passes over N + 1 words where its condition holds; OUT stages its words, three for an FC port (R161); WAIT completes at once on an event seen, using up the
firmware event, and waits else (R159); END (R166) ends the run and counts it, and commits its staged words: three duties for an FC port, and the words of an
element that the loop engine owns. The two ends of a WAIT (R158 to R160): on its event, the firmware event being used up, T is cleared and the program goes on; at its timeout T and TIMEOUT are set and "wait timeout" (source 34) is
raised. A run whose deadline passed meanwhile ends there as a miss (R168). -/
def Obligations.LeControlAndWaits : Prop :=
  (∀ (x : LaneId) (s : State) (r : LeRun) (rest : List LeRun) (w : Nat), Running x 0x0C s r rest w →
    ∃ t, exec (.leSkp x .clean) s = .next t ∧
      RunBecomes x s t { r with pc := (r.pc + if condOf r (modOf w) then nOf w + 2 else 1) % 4096 } rest) ∧
  (∀ (x : LaneId) (s : State) (r : LeRun) (rest : List LeRun) (w : Nat), Running x 0x30 s r rest w →
    ∃ t, exec (.leOut x .clean) s = .next t ∧
      RunBecomes x s t { r with
        pc := (r.pc + 1) % 4096
        staged := r.staged ++ [⟨modOf w, kOf w,
          (List.range (if modOf w < 2 then 3 else nOf w + 1)).map fun i => (s.lane x).sig (aOf w + i)⟩] } rest) ∧
  (∀ (x : LaneId) (s : State) (r : LeRun) (rest : List LeRun) (w : Nat), Running x 0x31 s r rest w →
    (s.lane x).occurred r (modOf w) = true → modOf w ≠ 3 →
    ∃ t, exec (.leWait x .clean) s = .next t ∧ RunBecomes x s t { r with pc := (r.pc + 1) % 4096, t := false } rest) ∧
  (∀ (x : LaneId) (s : State) (r : LeRun) (rest : List LeRun) (w : Nat), Running x 0x31 s r rest w → modOf w = 3 →
    (s.lane x).bit Reg.LE_FIRE_EVT = true →
    ∃ t, exec (.leWait x .clean) s = .next t ∧ OnlyLane x s t ∧ (t.lane x).bit Reg.LE_FIRE_EVT = false ∧
      (t.lane x).le = { (s.lane x).le with runs := { r with pc := (r.pc + 1) % 4096, t := false } :: rest } ∧
      Touches [.le, .fm] (fields [] [Reg.LE_FIRE_EVT]) (s.lane x) (t.lane x)) ∧
  (∀ (x : LaneId) (s : State) (r : LeRun) (rest : List LeRun) (w : Nat), Running x 0x31 s r rest w →
    (s.lane x).occurred r (modOf w) = false →
    ∃ t, exec (.leWait x .clean) s = .next t ∧ RunBecomes x s t { r with wait := some (s.lane x).now } rest) ∧
  (∀ (x : LaneId) (n : Fin 8) (s : State) (r : LeRun) (rest : List LeRun) (w : Nat), Running x 0x3F s r rest w → r.trig = n →
    r.replay = false → (s.lane x).stage ≠ 4 → (s.lane x).le.pending = [] →
    (∀ o ∈ r.staged, o.port < 2 ∨ ((s.lane x).portTwo n o.elem = true ∧ ((s.lane x).desc .lane o.elem).src = 1)) →
    ∃ t, exec (.leEnd x .clean) s = .next t ∧ OnlyLane x s t ∧ (t.lane x).le.runs = rest ∧
      (t.lane x).get (Reg.LE_TRIG_STAT_RUNS n) = ((s.lane x).get (Reg.LE_TRIG_STAT_RUNS n) + 1) % 2 ^ 16 ∧
      (t.lane x).bit Reg.LE_STAT_ACTIVE = !rest.isEmpty ∧
      (∀ b, b < 2 → ((t.lane x).br b).commits =
        ((r.staged.filter fun o => o.port = b).map fun o => ((s.lane x).now, o.words.map (sgn 32))).reverse ++ ((s.lane x).br b).commits) ∧
      (∀ o, o ∈ r.staged → (r.staged.filter fun q => 2 ≤ q.port ∧ q.elem = o.elem) = [o] →
        ((t.lane x).elem .lane o.elem).words = o.words ∧ ((t.lane x).elem .lane o.elem).fresh = true) ∧
      Touches [.le, .fc, .xf, .ts, .cp, .fm] (fields [0x4001] [Reg.PM_STAT_STATE, Reg.LE_TRIG_STAT_RUNS n, Reg.LE_TRIG_STAT_SATUR n,
        Reg.LE_STAT_ACTIVE, Reg.LE_STAT_PEND, Reg.LE_STAT_CUR, Reg.LE_CBANK_BANK]) (s.lane x) (t.lane x)) ∧
  (∀ (x : LaneId) (s : State) (r : LeRun) (rest : List LeRun) (t0 : Nat), (s.lane x).up = true → (s.lane x).le.runs = r :: rest →
    (s.lane x).now < r.deadline → r.wait = some t0 → modOf ((s.lane x).prog r.pc) ≠ 3 →
    (s.lane x).occurred r (modOf ((s.lane x).prog r.pc)) = true →
    ∃ t, exec (.waitEventComplete x) s = .next t ∧
      RunBecomes x s t { r with pc := (r.pc + 1) % 4096, t := false, wait := none } rest) ∧
  (∀ (x : LaneId) (s : State) (r : LeRun) (rest : List LeRun) (t0 : Nat), (s.lane x).up = true → (s.lane x).le.runs = r :: rest →
    (s.lane x).now < r.deadline → r.wait = some t0 → modOf ((s.lane x).prog r.pc) = 3 → (s.lane x).bit Reg.LE_FIRE_EVT = true →
    ∃ t, exec (.waitEventComplete x) s = .next t ∧ OnlyLane x s t ∧ (t.lane x).bit Reg.LE_FIRE_EVT = false ∧
      (t.lane x).le = { (s.lane x).le with runs := { r with pc := (r.pc + 1) % 4096, t := false, wait := none } :: rest } ∧
      Touches [.le, .fm] (fields [] [Reg.LE_FIRE_EVT]) (s.lane x) (t.lane x)) ∧
  (∀ (x : LaneId) (n : Fin 8) (s : State) (r : LeRun) (rest : List LeRun) (T : Nat), (s.lane x).up = true →
    (s.lane x).le.runs = r :: rest → (s.lane x).waitDue = some T → r.trig = n → ((s.reach x T).lane x).now < r.deadline →
    (s.lane x).occurred r (modOf ((s.lane x).prog r.pc)) = false →
    ∃ t, exec (.waitTimeout x) s = .next t ∧ OnlyLane x (s.reach x T) t ∧ Raised 34 ((s.reach x T).lane x) (t.lane x) ∧
      (t.lane x).bit (Reg.LE_TRIG_STAT_TIMEOUT n) = true ∧
      (t.lane x).le = { (s.lane x).le with runs := { r with pc := (r.pc + 1) % 4096, t := true, wait := none } :: rest } ∧
      Touches (.le :: raiseParts 34) (raiseAnd 34 [Reg.LE_TRIG_STAT_TIMEOUT n]) ((s.reach x T).lane x) (t.lane x)) ∧
  (∀ (x : LaneId) (n : Fin 8) (s : State) (r : LeRun) (rest : List LeRun) (t0 : Nat), (s.lane x).up = true → (s.lane x).le.runs = r :: rest →
    (s.lane x).le.pending = [] → r.trig = n → r.deadline ≤ (s.lane x).now → r.wait = some t0 →
    (s.lane x).occurred r (modOf ((s.lane x).prog r.pc)) = true →
    ∃ t, exec (.waitEventComplete x) s = .next t ∧ OnlyLane x s t ∧ (t.lane x).le.runs = rest ∧
      (t.lane x).bit (Reg.LE_TRIG_STAT_MISS n) = true ∧ Raised 32 (s.lane x) (t.lane x)) ∧
  (∀ (x : LaneId) (n : Fin 8) (s : State) (r : LeRun) (rest : List LeRun) (T : Nat), (s.lane x).up = true →
    (s.lane x).le.runs = r :: rest → (s.lane x).le.pending = [] → (s.lane x).waitDue = some T → r.trig = n →
    r.deadline ≤ ((s.reach x T).lane x).now → (s.lane x).occurred r (modOf ((s.lane x).prog r.pc)) = false →
    ∃ t, exec (.waitTimeout x) s = .next t ∧ OnlyLane x (s.reach x T) t ∧ (t.lane x).le.runs = rest ∧
      (t.lane x).bit (Reg.LE_TRIG_STAT_TIMEOUT n) = true ∧ (t.lane x).bit (Reg.LE_TRIG_STAT_MISS n) = true)

/-! ### The loop engine's other commands -/

/-- Firings (R140 to R145): a firing is taken once in a tick. With no program running or waiting it is dispatched: its program stands at its entry, accumulator clear,
nothing staged, with its deadline; beside a running program of the same or a lower trigger number it waits; one of a trigger that is busy sets OVR and raises source 33, its
program unchanged; one that was taken already in the tick changes nothing. A write of LE_FIRE.FIRE that names one trigger fires it as a source event does; LE_FIRE.EVT sets the firmware event (R159). DEADLINE_MISS (R168, R169): the running program (one in a WAIT, at the end of that instruction), the pre-empted one or the waiting firing of the trigger ends at its deadline: MISS is set, the miss counted, source 32 raised and
nothing of it committed. PACE_MEASUREMENT (R164): the reading is shown, up to 4,095; one of at most 1,024 ends the succession, one above counts, and the sixteenth
in succession raises source 36. -/
def Obligations.LeFiringsDeadlinesAndPace : Prop :=
  (∀ (x : LaneId) (n : Fin 8) (s : State) (r : LeRun) (rest : List LeRun), (s.lane x).up = true → (s.lane x).hasSource n = true →
    (s.lane x).acceptsFiring n = true → (s.lane x).firedNow n = false → (s.lane x).busyTrig n = false → (s.lane x).le.swap = none →
    (s.lane x).le.runs = r :: rest → r.trig ≤ n →
    ∃ t, exec (.triggerFiring x n) s = .next t ∧ OnlyLane x s t ∧ (t.lane x).le.runs = (s.lane x).le.runs ∧
      (t.lane x).le.pending = (s.lane x).le.pending ++ [⟨n, (s.lane x).now, (s.lane x).now + (s.lane x).get (Reg.LE_TRIG_DL_DL n)⟩] ∧
      Touches [.le, .fm] (fields [] [Reg.LE_STAT_ACTIVE, Reg.LE_STAT_PEND, Reg.LE_STAT_CUR]) (s.lane x) (t.lane x)) ∧
  (∀ (x : LaneId) (n : Fin 8) (s : State), (s.lane x).up = true → (s.lane x).hasSource n = true →
    (s.lane x).acceptsFiring n = true → (s.lane x).firedNow n = false → (s.lane x).busyTrig n = true →
    ∃ t, exec (.triggerFiring x n) s = .next t ∧ OnlyLane x s t ∧ (t.lane x).bit (Reg.LE_TRIG_STAT_OVR n) = true ∧
      (t.lane x).le.runs = (s.lane x).le.runs ∧ (t.lane x).le.pending = (s.lane x).le.pending ∧
      Raised 33 (s.lane x) (t.lane x) ∧ Touches (.le :: raiseParts 33) (raiseAnd 33 [Reg.LE_TRIG_STAT_OVR n]) (s.lane x) (t.lane x)) ∧
  (∀ (x : LaneId) (n : Fin 8) (s : State), (s.lane x).up = true → (s.lane x).hasSource n = true →
    (s.lane x).acceptsFiring n = true → (s.lane x).firedNow n = false → (s.lane x).le.swap = none → (s.lane x).le.runs = [] →
    (s.lane x).le.pending = [] →
    ∃ t r, exec (.triggerFiring x n) s = .next t ∧ OnlyLane x s t ∧ (t.lane x).le.runs = [r] ∧ (t.lane x).le.pending = [] ∧ r.trig = n ∧
      r.pc = (s.lane x).get (Reg.LE_TRIG_CFG_ENTRY n) ∧ r.deadline = (s.lane x).now + (s.lane x).get (Reg.LE_TRIG_DL_DL n) ∧ r.acc = 0 ∧
      r.staged = []) ∧
  (∀ (x : LaneId) (n : Fin 8) (s : State), (s.lane x).up = true → (s.lane x).firedNow n = true →
    ∃ t, exec (.triggerFiring x n) s = .next t ∧ OnlyLane x s t ∧ Touches [.fm] noRegs (s.lane x) (t.lane x)) ∧
  (∀ (x : LaneId) (n : Fin 8) (s : State), (s.lane x).up = true → (s.lane x).acceptsFiring n = true → (s.lane x).firedNow n = false →
    (s.lane x).busyTrig n = true →
    ∃ t, exec (.leFireFire x (BitVec.ofNat 8 (2 ^ n.val))) s = .next t ∧ OnlyLane x s t ∧
      (t.lane x).bit (Reg.LE_TRIG_STAT_OVR n) = true ∧ Raised 33 (s.lane x) (t.lane x) ∧
      Touches (.le :: raiseParts 33) (raiseAnd 33 [Reg.LE_TRIG_STAT_OVR n]) (s.lane x) (t.lane x)) ∧
  (∀ (x : LaneId) (n : Fin 8) (s : State) (r : LeRun) (rest : List LeRun), (s.lane x).up = true → (s.lane x).acceptsFiring n = true →
    (s.lane x).firedNow n = false → (s.lane x).busyTrig n = false → (s.lane x).le.swap = none → (s.lane x).le.runs = r :: rest → r.trig ≤ n →
    ∃ t, exec (.leFireFire x (BitVec.ofNat 8 (2 ^ n.val))) s = .next t ∧ OnlyLane x s t ∧ (t.lane x).le.runs = (s.lane x).le.runs ∧
      (t.lane x).le.pending =
        (s.lane x).le.pending ++ [⟨n, (s.lane x).now, (s.lane x).now + (s.lane x).get (Reg.LE_TRIG_DL_DL n)⟩] ∧
      Touches [.le, .fm] (fields [] [Reg.LE_STAT_ACTIVE, Reg.LE_STAT_PEND, Reg.LE_STAT_CUR]) (s.lane x) (t.lane x)) ∧
  (∀ (x : LaneId) (n : Fin 8) (s : State), (s.lane x).up = true → (s.lane x).acceptsFiring n = true → (s.lane x).firedNow n = false →
    (s.lane x).le.swap = none → (s.lane x).le.runs = [] → (s.lane x).le.pending = [] →
    ∃ t r, exec (.leFireFire x (BitVec.ofNat 8 (2 ^ n.val))) s = .next t ∧ OnlyLane x s t ∧ (t.lane x).le.runs = [r] ∧ r.trig = n ∧
      r.pc = (s.lane x).get (Reg.LE_TRIG_CFG_ENTRY n) ∧ r.deadline = (s.lane x).now + (s.lane x).get (Reg.LE_TRIG_DL_DL n)) ∧
  (∀ (x : LaneId) (s : State), (s.lane x).up = true →
    ∃ t, exec (.leFireEvt x) s = .next t ∧ OnlyLane x s t ∧ (t.lane x).bit Reg.LE_FIRE_EVT = true ∧
      Touches [.fm] (fields [] [Reg.LE_FIRE_EVT]) (s.lane x) (t.lane x)) ∧
  (∀ (x : LaneId) (n : Fin 8) (s : State) (r : LeRun) (rest : List LeRun), (s.lane x).up = true → (s.lane x).le.runs = r :: rest →
    r.trig = n → r.wait = none → (s.lane x).le.pending = [] →
    ∃ t, exec (.deadlineMiss x n) s = .next t ∧ OnlyLane x (s.reach x r.deadline) t ∧ (t.lane x).le.runs = rest ∧
      (t.lane x).bit (Reg.LE_TRIG_STAT_MISS n) = true ∧ Raised 32 ((s.reach x r.deadline).lane x) (t.lane x) ∧
      (t.lane x).get Reg.LE_CNT_MISS_COUNT = min ((s.lane x).get Reg.LE_CNT_MISS_COUNT + 1) (2 ^ 32 - 1) ∧
      Touches (.le :: .xf :: raiseParts 32) (raiseAnd 32 [Reg.LE_TRIG_STAT_MISS n, Reg.LE_TRIG_STAT_SATUR n, Reg.LE_CNT_MISS_COUNT,
        Reg.LE_STAT_ACTIVE, Reg.LE_STAT_PEND, Reg.LE_STAT_CUR, Reg.LE_CBANK_BANK]) ((s.reach x r.deadline).lane x) (t.lane x)) ∧
  (∀ (x : LaneId) (n : Fin 8) (s : State) (f : Firing), (s.lane x).up = true → (s.lane x).le.runs.any (·.trig = n.val) = false →
    (s.lane x).le.pending.find? (·.trig = n.val) = some f →
    ∃ t, exec (.deadlineMiss x n) s = .next t ∧ OnlyLane x (s.reach x f.deadline) t ∧ (t.lane x).le.runs = (s.lane x).le.runs ∧
      (t.lane x).le.pending = (s.lane x).le.pending.filter (·.trig ≠ n.val) ∧
      (t.lane x).bit (Reg.LE_TRIG_STAT_MISS n) = true ∧ Raised 32 ((s.reach x f.deadline).lane x) (t.lane x) ∧
      (t.lane x).get Reg.LE_CNT_MISS_COUNT = min ((s.lane x).get Reg.LE_CNT_MISS_COUNT + 1) (2 ^ 32 - 1) ∧
      Touches (.le :: .xf :: raiseParts 32) (raiseAnd 32 [Reg.LE_TRIG_STAT_MISS n, Reg.LE_CNT_MISS_COUNT,
        Reg.LE_STAT_ACTIVE, Reg.LE_STAT_PEND, Reg.LE_STAT_CUR]) ((s.reach x f.deadline).lane x) (t.lane x)) ∧
  (∀ (x : LaneId) (pace : Nat) (s : State), (s.lane x).up = true → pace ≤ 1024 →
    ∃ t, exec (.paceMeasurement x pace) s = .next t ∧ OnlyLane x s t ∧ (t.lane x).get Reg.LE_STAT_PACE = pace ∧
      (t.lane x).le = { (s.lane x).le with pace := 0 } ∧ Touches [.le, .fm] (fields [] [Reg.LE_STAT_PACE]) (s.lane x) (t.lane x)) ∧
  (∀ (x : LaneId) (pace : Nat) (s : State), (s.lane x).up = true → 1024 < pace → (s.lane x).le.pace ≠ 15 →
    ∃ t, exec (.paceMeasurement x pace) s = .next t ∧ OnlyLane x s t ∧ (t.lane x).get Reg.LE_STAT_PACE = min pace 4095 ∧
      (t.lane x).le = { (s.lane x).le with pace := min 16 ((s.lane x).le.pace + 1) } ∧
      Touches [.le, .fm] (fields [] [Reg.LE_STAT_PACE]) (s.lane x) (t.lane x)) ∧
  (∀ (x : LaneId) (pace : Nat) (s : State), (s.lane x).up = true → 1024 < pace → (s.lane x).le.pace = 15 →
    ∃ t, exec (.paceMeasurement x pace) s = .next t ∧ OnlyLane x s t ∧ (t.lane x).get Reg.LE_STAT_PACE = min pace 4095 ∧
      (t.lane x).le.pace = 16 ∧ Raised 36 (s.lane x) (t.lane x) ∧
      Touches (.le :: raiseParts 36) (raiseAnd 36 [Reg.LE_STAT_PACE]) (s.lane x) (t.lane x)) ∧
  (∀ (x : LaneId) (n : Fin 8) (s : State) (r : LeRun) (rest : List LeRun), (s.lane x).up = true → (s.lane x).le.runs = r :: rest →
    r.trig = n → r.wait.isSome = true →
    ∃ t, exec (.deadlineMiss x n) s = .next t ∧ OnlyLane x (s.reach x r.deadline) t ∧
      Touches [.fm] noRegs ((s.reach x r.deadline).lane x) (t.lane x)) ∧
  (∀ (x : LaneId) (n : Fin 8) (s : State) (r q : LeRun) (rest : List LeRun), (s.lane x).up = true → (s.lane x).le.runs = r :: rest →
    r.trig ≠ n → rest.find? (·.trig = n.val) = some q →
    ∃ t, exec (.deadlineMiss x n) s = .next t ∧ OnlyLane x (s.reach x q.deadline) t ∧
      (t.lane x).le.runs = r :: rest.filter (·.trig ≠ n.val) ∧
      (t.lane x).bit (Reg.LE_TRIG_STAT_MISS n) = true ∧ Raised 32 ((s.reach x q.deadline).lane x) (t.lane x))

/-- TRIGGER_ENABLE (R173, R176): a disabled trigger starts its scan, EN still 0; during a scan the write is refused. SCAN_END (R174): EN is set where no check fails,
and REASON names the first that does, unless a word of the region has an uncorrectable error, which is raised as source 10 (R134); after the scan of a swap the swap is pending, or it is refused and GO reads 0. PROGRAM_SWAP (R177 to R179): a swap of an enabled trigger,
at its next firing or at a cycle of an outer trigger that lies ahead, starts its scan; while one is pending it is refused. -/
def Obligations.LeScansAndSwaps : Prop :=
  (∀ (x : LaneId) (n : Fin 8) (v : Word) (s : State), (s.lane x).up = true → (s.lane x).bit (Reg.LE_TRIG_STAT_SCAN n) = false →
    (s.lane x).bit (Reg.LE_TRIG_CFG_EN n) = false →
    ∃ t, exec (.triggerEnable x n v) s = .next t ∧ OnlyLane x s t ∧ (t.lane x).bit (Reg.LE_TRIG_STAT_SCAN n) = true ∧
      (t.lane x).scanOf n = some none ∧ (t.lane x).bit (Reg.LE_TRIG_CFG_EN n) = false ∧
      (t.lane x).get (Reg.LE_TRIG_CFG_ENTRY n) = v.toNat % 2 ^ 12 ∧ (t.lane x).get (Reg.LE_TRIG_CFG_LIMIT n) = v.toNat / 2 ^ 12 % 2 ^ 12 ∧
      (t.lane x).get (Reg.LE_TRIG_CFG_SRC n) = v.toNat / 2 ^ 24 % 2 ^ 4 ∧
      Touches [.le, .fm] (fields [] [Reg.LE_TRIG_STAT_SCAN n, Reg.LE_TRIG_CFG_SRC n, Reg.LE_TRIG_CFG_LIMIT n, Reg.LE_TRIG_CFG_ENTRY n])
        (s.lane x) (t.lane x)) ∧
  (∀ (x : LaneId) (n : Fin 8) (v : Word) (s : State), (s.lane x).up = true → (s.lane x).bit (Reg.LE_TRIG_STAT_SCAN n) = true →
    ∃ t, exec (.triggerEnable x n v) s = .next t ∧ OnlyLane x s t ∧ Raised 35 (s.lane x) (t.lane x) ∧
      Touches (raiseParts 35) (raiseRegs 35) (s.lane x) (t.lane x)) ∧
  (∀ (x : LaneId) (n : Fin 8) (ecc : Lane × Bool) (s : State), (s.lane x).up = true → (s.lane x).scanOf n = some none →
    ecc = (s.lane x).readStores ((s.lane x).get (Reg.LE_TRIG_CFG_LIMIT n) + 1 - (s.lane x).get (Reg.LE_TRIG_CFG_ENTRY n)) →
    ∃ t reason, exec (.scanEnd x n) s = .next t ∧ OnlyLane x s t ∧
      (ecc.2 = false → reason = ((s.lane x).scan ((s.lane x).get (Reg.LE_TRIG_CFG_SRC n)) ((s.lane x).get (Reg.LE_TRIG_DL_DL n))
        ((s.lane x).get (Reg.LE_TRIG_CFG_ENTRY n)) ((s.lane x).get (Reg.LE_TRIG_CFG_LIMIT n))).1) ∧
      (ecc.2 = true → reason < 6 ∧ Raised 10 (s.lane x) (t.lane x)) ∧
      (t.lane x).bit (Reg.LE_TRIG_STAT_SCAN n) = false ∧ (t.lane x).get (Reg.LE_TRIG_STAT_REASON n) = reason ∧
      (t.lane x).bit (Reg.LE_TRIG_STAT_REFUSED n) = decide (reason ≠ 0) ∧ (t.lane x).bit (Reg.LE_TRIG_CFG_EN n) = decide (reason = 0) ∧
      Touches (.free :: .le :: raiseParts 10) (raiseAnd 10 [Reg.LE_CNT_ECC_COUNT, Reg.LE_TRIG_STAT_SCAN n, Reg.LE_TRIG_STAT_REASON n,
        Reg.LE_TRIG_STAT_REFUSED n, Reg.LE_TRIG_WCET_WCET n, Reg.LE_TRIG_CFG_EN n]) (s.lane x) (t.lane x)) ∧
  (∀ (x : LaneId) (v : Word) (n : Fin 8) (s : State), (s.lane x).up = true → (s.lane x).bit Reg.LE_SWAP_GO = false →
    v.toNat / 2 ^ 27 % 8 = n → bitAt v.toNat 30 = false → (s.lane x).bit (Reg.LE_TRIG_CFG_EN n) = true →
    ∃ t, exec (.programSwap x v) s = .next t ∧ OnlyLane x s t ∧ (t.lane x).bit Reg.LE_SWAP_GO = true ∧
      (t.lane x).bit (Reg.LE_TRIG_STAT_SCAN n) = true ∧
      (t.lane x).scanOf n = some (some ⟨n, v.toNat % 2 ^ 12, v.toNat / 2 ^ 12 % 2 ^ 12, none⟩) ∧
      Touches [.le, .fm] (fields [] [Reg.LE_SWAP_GO, Reg.LE_SWAP_AT_CYCLE, Reg.LE_SWAP_TRIG, Reg.LE_SWAP_NEW_LIMIT, Reg.LE_SWAP_NEW_ENTRY,
        Reg.LE_TRIG_STAT_SCAN n]) (s.lane x) (t.lane x)) ∧
  (∀ (x : LaneId) (v : Word) (n : Fin 8) (s : State), (s.lane x).up = true → (s.lane x).bit Reg.LE_SWAP_GO = false →
    v.toNat / 2 ^ 27 % 8 = n → bitAt v.toNat 30 = true → (s.lane x).bit (Reg.LE_TRIG_CFG_EN n) = true →
    (s.lane x).get (Reg.LE_TRIG_CFG_SRC n) = 7 → (s.lane x).cyclePassed ((s.lane x).get Reg.LE_SWAP_CYCLE_CYCLE) = false →
    ∃ t, exec (.programSwap x v) s = .next t ∧ OnlyLane x s t ∧ (t.lane x).bit Reg.LE_SWAP_GO = true ∧
      (t.lane x).bit (Reg.LE_TRIG_STAT_SCAN n) = true ∧
      (t.lane x).scanOf n = some (some ⟨n, v.toNat % 2 ^ 12, v.toNat / 2 ^ 12 % 2 ^ 12, some ((s.lane x).get Reg.LE_SWAP_CYCLE_CYCLE)⟩) ∧
      Touches [.le, .fm] (fields [] [Reg.LE_SWAP_GO, Reg.LE_SWAP_AT_CYCLE, Reg.LE_SWAP_TRIG, Reg.LE_SWAP_NEW_LIMIT, Reg.LE_SWAP_NEW_ENTRY,
        Reg.LE_TRIG_STAT_SCAN n]) (s.lane x) (t.lane x)) ∧
  (∀ (x : LaneId) (n : Fin 8) (p : Swap) (s : State), (s.lane x).up = true → (s.lane x).scanOf n = some (some p) →
    ∃ t reason, exec (.scanEnd x n) s = .next t ∧ OnlyLane x s t ∧ (t.lane x).bit (Reg.LE_TRIG_STAT_SCAN n) = false ∧
      (t.lane x).get (Reg.LE_TRIG_STAT_REASON n) = reason ∧ (t.lane x).bit (Reg.LE_TRIG_STAT_REFUSED n) = decide (reason ≠ 0) ∧
      (((s.lane x).readStores (p.limit + 1 - p.entry)).2 = false →
        ((s.lane x).scan ((s.lane x).get (Reg.LE_TRIG_CFG_SRC n)) ((s.lane x).get (Reg.LE_TRIG_DL_DL n)) p.entry p.limit).1 ≠ 0 → reason ≠ 0) ∧
      (((s.lane x).readStores (p.limit + 1 - p.entry)).2 = true → Raised 10 (s.lane x) (t.lane x)) ∧
      (t.lane x).le.swap = (if reason = 0 then some p else (s.lane x).le.swap) ∧ (reason ≠ 0 → (t.lane x).bit Reg.LE_SWAP_GO = false) ∧
      Touches (.free :: .le :: raiseParts 10) (raiseAnd 10 [Reg.LE_CNT_ECC_COUNT, Reg.LE_SWAP_GO, Reg.LE_TRIG_STAT_SCAN n,
        Reg.LE_TRIG_STAT_REASON n, Reg.LE_TRIG_STAT_REFUSED n, Reg.LE_TRIG_WCET_WCET n]) (s.lane x) (t.lane x)) ∧
  (∀ (x : LaneId) (v : Word) (s : State), (s.lane x).up = true → (s.lane x).bit Reg.LE_SWAP_GO = true →
    ∃ t, exec (.programSwap x v) s = .next t ∧ OnlyLane x s t ∧ Raised 35 (s.lane x) (t.lane x) ∧
      Touches (raiseParts 35) (raiseRegs 35) (s.lane x) (t.lane x))

/-- Core writes to the stores (R136, R137, R172, R188, R189): a program word takes effect as a whole with its high half; a word of an enabled region is refused; a
signal word of the input window is not written; a coefficient write of the banked configuration goes to the shadow bank, so that no program sees it, and is refused
above word 511 and while a swap of the record is pending; in the full configuration it takes effect at once. What holds for every instruction of the loop engine (R134, R137): one of STA to SEL or of the transforms that would write below s[128] writes nothing, leaves the
flags, and is raised as source 35; an instruction word with a corrected error is counted and acts as the clean one does; on an uncorrectable error the run ends with
nothing written, and source 10 is raised. -/
def Obligations.LeStoreWrites : Prop :=
  (∀ (x : LaneId) (i : Fin 4096) (v : Word) (s : State), (s.lane x).up = true → (s.lane x).progLocked i = false →
    ∃ t, exec (.programWordWrite x i false v) s = .next t ∧ OnlyLane x s t ∧ (t.lane x).le = { (s.lane x).le with low := some (i, v.toNat) } ∧
      Touches [.le, .fm] noRegs (s.lane x) (t.lane x)) ∧
  (∀ (x : LaneId) (i : Fin 4096) (v lo : Word) (s : State), (s.lane x).up = true → (s.lane x).progLocked i = false →
    (s.lane x).le.low = some (i.val, lo.toNat) →
    ∃ t, exec (.programWordWrite x i true v) s = .next t ∧ OnlyLane x s t ∧ (t.lane x).prog i = v.toNat * 2 ^ 32 + lo.toNat ∧
      (t.lane x).le.low = none ∧ (∀ j, j % 4096 ≠ i → (t.lane x).prog j = (s.lane x).prog j) ∧
      Touches [.le, .fm] noRegs (s.lane x) (t.lane x)) ∧
  (∀ (x : LaneId) (i : Fin 4096) (high : Bool) (v : Word) (s : State), (s.lane x).up = true → (s.lane x).progLocked i = true →
    ∃ t, exec (.programWordWrite x i high v) s = .next t ∧ OnlyLane x s t ∧ Raised 35 (s.lane x) (t.lane x) ∧
      Touches (raiseParts 35) (raiseRegs 35) (s.lane x) (t.lane x)) ∧
  (∀ (x : LaneId) (i : Fin 4096) (v : Word) (s : State), (s.lane x).up = true →
    ∃ t, exec (.signalWordWrite x i v) s = .next t ∧ OnlyLane x s t ∧
      (t.lane x).sig i = (if i.val < 128 then (s.lane x).sig i else v.toNat) ∧
      (∀ a, a % 4096 ≠ i → (t.lane x).sig a = (s.lane x).sig a) ∧
      Touches [.le, .fc, .fm] (fields [] [Reg.FC_BR_STAT_LOCKED 0, Reg.FC_BR_STAT_LOCKED 1]) (s.lane x) (t.lane x)) ∧
  (∀ (x : LaneId) (k : Fin 1024) (v : Word) (s : State), (s.lane x).up = true → (s.lane x).full = false → k.val < 512 →
    (s.lane x).swapPending (k / 16) = false →
    ∃ t, exec (.coeffWordWrite x k v) s = .next t ∧ OnlyLane x s t ∧ (t.lane x).phys ((s.lane x).windowAt k) = v.toNat ∧
      (∀ j, (t.lane x).coef j = (s.lane x).coef j) ∧ Touches [.le, .fm] noRegs (s.lane x) (t.lane x)) ∧
  (∀ (x : LaneId) (k : Fin 1024) (v : Word) (s : State), (s.lane x).up = true → (s.lane x).full = false → 512 ≤ k.val →
    ∃ t, exec (.coeffWordWrite x k v) s = .next t ∧ OnlyLane x s t ∧ Raised 35 (s.lane x) (t.lane x) ∧
      Touches (raiseParts 35) (raiseRegs 35) (s.lane x) (t.lane x)) ∧
  (∀ (x : LaneId) (k : Fin 1024) (v : Word) (s : State), (s.lane x).up = true → (s.lane x).full = false → k.val < 512 →
    (s.lane x).swapPending (k / 16) = true →
    ∃ t, exec (.coeffWordWrite x k v) s = .next t ∧ OnlyLane x s t ∧ Raised 35 (s.lane x) (t.lane x) ∧
      Touches (raiseParts 35) (raiseRegs 35) (s.lane x) (t.lane x)) ∧
  (∀ (x : LaneId) (k : Fin 1024) (v : Word) (s : State), (s.lane x).up = true → (s.lane x).full = true →
    ∃ t, exec (.coeffWordWrite x k v) s = .next t ∧ OnlyLane x s t ∧ (t.lane x).coef k = v.toNat ∧
      (∀ j, j % 1024 ≠ k → (t.lane x).coef j = (s.lane x).coef j) ∧ Touches [.le, .fm] noRegs (s.lane x) (t.lane x)) ∧
  (∀ (x : LaneId) (k : Fin 14) (s : State) (r : LeRun) (rest : List LeRun) (w : Nat), Running x (leOpcode k) s r rest w → dOf w < 128 →
    (leOpcode k = 0x0A → bitAt (modOf w) 3 = false) →
    ∃ t, exec (leCmd k x .clean) s = .next t ∧ OnlyLane x s t ∧ Raised 35 (s.lane x) (t.lane x) ∧
      (t.lane x).le = { (s.lane x).le with runs := { r with pc := (r.pc + 1) % 4096 } :: rest } ∧
      Touches (.le :: raiseParts 35) (raiseRegs 35) (s.lane x) (t.lane x)) ∧
  (∀ (x : LaneId) (k : Fin 26) (s : State) (r : LeRun) (rest : List LeRun) (w : Nat), Running x (leOpcode k) s r rest w →
    exec (leCmd k x .corrected) s = exec (leCmd k x .clean) (s.setLane x ((s.lane x).count Reg.LE_CNT_ECC_COUNT))) ∧
  (∀ (x : LaneId) (k : Fin 26) (s : State) (r : LeRun) (rest : List LeRun) (w : Nat), Running x (leOpcode k) s r rest w →
    (s.lane x).le.pending = [] → r.replay = false →
    ∃ t, exec (leCmd k x .uncorrectable) s = .next t ∧ OnlyLane x s t ∧ Raised 10 (s.lane x) (t.lane x) ∧ (t.lane x).le.runs = rest ∧
      (t.lane x).le.sig = (s.lane x).le.sig ∧
      Touches (.le :: raiseParts 10) (raiseAnd 10 [Reg.LE_STAT_ACTIVE, Reg.LE_STAT_PEND, Reg.LE_STAT_CUR, Reg.LE_CBANK_BANK,
        Reg.LE_TRIG_STAT_SATUR r.trig]) (s.lane x) (t.lane x))

/-- Bank swaps and scheduled HOLD (R201 to R207, R213, R214): a request for one record is noted, at its owner's next dispatch or at LE_CSWAP_CYCLE; in the full configuration one is
refused with REASON 4. At an idle boundary a due record's banks change places, and the copy that follows makes the new shadow bank equal to the active one, where no word has an uncorrectable error, and ends the
request. A HOLD change is noted for a cycle that lies ahead, and refused with REASON 5 while one is pending. -/
def Obligations.LeBankSwapsAndHold : Prop :=
  (∀ (x : LaneId) (r : Fin 32) (s : State), (s.lane x).up = true → (s.lane x).full = false → (s.lane x).swapPending r = false →
    ∃ t, exec (.cswapRequest x (BitVec.ofNat 32 (2 ^ r.val))) s = .next t ∧ OnlyLane x s t ∧
      (t.lane x).bitOf Reg.LE_CSWAP_REQ r = true ∧ Touches [.fm] (fields [] [Reg.LE_CSWAP_REQ]) (s.lane x) (t.lane x)) ∧
  (∀ (x : LaneId) (v : Word) (s : State), (s.lane x).up = true → (s.lane x).full = true →
    ∃ t, exec (.cswapRequest x v) s = .next t ∧ OnlyLane x s t ∧ (t.lane x).bit Reg.LE_CSTAT_REFUSED = true ∧
      (t.lane x).get Reg.LE_CSTAT_REASON = 4 ∧ Raised 35 (s.lane x) (t.lane x) ∧
      Touches (raiseParts 35) (raiseAnd 35 [Reg.LE_CSTAT_REFUSED, Reg.LE_CSTAT_REASON]) (s.lane x) (t.lane x)) ∧
  (∀ (x : LaneId) (r : Fin 32) (s : State), (s.lane x).up = true → (s.lane x).le.runs = [] → (s.lane x).le.pending = [] →
    (s.lane x).dueIdle = [r.val] →
    ∃ t, exec (.cswapIdleApply x) s = .next t ∧ OnlyLane x s t ∧ (t.lane x).bank r = 1 - (s.lane x).bank r ∧
      (t.lane x).le = { (s.lane x).le with copying := (s.lane x).le.copying ++ [r.val] } ∧
      Touches [.le, .ts, .cp, .fm] (fields [0x4001] [Reg.PM_STAT_STATE, Reg.LE_CBANK_BANK]) (s.lane x) (t.lane x)) ∧
  (∀ (x : LaneId) (r : Fin 32) (s : State), (s.lane x).up = true → (s.lane x).full = false → (s.lane x).atReason r = 0 →
    ∃ t, exec (.cswapAtRequest x (BitVec.ofNat 32 (2 ^ r.val))) s = .next t ∧ OnlyLane x s t ∧
      (t.lane x).bitOf Reg.LE_CSWAP_AT_REQ r = true ∧ (t.lane x).bit Reg.LE_CSTAT_AT_PEND = true ∧
      Touches [.fm] (fields [] [Reg.LE_CSWAP_AT_REQ, Reg.LE_CSTAT_AT_PEND]) (s.lane x) (t.lane x)) ∧
  (∀ (x : LaneId) (r : Fin 32) (w : Nat) (s : State), (s.lane x).up = true → (s.lane x).le.copying = [r.val] → w < 16 →
    ∃ t, exec (.swapCopyEnd x) s = .next t ∧ OnlyLane x s t ∧ (t.lane x).le.copying = [] ∧
      (((s.lane x).readStores 16).2 = false →
        (t.lane x).phys (512 * (1 - (s.lane x).bank r) + 16 * r + w) = (s.lane x).phys (512 * (s.lane x).bank r + 16 * r + w) % 2 ^ 32) ∧
      (((s.lane x).readStores 16).2 = true → Raised 10 (s.lane x) (t.lane x)) ∧
      (t.lane x).bitOf Reg.LE_CSWAP_REQ r = false ∧ (t.lane x).bitOf Reg.LE_CSWAP_AT_REQ r = false ∧
      Touches (.free :: .le :: raiseParts 10) (raiseAnd 10 [Reg.LE_CNT_ECC_COUNT, Reg.LE_CSWAP_REQ, Reg.LE_CSWAP_AT_REQ,
        Reg.LE_CSTAT_AT_PEND]) (s.lane x) (t.lane x)) ∧
  (∀ (x : LaneId) (v : Word) (s : State), (s.lane x).up = true → (s.lane x).bit Reg.LE_HOLD_SCHED_GO = false →
    (s.lane x).cyclePassed ((s.lane x).get Reg.LE_HOLD_CYCLE_CYCLE) = false →
    ∃ t, exec (.holdSchedule x v) s = .next t ∧ OnlyLane x s t ∧ (t.lane x).bit Reg.LE_HOLD_SCHED_GO = true ∧
      (t.lane x).bit Reg.LE_CSTAT_HOLD_PEND = true ∧ (t.lane x).get Reg.LE_HOLD_SCHED_RECORD = v.toNat % 2 ^ 6 ∧
      (t.lane x).bit Reg.LE_HOLD_SCHED_VALUE = bitAt v.toNat 30 ∧
      Touches [.fm] (fields [] [Reg.LE_HOLD_SCHED_GO, Reg.LE_HOLD_SCHED_VALUE, Reg.LE_HOLD_SCHED_RECORD, Reg.LE_CSTAT_HOLD_PEND])
        (s.lane x) (t.lane x)) ∧
  (∀ (x : LaneId) (v : Word) (s : State), (s.lane x).up = true → (s.lane x).bit Reg.LE_HOLD_SCHED_GO = true →
    ∃ t, exec (.holdSchedule x v) s = .next t ∧ OnlyLane x s t ∧ (t.lane x).get Reg.LE_CSTAT_REASON = 5 ∧
      Raised 35 (s.lane x) (t.lane x) ∧
      Touches (raiseParts 35) (raiseAnd 35 [Reg.LE_CSTAT_REFUSED, Reg.LE_CSTAT_REASON]) (s.lane x) (t.lane x))

/-! ### Field control (05_field_control.md) -/

/-- CARRIER_WRITE (R224): with both bridges in OFF and no lock, a legal DIV and PHASE are taken and wait for the next valley; a write that changes neither can still set LOCK; a change
while locked, with a bridge out of OFF, or to a DIV outside 1 to 8 or a PHASE of P or more is raised as source 48 and changes nothing. Requests (R251, R252, R269, R529): OFF stops
the bridge and withdraws its inputs; CATCH moves it to MEASURE where nothing holds it off, changes nothing where something does, and is raised as source 48 while torque-off is
asserted; DIRECT is taken from OFF in WORKSHOP, raised as source 48 from another state there, and outside WORKSHOP as the mode refusal (source 2). CATCH_TIMEOUT (R253): a bridge that has waited TMO ms in MEASURE without its condition goes back to OFF with CTMO set and source 51 raised. ZERO_END (R257): at the end of ZERO
the bridge is in RUN and, with the gate supply up and no short sequence running, has DRIVE_OK. LOCKED_ROTOR (R267): LOCKED is set, counted, and source 53 raised. AM_CAL and
AM_CAL_END (R275): a calibration of 64 sampling instants of each bridge starts with both bridges in OFF alone, and is refused else; its end gives each current channel's OFFSET its
average. -/
def Obligations.CarrierBridgesAndCatch : Prop :=
  (∀ (x : LaneId) (v : Word) (div ph : Nat) (s : State), (s.lane x).up = true → div = v.toNat / 2 ^ 18 % 2 ^ 4 → ph = v.toNat % 2 ^ 15 →
    (s.lane x).bit Reg.FC_CAR_LOCK = false → (s.lane x).bothOff = true → 1 ≤ div → div ≤ 8 → ph < div * 2500 →
    (div ≠ (s.lane x).get Reg.FC_CAR_DIV ∨ ph ≠ (s.lane x).get (Reg.FC_CAR_PHASE (s.lane x).me)) →
    ∃ t, exec (.carrierWrite x v) s = .next t ∧ OnlyLane x s t ∧ (t.lane x).get Reg.FC_CAR_DIV = div ∧
      (t.lane x).get (Reg.FC_CAR_PHASE (s.lane x).me) = ph ∧ (t.lane x).bit Reg.FC_CAR_LOCK = decide (2 ^ 31 ≤ v.toNat) ∧
      (t.lane x).fc = { (s.lane x).fc with carNext := some (s.lane x).carrierNow } ∧
      Touches [.fc, .fm] (fields [] [Reg.FC_CAR_LOCK, Reg.FC_CAR_DIV, Reg.FC_CAR_PHASE (s.lane x).me]) (s.lane x) (t.lane x)) ∧
  (∀ (x : LaneId) (v : Word) (div ph : Nat) (s : State), (s.lane x).up = true → div = v.toNat / 2 ^ 18 % 2 ^ 4 → ph = v.toNat % 2 ^ 15 →
    (s.lane x).bit Reg.FC_CAR_LOCK = true ∨ (s.lane x).bothOff = false ∨ div < 1 ∨ 8 < div ∨ div * 2500 ≤ ph →
    (div ≠ (s.lane x).get Reg.FC_CAR_DIV ∨ ph ≠ (s.lane x).get (Reg.FC_CAR_PHASE (s.lane x).me)) →
    ∃ t, exec (.carrierWrite x v) s = .next t ∧ OnlyLane x s t ∧ Raised 48 (s.lane x) (t.lane x) ∧
      Touches (raiseParts 48) (raiseRegs 48) (s.lane x) (t.lane x)) ∧
  (∀ (x : LaneId) (v : Word) (s : State), (s.lane x).up = true → v.toNat / 2 ^ 18 % 2 ^ 4 = (s.lane x).get Reg.FC_CAR_DIV →
    v.toNat % 2 ^ 15 = (s.lane x).get (Reg.FC_CAR_PHASE (s.lane x).me) →
    ∃ t, exec (.carrierWrite x v) s = .next t ∧ OnlyLane x s t ∧
      (t.lane x).bit Reg.FC_CAR_LOCK = ((s.lane x).bit Reg.FC_CAR_LOCK || decide (2 ^ 31 ≤ v.toNat)) ∧
      Touches [.fm] (fields [] [Reg.FC_CAR_LOCK]) (s.lane x) (t.lane x)) ∧
  (∀ (x : LaneId) (b : Fin 2) (s : State), (s.lane x).up = true →
    ∃ t, exec (.brReqOff x b) s = .next t ∧ OnlyLane x s t ∧ (t.lane x).get (Reg.FC_BR_STAT_STATE b) = 0 ∧
      (t.lane x).get (Reg.FC_BR_STAT_DRIVE_OK b) = 0 ∧ (t.lane x).get (Reg.FC_BR_CTRL_REQ b) = 0 ∧
      (t.lane x).get (Reg.XF_SHARE_OUT_SHARE b) = 0 ∧ (∀ k, k < 6 → ((t.lane x).sw (6 * b + k)).inp = false) ∧
      Touches (.fm :: stopParts) stopRegs (s.lane x) (t.lane x)) ∧
  (∀ (x : LaneId) (b : Fin 2) (s : State), (s.lane x).up = true → (s.lane x).bit Reg.SM_STAT_TOFF = false →
    (s.lane x).get (Reg.FC_BR_STAT_STATE b) = 0 → (s.lane x).heldOff b = false →
    ∃ t, exec (.brReqCatch x b) s = .next t ∧ OnlyLane x s t ∧ (t.lane x).get (Reg.FC_BR_STAT_STATE b) = 1 ∧
      (t.lane x).get (Reg.FC_BR_CTRL_REQ b) = 1 ∧ ((t.lane x).br b).waitSince = (s.lane x).now ∧
      Touches [.fc, .ts, .cp, .fm] (fields [0x4001] [Reg.PM_STAT_STATE, Reg.FC_BR_STAT_STATE b, Reg.FC_BR_CTRL_REQ b])
        (s.lane x) (t.lane x)) ∧
  (∀ (x : LaneId) (b : Fin 2) (s : State), (s.lane x).up = true → (s.lane x).bit Reg.SM_STAT_TOFF = false →
    (s.lane x).get (Reg.FC_BR_STAT_STATE b) ≠ 0 ∨ (s.lane x).heldOff b = true →
    ∃ t, exec (.brReqCatch x b) s = .next t ∧ OnlyLane x s t ∧ Touches [.fm] noRegs (s.lane x) (t.lane x)) ∧
  (∀ (x : LaneId) (b : Fin 2) (s : State), (s.lane x).up = true → (s.lane x).bit Reg.SM_STAT_TOFF = true →
    ∃ t, exec (.brReqCatch x b) s = .next t ∧ OnlyLane x s t ∧ Raised 48 (s.lane x) (t.lane x) ∧
      Touches (raiseParts 48) (raiseRegs 48) (s.lane x) (t.lane x)) ∧
  (∀ (x : LaneId) (b : Fin 2) (s : State), (s.lane x).up = true → (s.lane x).mode = 6 →
    (s.lane x).get (Reg.FC_BR_STAT_STATE b) = 0 → (s.lane x).heldOff b = false →
    ∃ t, exec (.brReqDirect x b) s = .next t ∧ OnlyLane x s t ∧ (t.lane x).get (Reg.FC_BR_STAT_STATE b) = 4 ∧
      (t.lane x).get (Reg.FC_BR_CTRL_REQ b) = 3 ∧
      Touches [.ts, .cp, .fm] (fields [0x4001] [Reg.PM_STAT_STATE, Reg.FC_BR_STAT_STATE b, Reg.FC_BR_CTRL_REQ b]) (s.lane x) (t.lane x)) ∧
  (∀ (x : LaneId) (b : Fin 2) (s : State), (s.lane x).up = true → (s.lane x).mode = 6 →
    (s.lane x).get (Reg.FC_BR_STAT_STATE b) ≠ 0 →
    ∃ t, exec (.brReqDirect x b) s = .next t ∧ OnlyLane x s t ∧ Raised 48 (s.lane x) (t.lane x) ∧
      Touches (raiseParts 48) (raiseRegs 48) (s.lane x) (t.lane x)) ∧
  (∀ (x : LaneId) (b : Fin 2) (s : State), (s.lane x).up = true → (s.lane x).mode ≠ 6 →
    ∃ t, exec (.brReqDirect x b) s = .next t ∧ OnlyLane x s t ∧ Raised 2 (s.lane x) (t.lane x) ∧
      Touches (raiseParts 2) (raiseRegs 2) (s.lane x) (t.lane x)) ∧
  (∀ (x : LaneId) (b : Fin 2) (T : Nat) (s : State), (s.lane x).up = true → (s.lane x).catchDue b = some T →
    (((s.reach x T).lane x).aqValid b && (((s.reach x T).lane x).aqSqual b || ((s.reach x T).lane x).aqStill b)) = false →
    (s.lane x).stage ≠ 3 →
    ∃ t, exec (.catchTimeout x b) s = .next t ∧ OnlyLane x (s.reach x T) t ∧ (t.lane x).get (Reg.FC_BR_STAT_STATE b) = 0 ∧
      (t.lane x).bit (Reg.FC_BR_STAT_CTMO b) = true ∧ Raised 51 ((s.reach x T).lane x) (t.lane x) ∧
      Touches (raiseParts 51) (raiseAnd 51 [Reg.FC_BR_STAT_CTMO b]) ((s.reach x T).lane x) (t.lane x)) ∧
  (∀ (x : LaneId) (b : Fin 2) (s : State), (s.lane x).up = true → (s.lane x).get (Reg.FC_BR_STAT_STATE b) = 2 →
    ((s.lane x).br b).zeroLeft = 0 → (s.lane x).gd.short.get b = none → (s.lane x).bit Reg.GD_STAT_VGD_UV = false →
    ∃ t, exec (.zeroEnd x b) s = .next t ∧ OnlyLane x s t ∧ (t.lane x).get (Reg.FC_BR_STAT_STATE b) = 3 ∧
      (t.lane x).bit (Reg.FC_BR_STAT_DRIVE_OK b) = true ∧ (t.lane x).xf.okSeen.get b = true ∧
      Touches [.fc, .xf, .ts, .cp, .fm] (fields [0x4001] [Reg.PM_STAT_STATE, Reg.FC_BR_STAT_STATE b, Reg.FC_BR_STAT_DRIVE_OK b,
        Reg.FC_BR_STAT_RAMP b]) (s.lane x) (t.lane x)) ∧
  (∀ (x : LaneId) (b : Fin 2) (T : Nat) (s : State), (s.lane x).up = true → (s.lane x).lockDue b = some T →
    ((s.reach x T).lane x).endStop b = false → (s.lane x).aboveTq b = true →
    ∃ t, exec (.lockedRotor x b) s = .next t ∧ OnlyLane x (s.reach x T) t ∧ (t.lane x).bit (Reg.FC_BR_STAT_LOCKED b) = true ∧
      (t.lane x).get (Reg.FC_CNT_LOCK_COUNT b) =
        min ((s.lane x).get (Reg.FC_CNT_LOCK_COUNT b) + 1) (2 ^ (Reg.FC_CNT_LOCK_COUNT b).width - 1) ∧
      Raised 53 ((s.reach x T).lane x) (t.lane x) ∧
      Touches (raiseParts 53) (raiseAnd 53 [Reg.FC_BR_STAT_LOCKED b, Reg.FC_CNT_LOCK_COUNT b]) ((s.reach x T).lane x) (t.lane x)) ∧
  (∀ (x : LaneId) (s : State), (s.lane x).up = true → (s.lane x).bothOff = true → (s.lane x).bit Reg.AM_CTRL_CAL = false →
    ∃ t, exec (.amCal x) s = .next t ∧ OnlyLane x s t ∧ (t.lane x).bit Reg.AM_CTRL_CAL = true ∧
      (t.lane x).fc = { (s.lane x).fc with calSum := [], calLeft := ⟨64, 64⟩ } ∧
      Touches [.fc, .fm] (fields [] [Reg.AM_CTRL_CAL]) (s.lane x) (t.lane x)) ∧
  (∀ (x : LaneId) (s : State), (s.lane x).up = true → (s.lane x).bothOff = false →
    ∃ t, exec (.amCal x) s = .next t ∧ OnlyLane x s t ∧ (t.lane x).bit Reg.AM_STAT_CAL_REFUSED = true ∧ Raised 48 (s.lane x) (t.lane x) ∧
      Touches (raiseParts 48) (raiseAnd 48 [Reg.AM_STAT_CAL_REFUSED]) (s.lane x) (t.lane x)) ∧
  (∀ (x : LaneId) (ch : Nat) (s : State), (s.lane x).up = true → (s.lane x).bit Reg.AM_CTRL_CAL = true → (s.lane x).fc.calLeft = ⟨0, 0⟩ →
    ch = 0 ∨ ch = 1 ∨ ch = 2 ∨ ch = 4 ∨ ch = 5 ∨ ch = 6 →
    ∃ t, exec (.amCalEnd x) s = .next t ∧ OnlyLane x s t ∧ (t.lane x).bit Reg.AM_CTRL_CAL = false ∧
      (t.lane x).get (Reg.AM_CAL_OFFSET ch) =
        uns (Reg.AM_CAL_OFFSET ch).width (roundDiv (nth (s.lane x).fc.calSum ch) 64) % 2 ^ (Reg.AM_CAL_OFFSET ch).width ∧
      Touches [.fc, .ts, .cp, .fm] (fields [0x4001] (Reg.PM_STAT_STATE :: Reg.AM_CTRL_CAL :: [0, 1, 2, 4, 5, 6].map Reg.AM_CAL_OFFSET))
        (s.lane x) (t.lane x))

/-- SAMPLING_INSTANT (R116, R227, R234, R237): a peak means nothing to bridges in CENTRE but that the codes converted are shown; a valley shows the alignment error, and with one of at most
20 ns ends the count of misaligned valleys; with both bridges in OFF it counts an instant of each and keeps the codes converted; a bridge in ZERO or RUN loads the duties of
its latest commit of 200 ns or more before it. SAMPLE_SET_READY (R238, R239): with three phases measured, the set holds the converted codes of the three currents and of the DC link,
and the status word, and the raw codes are shown. -/
def Obligations.SamplingInstantsAndSets : Prop :=
  (∀ (x : LaneId) (c0 c1 : List (BitVec 12)) (T : Nat) (ch : Fin 8) (c : BitVec 12) (s : State), (s.lane x).up = true →
    (s.lane x).instantDue true = some T → (∀ b, b < 2 → (s.lane x).bit (Reg.FC_BR_CFG_PAT b) = false) → c0.length = 4 →
    c1.length = 4 → (c0 ++ c1)[ch.val]? = some c →
    ∃ t, exec (.samplingInstant x true c0 c1) s = .next t ∧ OnlyLane x (s.reach x T) t ∧
      (t.lane x).fc = { (s.lane x).fc with lastPeak := true, instAt := some ((s.reach x T).lane x).now } ∧
      (t.lane x).get (Reg.AM_RAW_CODE ch) = c.toNat ∧
      Touches [.fc, .fm] (fields [] (Reg.AM_STAT_RANGE :: (List.range 8).flatMap fun i => [Reg.AM_RAW_CODE i, Reg.AM_RAW_INSTANT i]))
        ((s.reach x T).lane x) (t.lane x)) ∧
  (∀ (x : LaneId) (c0 c1 : List (BitVec 12)) (T : Nat) (b : Fin 2) (s : State), (s.lane x).up = true →
    (s.lane x).instantDue false = some T → (s.lane x).bothOff = true →
    (((s.reach x T).lane x).alignError ((s.reach x T).lane x).nextValley).natAbs ≤ 32 →
    ((s.lane x).br 0).commits = [] → ((s.lane x).br 1).commits = [] →
    ∃ t, exec (.samplingInstant x false c0 c1) s = .next t ∧ OnlyLane x (s.reach x T) t ∧
      (t.lane x).fc.alignErr = ((s.reach x T).lane x).alignError ((s.reach x T).lane x).nextValley ∧
      (t.lane x).fc.misaligned = 0 ∧ (t.lane x).fc.carNext = none ∧ (t.lane x).fc.lastPeak = false ∧
      ((t.lane x).br b).instant = (((s.lane x).br b).instant + 1) % 2 ^ 32 ∧ ((t.lane x).br b).measureAt = ((s.reach x T).lane x).now ∧
      ((t.lane x).br b).sampled = (if b = 0 then c0 else c1).map (fun c => (c.toNat : Int)) ∧ ((t.lane x).br b).nPred = 0 ∧
      Touches [.fc, .xf, .af, .fm] noRegs ((s.reach x T).lane x) (t.lane x)) ∧
  (∀ (x : LaneId) (c0 c1 : List (BitVec 12)) (T t0 : Nat) (b : Fin 2) (ds : List Int) (s : State), (s.lane x).up = true →
    (s.lane x).instantDue false = some T → (((s.reach x T).lane x).alignError ((s.reach x T).lane x).nextValley).natAbs ≤ 32 →
    (s.lane x).get (Reg.FC_BR_STAT_STATE b) = 2 ∨ (s.lane x).get (Reg.FC_BR_STAT_STATE b) = 3 →
    (s.lane x).get (Reg.FC_BR_STAT_STATE (1 - b)) = 0 → ((s.lane x).br (1 - b)).commits = [] →
    ((s.lane x).br b).commits = [(t0, ds)] → t0 + 20 ≤ ((s.reach x T).lane x).now → (∀ d, d ∈ ds → 0 ≤ d ∧ d ≤ 2 ^ 30) →
    ∃ t, exec (.samplingInstant x false c0 c1) s = .next t ∧ OnlyLane x (s.reach x T) t ∧ ((t.lane x).br b).base = ds ∧
      ((t.lane x).br b).commits = []) ∧
  (∀ (x : LaneId) (b : Fin 2) (T : Nat) (i : Fin 3) (s : State), (s.lane x).up = true → (s.lane x).setDue b = some T →
    bitsOf ((s.lane x).br b).status 28 26 = 7 →
    ∃ t, exec (.sampleSetReady x b) s = .next t ∧ OnlyLane x (s.reach x T) t ∧
      (t.lane x).sig (sampleBase b + i) = uns 32 ((s.lane x).amValue (4 * b + i) (((s.lane x).br b).sampled.getD i 0)) ∧
      (t.lane x).sig (sampleBase b + 3) = uns 32 ((s.lane x).amValue (4 * b + 3) (((s.lane x).br b).sampled.getD 3 0)) ∧
      (t.lane x).sig (sampleBase b + 4) = ((s.lane x).br b).status % 2 ^ 32 ∧
      (t.lane x).get (Reg.AM_RAW_CODE (4 * b + i)) = (((s.lane x).br b).sampled.getD i 0).toNat % 2 ^ 12 ∧
      Touches (.le :: .af :: raiseParts 52) (fields [0x4001, 0x4005, 0x4007, 0x400C] (Reg.HL_CNT_RLOST_COUNT :: Reg.FC_BR_STAT_CEIL b ::
        Reg.FC_BR_STAT_AFLIM b :: Reg.FC_BR_STAT_LOCKED 0 :: Reg.FC_BR_STAT_LOCKED 1 :: refugeFlds)) ((s.reach x T).lane x) (t.lane x))

/-! ### Angle and feedback (06_angle_speed.md) -/

/-- HALL_EDGE (R276 to R280): lines that have held for FILT samples give the lane's own set its new code; one that is no change, and lines that have not held so long, change nothing
but the lines. OBSERVER_LOSS (R297) and STANDSTILL (R301), with no edge within the replay horizon: loss holds and FC shows it; the rotor stands, which ends a loss. HALL_SET_LOST (R307): the
own set has lost VALID, counted and raised as source 67. The encoder (R310, R311, R314, R315): a step moves the count by one state toward the target, and A or B with it; an enable starts it from the count and angle as they are; a write that changes Q
or PP while it runs is raised as source 69 and changes nothing; a disable ends it at once without a backlog, else waits, and the drained backlog ends it. -/
def Obligations.HallSetAndEncoder : Prop :=
  (∀ (x : LaneId) (b : Fin 2) (code : Fin 8) (held : Nat) (s : State), (s.lane x).up = true → (s.lane x).get (Reg.AF_HALL_CFG_FILT b) ≤ held →
    ∃ t, exec (.hallEdge x b ⟨code, held⟩) s = .next t ∧ OnlyLane x s t ∧ (t.lane x).pins.hall.get b = code ∧
      ((t.lane x).hallSet b (s.lane x).me).code = code ∧ ((t.lane x).hallSet b (s.lane x).me).known = true ∧
      (((s.lane x).hallSet b (s.lane x).me).known = true → ((s.lane x).hallSet b (s.lane x).me).code = code →
        Touches [.pins, .fm] noRegs (s.lane x) (t.lane x)) ∧
      Touches (.pins :: .af :: raiseParts 64) (fields [0x4001, 0x4005, 0x400B, 0x400C] (Reg.HL_CNT_RLOST_COUNT :: Reg.FC_BR_STAT_AFLIM b ::
        Reg.FC_BR_STAT_LOCKED b :: refugeFlds)) (s.lane x) (t.lane x)) ∧
  (∀ (x : LaneId) (b : Fin 2) (code : Fin 8) (held : Nat) (s : State), (s.lane x).up = true → held < (s.lane x).get (Reg.AF_HALL_CFG_FILT b) →
    ∃ t, exec (.hallEdge x b ⟨code, held⟩) s = .next t ∧ OnlyLane x s t ∧ (t.lane x).pins.hall.get b = code ∧
      Touches [.pins, .fm] noRegs (s.lane x) (t.lane x)) ∧
  (∀ (x : LaneId) (b : Fin 2) (T : Nat) (s : State), (s.lane x).up = true → (s.lane x).lossDue b = some T →
    ((s.lane x).act b).recent = [] → ((s.lane x).act b).base = ((s.lane x).act b).obs →
    ∃ t, exec (.observerLoss x b) s = .next t ∧ OnlyLane x (s.reach x T) t ∧ ((t.lane x).act b).obs.loss = true ∧
      (t.lane x).bit (Reg.FC_BR_STAT_AFLIM b) = true ∧
      Touches (.af :: raiseParts 66) (fields [0x4001, 0x4005, 0x400C] (Reg.HL_CNT_RLOST_COUNT :: Reg.FC_BR_STAT_AFLIM b :: refugeFlds))
        ((s.reach x T).lane x) (t.lane x)) ∧
  (∀ (x : LaneId) (b : Fin 2) (T : Nat) (s : State), (s.lane x).up = true → (s.lane x).stillDue b = some T →
    ((s.lane x).act b).recent = [] → ((s.lane x).act b).base = ((s.lane x).act b).obs →
    ∃ t, exec (.standstill x b) s = .next t ∧ OnlyLane x (s.reach x T) t ∧ ((t.lane x).act b).obs.still = true ∧
      ((t.lane x).act b).obs.loss = false ∧
      Touches (.af :: raiseParts 66) (fields [0x4001, 0x4005, 0x400C] (Reg.HL_CNT_RLOST_COUNT :: Reg.FC_BR_STAT_AFLIM b :: refugeFlds))
        ((s.reach x T).lane x) (t.lane x)) ∧
  (∀ (x : LaneId) (b : Fin 2) (T : Nat) (s : State), (s.lane x).up = true → (s.lane x).setLostDue b = some T →
    (s.lane x).bit (Reg.AF_ENC_CFG_EN b) = false → ((s.lane x).hallSet b (s.lane x).me).fusion = false →
    ∃ t, exec (.hallSetLost x b) s = .next t ∧ OnlyLane x (s.reach x T) t ∧ ((t.lane x).act b).ownLost = true ∧
      (t.lane x).get (Reg.AF_CNT_SETLOST_COUNT b) =
        min ((s.lane x).get (Reg.AF_CNT_SETLOST_COUNT b) + 1) (2 ^ (Reg.AF_CNT_SETLOST_COUNT b).width - 1) ∧
      (((s.reach x T).lane x).raisedNow 67 = false → (t.lane x).status 67 = true ∧
        (t.lane x).get (Reg.FM_TALLY_TALLY 67) = ((s.lane x).get (Reg.FM_TALLY_TALLY 67) + 1) % 2 ^ 32) ∧
      Touches (.af :: raiseParts 67) (fields [0x4001, 0x4005, 0x400B, 0x400C] (Reg.HL_CNT_RLOST_COUNT :: Reg.FC_BR_STAT_AFLIM b :: refugeFlds))
        ((s.reach x T).lane x) (t.lane x)) ∧
  (∀ (x : LaneId) (b : Fin 2) (T : Nat) (s : State), (s.lane x).up = true → (s.lane x).encDue b = some T →
    ∃ t, exec (.encoderStep x b) s = .next t ∧ OnlyLane x (s.reach x T) t ∧
      (t.lane x).get (Reg.AF_ENC_CNT_COUNT b) =
        (if 0 < ((s.reach x T).lane x).backlog b then ((s.lane x).get (Reg.AF_ENC_CNT_COUNT b) + 1) % 2 ^ 32
         else if ((s.reach x T).lane x).backlog b < 0 then ((s.lane x).get (Reg.AF_ENC_CNT_COUNT b) + (2 ^ 32 - 1)) % 2 ^ 32
         else (s.lane x).get (Reg.AF_ENC_CNT_COUNT b)) ∧
      ((t.lane x).act b).ab =
        (if ((s.reach x T).lane x).backlog b = 0 then ((s.lane x).act b).ab
         else quadStep ((s.lane x).act b).ab (decide (0 < ((s.reach x T).lane x).backlog b))) ∧
      Touches (.af :: raiseParts 68) (fields [0x4001, 0x4005, 0x400C] (Reg.HL_CNT_RLOST_COUNT :: Reg.FC_BR_STAT_AFLIM b :: refugeFlds)) ((s.reach x T).lane x) (t.lane x)) ∧
  (∀ (x : LaneId) (b : Fin 2) (v : Word) (s : State), (s.lane x).up = true → (s.lane x).bit (Reg.AF_ENC_CFG_EN b) = false →
    ∃ t, exec (.encoderEnable x b v) s = .next t ∧ OnlyLane x s t ∧ (t.lane x).bit (Reg.AF_ENC_CFG_EN b) = true ∧
      ((t.lane x).act b).encDrain = false ∧ ((t.lane x).act b).t0 = (s.lane x).getI (Reg.AF_ENC_CNT_COUNT b) ∧
      ((t.lane x).act b).p0 = (s.lane x).angleNow b ∧ (t.lane x).get (Reg.AF_ENC_CNT_COUNT b) = (s.lane x).get (Reg.AF_ENC_CNT_COUNT b) ∧
      Touches (.af :: raiseParts 68) (fields [0x4001, 0x4005, 0x400C] (Reg.HL_CNT_RLOST_COUNT :: Reg.FC_BR_STAT_AFLIM b :: refugeFlds)) (s.lane x) (t.lane x)) ∧
  (∀ (x : LaneId) (b : Fin 2) (v : Word) (s : State), (s.lane x).up = true → (s.lane x).bit (Reg.AF_ENC_CFG_EN b) = true →
    (s.lane x).changes [Reg.AF_ENC_CFG_PP b, Reg.AF_ENC_CFG_Q b] v.toNat = true →
    ∃ t u, exec (.encoderEnable x b v) s = .next t ∧ exec (.encoderDisable x b v) s = .next u ∧ OnlyLane x s t ∧ u = t ∧
      Raised 69 (s.lane x) (t.lane x) ∧ Touches (raiseParts 69) (raiseRegs 69) (s.lane x) (t.lane x)) ∧
  (∀ (x : LaneId) (b : Fin 2) (v : Word) (s : State), (s.lane x).up = true → (s.lane x).bit (Reg.AF_ENC_CFG_EN b) = true →
    (s.lane x).changes [Reg.AF_ENC_CFG_PP b, Reg.AF_ENC_CFG_Q b] v.toNat = false → ((s.lane x).act b).encDrain = false →
    ∃ t, exec (.encoderDisable x b v) s = .next t ∧ OnlyLane x s t ∧
      (t.lane x).bit (Reg.AF_ENC_CFG_EN b) = decide ((s.lane x).backlog b ≠ 0) ∧
      ((t.lane x).act b).encDrain = decide ((s.lane x).backlog b ≠ 0) ∧
      Touches (.af :: raiseParts 68) (fields [0x4001, 0x4005, 0x400C] (Reg.HL_CNT_RLOST_COUNT :: Reg.FC_BR_STAT_AFLIM b :: refugeFlds)) (s.lane x) (t.lane x)) ∧
  (∀ (x : LaneId) (b : Fin 2) (s : State), (s.lane x).up = true → ((s.lane x).act b).encDrain = true → (s.lane x).backlog b = 0 →
    ∃ t, exec (.encoderDrained x b) s = .next t ∧ OnlyLane x s t ∧ (t.lane x).bit (Reg.AF_ENC_CFG_EN b) = false ∧
      ((t.lane x).act b).encDrain = false ∧ Touches (.af :: raiseParts 68) (fields [0x4001, 0x4005, 0x400C] (Reg.HL_CNT_RLOST_COUNT :: Reg.FC_BR_STAT_AFLIM b :: refugeFlds)) (s.lane x) (t.lane x))

/-- SENT_FRAME (R317): the first frame at the nominal rate whose nibbles, pause pulse and check are right is accepted, its status and data shown and counted, and implausible where SMASK says so; a channel that is not
enabled takes nothing. SENT_TIMEOUT (R318): the channel is no longer valid and is implausible. ANALOG_CONVERSION (R319): the code is kept for the next departure. -/
def Obligations.SentAndAnalogInputs : Prop :=
  (∀ (x : LaneId) (ch : Fin 2) (f : SentFrame) (st : Nat) (data : List Nat) (s : State), (s.lane x).up = true →
    (s.lane x).bit (Reg.AF_SENT_CFG_EN ch) = true → f.calNs = 56 * (s.lane x).get (Reg.AF_SENT_CFG_TICK ch) * 100 →
    ((s.lane x).sentCh ch).prevCal = none → (s.lane x).pauseFits ch f = true → st < 16 → (∀ d, d ∈ data → d < 16) → data.length = (s.lane x).get (Reg.AF_SENT_CFG_NIB ch) →
    (f.nibbleNs.map fun (ns : Nat) => (roundDiv (56 * ns : Nat) (max 1 f.calNs)).toNat) =
      (st :: data ++ [sentCheck ((s.lane x).bit (Reg.AF_SENT_CFG_CRC_LEGACY ch)) data]).map (· + 12) →
    ∃ t, exec (.sentFrame x ch f) s = .next t ∧ OnlyLane x s t ∧ (t.lane x).bit (Reg.AF_SENT_STAT_VALID ch) = true ∧
      (t.lane x).get (Reg.AF_SENT_FAST_STATUS ch) = st ∧
      (t.lane x).get (Reg.AF_SENT_FAST_DATA ch) = data.foldl (fun a d => 16 * a + d) 0 % 2 ^ (Reg.AF_SENT_FAST_DATA ch).width ∧
      (t.lane x).get (Reg.AF_SENT_STAT_FRAMES ch) = ((s.lane x).get (Reg.AF_SENT_STAT_FRAMES ch) + 1) % 2 ^ (Reg.AF_SENT_STAT_FRAMES ch).width ∧
      (t.lane x).bit (Reg.AF_SENT_STAT_IMPL ch) = decide (Nat.land st ((s.lane x).get (Reg.AF_SENT_CFG_SMASK ch)) ≠ 0) ∧
      Touches [.af, .xf, .vf, .ts, .cp, .fm] (fields [0x4001, 0x4005] [Reg.PM_STAT_STATE]) (s.lane x) (t.lane x)) ∧
  (∀ (x : LaneId) (ch : Fin 2) (f : SentFrame) (s : State), (s.lane x).up = true → (s.lane x).bit (Reg.AF_SENT_CFG_EN ch) = false →
    ∃ t, exec (.sentFrame x ch f) s = .next t ∧ OnlyLane x s t ∧ Touches [.fm] noRegs (s.lane x) (t.lane x)) ∧
  (∀ (x : LaneId) (ch : Fin 2) (T : Nat) (s : State), (s.lane x).up = true → (s.lane x).sentDue ch = some T →
    ∃ t, exec (.sentTimeout x ch) s = .next t ∧ OnlyLane x (s.reach x T) t ∧ (t.lane x).bit (Reg.AF_SENT_STAT_VALID ch) = false ∧
      (t.lane x).bit (Reg.AF_SENT_STAT_IMPL ch) = true ∧
      Touches [.xf, .vf, .fm] (fields [] [Reg.AF_SENT_STAT_VALID ch, Reg.AF_SENT_STAT_IMPL ch]) ((s.reach x T).lane x) (t.lane x)) ∧
  (∀ (x : LaneId) (a : Fin 4) (code : BitVec 12) (s : State), (s.lane x).up = true →
    ∃ t, exec (.analogConversion x a code) s = .next t ∧ OnlyLane x s t ∧
      spGet [] a.val (t.lane x).af.codes = spGet [] a.val (s.lane x).af.codes ++ [code.toNat] ∧
      (t.lane x).af.act = (s.lane x).af.act ∧ (t.lane x).af.sent = (s.lane x).af.sent ∧ Touches [.af, .fm] noRegs (s.lane x) (t.lane x))

/-! ### Gate drive (07_gate_drive.md) -/

/-- SWITCH_INPUT_EDGE (R323, R328 to R332, R338, R347): an edge that FC emits moves the input; while GD takes no request of the bridge, no switch follows. A withdrawn input turns its
switch off with the turn-off profile, and the other switch of the phase stays as it was, or may now follow its own request. A request turns its switch on where the other switch is
off, its dead time is over and no bootstrap undervoltage holds a high side; before that it waits, and under a bootstrap undervoltage only the input moves. With both inputs of a
phase on, both switches are off and the event is counted and raised as source 83. DEAD_TIME_END begins a delayed turn-on; PROFILE_PHASE_END goes to the next phase; PROFILE_WRITE
(R333) writes the profile and changes no edge in progress. DIRECT_WRITE (R360) is raised as source 86 outside DIRECT; in DIRECT its bits are the switch inputs, and a phase with both
bits set is counted and raised as source 83 with both its switches off. -/
def Obligations.SwitchesAndProfiles : Prop :=
  (∀ (x : LaneId) (b : Fin 2) (ph : Fin 3) (high on : Bool) (k T : Nat) (s : State), (s.lane x).up = true → k = swKey b ph high →
    (s.lane x).fcEdge b ph high on ((s.lane x).sw k).inp = some T → (s.lane x).gdAccepts b = false →
    ∃ t, exec (.switchInputEdge x b ph high on) s = .next t ∧ OnlyLane x (s.reach x T) t ∧
      (t.lane x).sw k = { (s.lane x).sw k with inp := on } ∧ (∀ j, j ≠ k → (t.lane x).sw j = (s.lane x).sw j) ∧
      Touches [.gd, .fm] noRegs ((s.reach x T).lane x) (t.lane x)) ∧
  (∀ (x : LaneId) (b : Fin 2) (ph : Fin 3) (high : Bool) (k T : Nat) (s : State), (s.lane x).up = true → k = swKey b ph high →
    (s.lane x).fcEdge b ph high false ((s.lane x).sw k).inp = some T → (s.lane x).gdAccepts b = true →
    ∃ t, exec (.switchInputEdge x b ph high false) s = .next t ∧ OnlyLane x (s.reach x T) t ∧ ((t.lane x).sw k).inp = false ∧
      ((t.lane x).sw k).edge = (if ((s.lane x).sw k).edge = .on then .off else ((s.lane x).sw k).edge) ∧
      (((s.lane x).sw k).edge = .on → ((t.lane x).sw k).phase = 1 ∧ ((t.lane x).sw k).prof = (s.lane x).profile b 1 ∧
        ((t.lane x).sw k).start = ((s.reach x T).lane x).now) ∧
      (((s.lane x).sw (otherKey k)).inp = false → (t.lane x).sw (otherKey k) = (s.lane x).sw (otherKey k)) ∧
      (∀ j, j ≠ k → j ≠ otherKey k → (t.lane x).sw j = (s.lane x).sw j) ∧
      Touches [.gd, .fm] noRegs ((s.reach x T).lane x) (t.lane x)) ∧
  (∀ (x : LaneId) (b : Fin 2) (ph : Fin 3) (high : Bool) (k T : Nat) (s : State), (s.lane x).up = true → k = swKey b ph high →
    (s.lane x).fcEdge b ph high true ((s.lane x).sw k).inp = some T → (s.lane x).gdAccepts b = true → ((s.lane x).sw k).edge ≠ .on →
    ((s.lane x).sw (otherKey k)).inp = false → ((s.lane x).sw (otherKey k)).edge ≠ .on →
    (s.lane x).deadEnd k ≤ ((s.reach x T).lane x).now → (high && (s.lane x).bitOf (Reg.GD_FLT_BSUV b) ph) = false →
    ∃ t, exec (.switchInputEdge x b ph high true) s = .next t ∧ OnlyLane x (s.reach x T) t ∧
      ((t.lane x).sw k).inp = true ∧ ((t.lane x).sw k).edge = .on ∧ ((t.lane x).sw k).phase = 1 ∧
      ((t.lane x).sw k).prof = (s.lane x).profile b 0 ∧ ((t.lane x).sw k).start = ((s.reach x T).lane x).now ∧
      (∀ j, j ≠ k → (t.lane x).sw j = (s.lane x).sw j) ∧ Touches [.gd, .fm] noRegs ((s.reach x T).lane x) (t.lane x)) ∧
  (∀ (x : LaneId) (b : Fin 2) (ph : Fin 3) (high : Bool) (k T : Nat) (s : State), (s.lane x).up = true → k = swKey b ph high →
    (s.lane x).fcEdge b ph high true ((s.lane x).sw k).inp = some T → (s.lane x).gdAccepts b = true → ((s.lane x).sw k).edge ≠ .on →
    ((s.lane x).sw (otherKey k)).inp = false →
    ((s.lane x).sw (otherKey k)).edge = .on ∨ ((s.reach x T).lane x).now < (s.lane x).deadEnd k →
    ∃ t, exec (.switchInputEdge x b ph high true) s = .next t ∧ OnlyLane x (s.reach x T) t ∧
      (t.lane x).sw k = { (s.lane x).sw k with
        inp := true, waiting := ((s.lane x).sw k).waiting || !(high && (s.lane x).bitOf (Reg.GD_FLT_BSUV b) ph) } ∧
      (∀ j, j ≠ k → (t.lane x).sw j = (s.lane x).sw j) ∧ Touches [.gd, .fm] noRegs ((s.reach x T).lane x) (t.lane x)) ∧
  (∀ (x : LaneId) (b : Fin 2) (ph : Fin 3) (k T : Nat) (s : State), (s.lane x).up = true → k = swKey b ph true →
    (s.lane x).fcEdge b ph true true ((s.lane x).sw k).inp = some T → (s.lane x).gdAccepts b = true →
    ((s.lane x).sw (otherKey k)).inp = false → (s.lane x).bitOf (Reg.GD_FLT_BSUV b) ph = true →
    ∃ t, exec (.switchInputEdge x b ph true true) s = .next t ∧ OnlyLane x (s.reach x T) t ∧
      (t.lane x).sw k = { (s.lane x).sw k with inp := true } ∧ (∀ j, j ≠ k → (t.lane x).sw j = (s.lane x).sw j) ∧
      Touches [.gd, .fm] noRegs ((s.reach x T).lane x) (t.lane x)) ∧
  (∀ (x : LaneId) (b : Fin 2) (ph : Fin 3) (high : Bool) (k T : Nat) (s : State), (s.lane x).up = true → k = swKey b ph high →
    (s.lane x).fcEdge b ph high true ((s.lane x).sw k).inp = some T → (s.lane x).gdAccepts b = true →
    ((s.lane x).sw (otherKey k)).inp = true →
    ∃ t, exec (.switchInputEdge x b ph high true) s = .next t ∧ OnlyLane x (s.reach x T) t ∧
      Raised 83 ((s.reach x T).lane x) (t.lane x) ∧
      (t.lane x).get (Reg.GD_CNT_XLOCK_COUNT b) =
        min ((s.lane x).get (Reg.GD_CNT_XLOCK_COUNT b) + 1) (2 ^ (Reg.GD_CNT_XLOCK_COUNT b).width - 1) ∧
      ((t.lane x).sw k).edge ≠ .on ∧ ((t.lane x).sw (otherKey k)).edge ≠ .on ∧
      Touches (raiseParts 83) (raiseAnd 83 [Reg.GD_CNT_XLOCK_COUNT b]) ((s.reach x T).lane x) (t.lane x)) ∧
  (∀ (x : LaneId) (b : Fin 2) (ph : Fin 3) (high : Bool) (k T : Nat) (s : State), (s.lane x).up = true → k = swKey b ph high →
    (s.lane x).deadDue k = some T →
    ∃ t, exec (.deadTimeEnd x b ph high) s = .next t ∧ OnlyLane x (s.reach x T) t ∧ ((t.lane x).sw k).edge = .on ∧
      ((t.lane x).sw k).phase = 1 ∧ ((t.lane x).sw k).prof = (s.lane x).profile b 0 ∧
      ((t.lane x).sw k).start = ((s.reach x T).lane x).now ∧ ((t.lane x).sw k).waiting = false ∧
      (∀ j, j ≠ k → (t.lane x).sw j = (s.lane x).sw j) ∧ Touches [.gd, .fm] noRegs ((s.reach x T).lane x) (t.lane x)) ∧
  (∀ (x : LaneId) (b : Fin 2) (ph : Fin 3) (high : Bool) (k T : Nat) (s : State), (s.lane x).up = true → k = swKey b ph high →
    (s.lane x).phaseDue k = some T →
    ∃ t, exec (.profilePhaseEnd x b ph high) s = .next t ∧ OnlyLane x (s.reach x T) t ∧
      (t.lane x).sw k = { (s.lane x).sw k with phase := ((s.lane x).sw k).phase + 1 } ∧
      (∀ j, j ≠ k → (t.lane x).sw j = (s.lane x).sw j) ∧ Touches [.gd, .fm] noRegs ((s.reach x T).lane x) (t.lane x)) ∧
  (∀ (x : LaneId) (b e : Fin 2) (v : Word) (s : State), (s.lane x).up = true →
    ∃ t, exec (.profileWrite x b e v) s = .next t ∧ OnlyLane x s t ∧
      (∀ f, f ∈ [Reg.GD_PROF_PRE_I b e, Reg.GD_PROF_SLOPE_I b e, Reg.GD_PROF_HOLD_I b e, Reg.GD_PROF_SLOPE_T b e, Reg.GD_PROF_PRE_T b e] →
        (t.lane x).get f = f.of v.toNat) ∧
      Touches [.fm] (fields [] [Reg.GD_PROF_PRE_I b e, Reg.GD_PROF_SLOPE_I b e, Reg.GD_PROF_HOLD_I b e, Reg.GD_PROF_SLOPE_T b e,
        Reg.GD_PROF_PRE_T b e]) (s.lane x) (t.lane x)) ∧
  (∀ (x : LaneId) (b : Fin 2) (v : Word) (s : State), (s.lane x).up = true → (s.lane x).get (Reg.FC_BR_STAT_STATE b) ≠ 4 →
    ∃ t, exec (.directWrite x b v) s = .next t ∧ OnlyLane x s t ∧ Raised 86 (s.lane x) (t.lane x) ∧
      Touches (raiseParts 86) (raiseRegs 86) (s.lane x) (t.lane x)) ∧
  (∀ (x : LaneId) (b : Fin 2) (v : Word) (s : State), (s.lane x).up = true → (s.lane x).get (Reg.FC_BR_STAT_STATE b) = 4 →
    (∀ i, i < 3 → (bitAt v.toNat i && bitAt v.toNat (i + 3)) = false) →
    ∃ t, exec (.directWrite x b v) s = .next t ∧ OnlyLane x s t ∧
      (t.lane x).get (Reg.GD_DIRECT_HS b) = (Reg.GD_DIRECT_HS b).of v.toNat ∧
      (t.lane x).get (Reg.GD_DIRECT_LS b) = (Reg.GD_DIRECT_LS b).of v.toNat ∧
      (∀ i, i < 3 → ((t.lane x).sw (swKey b i false)).inp = bitAt v.toNat i ∧ ((t.lane x).sw (swKey b i true)).inp = bitAt v.toNat (i + 3)) ∧
      (∀ k, k < 6 → ((t.lane x).sw (6 * (1 - b) + k)) = ((s.lane x).sw (6 * (1 - b) + k))) ∧
      Touches [.gd, .fm] (fields [] [Reg.GD_DIRECT_HS b, Reg.GD_DIRECT_LS b]) (s.lane x) (t.lane x)) ∧
  (∀ (x : LaneId) (b : Fin 2) (i : Fin 3) (v : Word) (s : State), (s.lane x).up = true → (s.lane x).get (Reg.FC_BR_STAT_STATE b) = 4 →
    (s.lane x).gdAccepts b = true → bitAt v.toNat i = true → bitAt v.toNat (i + 3) = true →
    (∀ j, j < 3 → j = i ∨ (bitAt v.toNat j && bitAt v.toNat (j + 3)) = false) →
    (((s.lane x).sw (swKey b i false)).inp && ((s.lane x).sw (swKey b i true)).inp) = false →
    ∃ t, exec (.directWrite x b v) s = .next t ∧ OnlyLane x s t ∧ Raised 83 (s.lane x) (t.lane x) ∧
      (t.lane x).get (Reg.GD_CNT_XLOCK_COUNT b) =
        min ((s.lane x).get (Reg.GD_CNT_XLOCK_COUNT b) + 1) (2 ^ (Reg.GD_CNT_XLOCK_COUNT b).width - 1) ∧
      ((t.lane x).sw (swKey b i false)).edge ≠ .on ∧ ((t.lane x).sw (swKey b i true)).edge ≠ .on ∧
      Touches (raiseParts 83) (raiseAnd 83 [Reg.GD_DIRECT_HS b, Reg.GD_DIRECT_LS b, Reg.GD_CNT_XLOCK_COUNT b]) (s.lane x) (t.lane x))

/-- The supplies and the die-to-die link (R327, R337 to R340): a lost link latches LINK, puts both bridges to OFF and raises source 80; a low bootstrap voltage shows, is counted and
raised as source 84, and with no short sequence on the bridge turns the phase's high side off; a low gate supply shows, turns every switch off whose bridge runs no short sequence,
clears DRIVE_OK of both bridges (log entry 164) and raises source 85. One that is already shown changes nothing. A recovery clears its own bit; that of the gate supply gives a
bridge in RUN its DRIVE_OK again. Shorts (R342 to R350). A sample in which filters pass is recorded, and no other effect follows while SHORT is latched. With no sequence running it starts the sequence of its case, is counted and
raised as source 81 or 82, and the switches its case names first begin soft turn-off: every low side that is on where two legs or more are in the sample, else the detected ones. A
second leg in a later tick within S makes a single-leg sequence the two-leg case, from that sample on. A sample in which no detector of the named switches is active records
nothing. The second stage turns the high sides off softly, or the other switches with the turn-off profile; the end latches SHORT, and TWO_LEG for a two-leg case, and puts the bridge
to OFF. A high side that a bootstrap undervoltage turned off in the tick of a two-leg detection is left to the sequence (R357). -/
def Obligations.GateSuppliesLinkAndShorts : Prop :=
  (∀ (x : LaneId) (s : State), (s.lane x).up = true → (s.lane x).bit Reg.GD_STAT_LINK = false →
    ∃ t, exec (.dieLinkLoss x) s = .next t ∧ OnlyLane x s t ∧ (t.lane x).bit Reg.GD_STAT_LINK = true ∧ Raised 80 (s.lane x) (t.lane x) ∧
      (∀ b, b < 2 → (t.lane x).get (Reg.FC_BR_STAT_STATE b) = 0) ∧
      Touches (raiseParts 80) (raiseAnd 80 [Reg.GD_STAT_LINK]) (s.lane x) (t.lane x)) ∧
  (∀ (x : LaneId) (s : State), (s.lane x).up = true → (s.lane x).bit Reg.GD_STAT_LINK = true →
    ∃ t, exec (.dieLinkLoss x) s = .next t ∧ OnlyLane x s t ∧ Touches [.fm] noRegs (s.lane x) (t.lane x)) ∧
  (∀ (x : LaneId) (b : Fin 2) (ph : Fin 3) (s : State), (s.lane x).up = true → (s.lane x).bitOf (Reg.GD_FLT_BSUV b) ph = false →
    ∃ t, exec (.bootstrapUndervoltage x b ph) s = .next t ∧ OnlyLane x s t ∧ (t.lane x).bitOf (Reg.GD_FLT_BSUV b) ph = true ∧
      (t.lane x).get (Reg.GD_CNT_BSUV_COUNT b) =
        min ((s.lane x).get (Reg.GD_CNT_BSUV_COUNT b) + 1) (2 ^ (Reg.GD_CNT_BSUV_COUNT b).width - 1) ∧ Raised 84 (s.lane x) (t.lane x) ∧
      ((s.lane x).shortOf b = none → ((t.lane x).sw (swKey b ph true)).edge ≠ .on) ∧
      Touches (raiseParts 84) (raiseAnd 84 [Reg.GD_FLT_BSUV b, Reg.GD_CNT_BSUV_COUNT b]) (s.lane x) (t.lane x)) ∧
  (∀ (x : LaneId) (b : Fin 2) (ph : Fin 3) (s : State), (s.lane x).up = true → (s.lane x).bitOf (Reg.GD_FLT_BSUV b) ph = true →
    ∃ t, exec (.bootstrapUndervoltage x b ph) s = .next t ∧ OnlyLane x s t ∧ Touches [.fm] noRegs (s.lane x) (t.lane x)) ∧
  (∀ (x : LaneId) (b : Fin 2) (ph : Fin 3) (s : State), (s.lane x).up = true →
    ∃ t, exec (.bootstrapRecovery x b ph) s = .next t ∧ OnlyLane x s t ∧ (t.lane x).bitOf (Reg.GD_FLT_BSUV b) ph = false ∧
      Touches [.fm] (fields [] [Reg.GD_FLT_BSUV b]) (s.lane x) (t.lane x)) ∧
  (∀ (x : LaneId) (s : State), (s.lane x).up = true → (s.lane x).bit Reg.GD_STAT_VGD_UV = false →
    ∃ t, exec (.gateSupplyUndervoltage x) s = .next t ∧ OnlyLane x s t ∧ (t.lane x).bit Reg.GD_STAT_VGD_UV = true ∧
      Raised 85 (s.lane x) (t.lane x) ∧
      (∀ b, b < 2 → (t.lane x).get (Reg.FC_BR_STAT_DRIVE_OK b) = 0 ∧
        ((s.lane x).shortOf b = none → ∀ k, k < 6 → ((t.lane x).sw (6 * b + k)).edge ≠ .on)) ∧
      Touches (raiseParts 85) (raiseAnd 85 [Reg.GD_STAT_VGD_UV]) (s.lane x) (t.lane x)) ∧
  (∀ (x : LaneId) (s : State), (s.lane x).up = true → (s.lane x).bit Reg.GD_STAT_VGD_UV = true →
    ∃ t, exec (.gateSupplyUndervoltage x) s = .next t ∧ OnlyLane x s t ∧ Touches [.fm] noRegs (s.lane x) (t.lane x)) ∧
  (∀ (x : LaneId) (s : State), (s.lane x).up = true →
    ∃ t, exec (.gateSupplyRecovery x) s = .next t ∧ OnlyLane x s t ∧ (t.lane x).bit Reg.GD_STAT_VGD_UV = false ∧
      (∀ b, b < 2 → (t.lane x).get (Reg.FC_BR_STAT_DRIVE_OK b) =
        if (s.lane x).get (Reg.FC_BR_STAT_STATE b) = 3 then 1 else (s.lane x).get (Reg.FC_BR_STAT_DRIVE_OK b)) ∧
      Touches [.fm] (fields [] [Reg.GD_STAT_VGD_UV, Reg.FC_BR_STAT_DRIVE_OK 0, Reg.FC_BR_STAT_DRIVE_OK 1]) (s.lane x) (t.lane x)) ∧
  (∀ (x : LaneId) (b : Fin 2) (phases : BitVec 3) (two : Bool) (s : State), (s.lane x).up = true → phases ≠ 0 →
    (s.lane x).shortOf b = none → (s.lane x).bit (Reg.GD_FLT_SHORT b) = false →
    two = decide (2 ≤ countIf (bitAt phases.toNat) [0, 1, 2]) → (∀ i, i < 3 → (s.lane x).undoBsuv (swKey b i true) = s.lane x) →
    ∃ t, exec (.hardShortDetection x b phases) s = .next t ∧ OnlyLane x s t ∧ Raised (81 + b) (s.lane x) (t.lane x) ∧
      (t.lane x).get (Reg.GD_FLT_HSHORT b) = Nat.lor ((s.lane x).get (Reg.GD_FLT_HSHORT b)) phases.toNat ∧
      (t.lane x).get (Reg.GD_CNT_SHORT_COUNT b) =
        min ((s.lane x).get (Reg.GD_CNT_SHORT_COUNT b) + 1) (2 ^ (Reg.GD_CNT_SHORT_COUNT b).width - 1) ∧
      (t.lane x).shortOf b =
        some { at_ := (s.lane x).now, twoLeg := two, legs := phases, stage := 1, sample := (0, 0, phases.toNat)
               was := (List.range 6).map fun i => (6 * b + i, (s.lane x).sw (6 * b + i)) } ∧
      (∀ i, i < 3 → (two || bitAt phases.toNat i) = true → (s.lane x).conducting (swKey b i false) = true →
        ((t.lane x).sw (swKey b i false)).edge = .soft ∧ ((t.lane x).sw (swKey b i false)).start = (s.lane x).now) ∧
      Touches (raiseParts (81 + b)) (raiseAnd (81 + b) [Reg.GD_FLT_HSHORT b, Reg.GD_CNT_SHORT_COUNT b]) (s.lane x) (t.lane x)) ∧
  (∀ (x : LaneId) (b : Fin 2) (phases : BitVec 3) (s : State), (s.lane x).up = true →
    (s.lane x).shortOf b = none → (s.lane x).bit (Reg.GD_FLT_SHORT b) = true →
    ∃ t, exec (.hardShortDetection x b phases) s = .next t ∧ OnlyLane x s t ∧
      (t.lane x).get (Reg.GD_FLT_HSHORT b) = Nat.lor ((s.lane x).get (Reg.GD_FLT_HSHORT b)) phases.toNat ∧
      Touches [.fm] (fields [] [Reg.GD_FLT_HSHORT b]) (s.lane x) (t.lane x)) ∧
  (∀ (x : LaneId) (b : Fin 2) (phases : BitVec 3) (q : ShortSeq) (all : Nat) (s : State), (s.lane x).up = true →
    (s.lane x).shortOf b = some q → q.twoLeg = false → all = Nat.lor q.legs.toNat phases.toNat → all ≠ q.legs.toNat →
    q.at_ < (s.lane x).now → (s.lane x).now < q.at_ + (s.lane x).get (Reg.GD_SHORT_SOFT_T b) →
    ∃ t, exec (.hardShortDetection x b phases) s = .next t ∧ OnlyLane x s t ∧
      (t.lane x).get (Reg.GD_FLT_HSHORT b) = Nat.lor ((s.lane x).get (Reg.GD_FLT_HSHORT b)) phases.toNat ∧
      (t.lane x).shortOf b =
        some { at_ := (s.lane x).now, twoLeg := true, legs := BitVec.ofNat 3 all, stage := 1, sample := (0, 0, 0), was := [] } ∧
      (∀ i, i < 3 → (s.lane x).conducting (swKey b i false) = true → ((t.lane x).sw (swKey b i false)).edge = .soft) ∧
      Touches [.gd, .fm] (fields [] [Reg.GD_FLT_HSHORT b]) (s.lane x) (t.lane x)) ∧
  (∀ (x : LaneId) (b : Fin 2) (high low : BitVec 3) (legs : Nat) (two : Bool) (s : State), (s.lane x).up = true →
    (∀ i, i < 3 → (!bitAt high.toNat i || (s.lane x).desatActive (swKey b i true)) = true) →
    (∀ i, i < 3 → (!bitAt low.toNat i || (s.lane x).desatActive (swKey b i false)) = true) →
    legs = Nat.lor high.toNat low.toNat → legs ≠ 0 → (s.lane x).shortOf b = none → (s.lane x).bit (Reg.GD_FLT_SHORT b) = false →
    two = decide (2 ≤ countIf (bitAt legs) [0, 1, 2]) → (∀ i, i < 3 → (s.lane x).undoBsuv (swKey b i true) = s.lane x) →
    ∃ t, exec (.desatDetection x b high low) s = .next t ∧ OnlyLane x s t ∧ Raised (81 + b) (s.lane x) (t.lane x) ∧
      (t.lane x).get (Reg.GD_FLT_DESAT_H b) = Nat.lor ((s.lane x).get (Reg.GD_FLT_DESAT_H b)) high.toNat ∧
      (t.lane x).get (Reg.GD_FLT_DESAT_L b) = Nat.lor ((s.lane x).get (Reg.GD_FLT_DESAT_L b)) low.toNat ∧
      (t.lane x).get (Reg.GD_CNT_SHORT_COUNT b) =
        min ((s.lane x).get (Reg.GD_CNT_SHORT_COUNT b) + 1) (2 ^ (Reg.GD_CNT_SHORT_COUNT b).width - 1) ∧
      (t.lane x).shortOf b =
        some { at_ := (s.lane x).now, twoLeg := two, legs := BitVec.ofNat 3 legs, stage := 1, sample := (high.toNat, low.toNat, 0)
               was := (List.range 6).map fun i => (6 * b + i, (s.lane x).sw (6 * b + i)) } ∧
      (∀ i, i < 3 → (two = true → (s.lane x).conducting (swKey b i false) = true → ((t.lane x).sw (swKey b i false)).edge = .soft) ∧
        (two = false → bitAt high.toNat i = true → ((t.lane x).sw (swKey b i true)).edge = .soft) ∧
        (two = false → bitAt low.toNat i = true → ((t.lane x).sw (swKey b i false)).edge = .soft)) ∧
      Touches (raiseParts (81 + b)) (raiseAnd (81 + b) [Reg.GD_FLT_DESAT_H b, Reg.GD_FLT_DESAT_L b, Reg.GD_CNT_SHORT_COUNT b])
        (s.lane x) (t.lane x)) ∧
  (∀ (x : LaneId) (b : Fin 2) (high low : BitVec 3) (s : State), (s.lane x).up = true →
    (∀ i, i < 3 → (bitAt high.toNat i && (s.lane x).desatActive (swKey b i true)) = false) →
    (∀ i, i < 3 → (bitAt low.toNat i && (s.lane x).desatActive (swKey b i false)) = false) →
    ∃ t, exec (.desatDetection x b high low) s = .next t ∧ OnlyLane x s t ∧ Touches [.fm] noRegs (s.lane x) (t.lane x)) ∧
  (∀ (x : LaneId) (b : Fin 2) (T : Nat) (q : ShortSeq) (s : State), (s.lane x).up = true → (s.lane x).shortOf b = some q →
    (s.lane x).stageDue b = some T →
    ∃ t, exec (.shortSequenceStage x b) s = .next t ∧ OnlyLane x (s.reach x T) t ∧
      (t.lane x).shortOf b = some { q with stage := 2 } ∧
      (∀ i, i < 3 → q.twoLeg = true → ((s.lane x).sw (swKey b i true)).edge = .on → ((t.lane x).sw (swKey b i true)).edge = .soft) ∧
      (∀ k, k < 6 → q.twoLeg = false → ((t.lane x).sw (6 * b + k)).edge ≠ .on) ∧
      Touches [.gd, .fm] noRegs ((s.reach x T).lane x) (t.lane x)) ∧
  (∀ (x : LaneId) (b : Fin 2) (T : Nat) (q : ShortSeq) (s : State), (s.lane x).up = true → (s.lane x).shortOf b = some q →
    (s.lane x).shortEndDue b = some T →
    ∃ t, exec (.shortSequenceEnd x b) s = .next t ∧ OnlyLane x (s.reach x T) t ∧ (t.lane x).shortOf b = none ∧
      (t.lane x).bit (Reg.GD_FLT_SHORT b) = true ∧
      (t.lane x).bit (Reg.GD_FLT_TWO_LEG b) = ((s.lane x).bit (Reg.GD_FLT_TWO_LEG b) || q.twoLeg) ∧
      (t.lane x).bitOf Reg.GD_STAT_FLT b = true ∧
      (t.lane x).get (Reg.FC_BR_STAT_STATE b) = 0 ∧ (t.lane x).get (Reg.FC_BR_STAT_DRIVE_OK b) = 0 ∧
      (∀ k, k < 6 → ((t.lane x).sw (6 * b + k)).edge ≠ .on ∧ (q.twoLeg = true → ((t.lane x).sw (6 * b + k)).phase = 3)) ∧
      Touches (.fm :: stopParts) (fields [0x4001] ([Reg.GD_FLT_SHORT b, Reg.GD_FLT_TWO_LEG b, Reg.GD_STAT_FLT] ++ stopFlds))
        ((s.reach x T).lane x) (t.lane x)) ∧
  (∀ (x : LaneId) (b : Fin 2) (i : Fin 3) (phases : BitVec 3) (s : State), (s.lane x).up = true →
    2 ≤ countIf (bitAt phases.toNat) [0, 1, 2] → (s.lane x).shortOf b = none → (s.lane x).bit (Reg.GD_FLT_SHORT b) = false →
    (s.lane x).bitOf (Reg.GD_FLT_BSUV b) i = true → ((s.lane x).sw (swKey b i true)).edge = .off → ((s.lane x).sw (swKey b i true)).phase = 1 →
    ((s.lane x).sw (swKey b i true)).start = (s.lane x).now →
    ∃ t, exec (.hardShortDetection x b phases) s = .next t ∧ OnlyLane x s t ∧ ((t.lane x).sw (swKey b i true)).edge = .on)

/-- The enable ball and the torque-off line (R351 to R356), the ball in every power state: EN_x low for 100 ns or more shows and puts both bridges to OFF; under 50 ns only the time it
went low is kept; between the two one or the other happens. Its rise shows; after 5 µs or more low it clears the latched faults, after less than 4.5 µs none, between them it may; it
starts no bridge. TORQUE_OFF_LINE: GD shows the line, and an asserted line puts both bridges to OFF. -/
def Obligations.EnableBallAndTorqueOffLine : Prop :=
  (∀ (x : LaneId) (ns : Nat) (s : State), 100 ≤ ns →
    ∃ t, exec (.enLow x ns) s = .next t ∧ OnlyLane x s t ∧ (t.lane x).pins = { (s.lane x).pins with en := false } ∧
      (t.lane x).bit Reg.GD_STAT_EN = false ∧ (t.lane x).gd.enLow = some (((s.lane x).now : Int) - (ns / 10 : Nat)) ∧
      (∀ b, b < 2 → (t.lane x).get (Reg.FC_BR_STAT_STATE b) = 0 ∧ (t.lane x).get (Reg.FC_BR_STAT_DRIVE_OK b) = 0) ∧
      Touches (.pins :: .fm :: stopParts) (fields [0x4001] (Reg.GD_STAT_EN :: stopFlds)) (s.lane x) (t.lane x)) ∧
  (∀ (x : LaneId) (ns : Nat) (s : State), ns < 50 →
    ∃ t, exec (.enLow x ns) s = .next t ∧ OnlyLane x s t ∧
      (t.lane x).gd = { (s.lane x).gd with enLow := some (((s.lane x).now : Int) - (ns / 10 : Nat)) } ∧
      Touches [.gd, .fm] noRegs (s.lane x) (t.lane x)) ∧
  (∀ (x : LaneId) (ns : Nat) (s : State), 50 ≤ ns → ns < 100 →
    ∃ t, exec (.enLow x ns) s = .next t ∧ OnlyLane x s t ∧ (t.lane x).gd.enLow = some (((s.lane x).now : Int) - (ns / 10 : Nat)) ∧
      (((t.lane x).pins.en = false ∧ (t.lane x).get (Reg.FC_BR_STAT_STATE 0) = 0 ∧ (t.lane x).get (Reg.FC_BR_STAT_STATE 1) = 0) ∨
        Touches [.gd, .fm, .free] noRegs (s.lane x) (t.lane x)) ∧
      Touches (.pins :: .free :: .fm :: stopParts) (fields [0x4001] (Reg.GD_STAT_EN :: stopFlds)) (s.lane x) (t.lane x)) ∧
  (∀ (x : LaneId) (t0 : Int) (s : State), (s.lane x).gd.enLow = some t0 → t0 + 500 ≤ ((s.lane x).now : Int) →
    ∃ t, exec (.enRise x) s = .next t ∧ OnlyLane x s t ∧ (t.lane x).pins = { (s.lane x).pins with en := true } ∧
      (t.lane x).gd = { (s.lane x).gd with enLow := none } ∧ (t.lane x).bit Reg.GD_STAT_EN = true ∧
      (t.lane x).bit Reg.GD_STAT_LINK = false ∧ (t.lane x).get Reg.GD_STAT_FLT = 0 ∧
      (∀ b, b < 2 → ∀ f, f ∈ [Reg.GD_FLT_SHORT b, Reg.GD_FLT_TWO_LEG b, Reg.GD_FLT_DESAT_H b, Reg.GD_FLT_DESAT_L b, Reg.GD_FLT_HSHORT b] →
        (t.lane x).get f = 0) ∧
      Touches [.gd, .pins, .fm] (fields [] [Reg.GD_STAT_EN, Reg.GD_STAT_LINK, Reg.GD_STAT_FLT, Reg.GD_FLT_SHORT 0, Reg.GD_FLT_SHORT 1,
        Reg.GD_FLT_TWO_LEG 0, Reg.GD_FLT_TWO_LEG 1, Reg.GD_FLT_DESAT_H 0, Reg.GD_FLT_DESAT_H 1, Reg.GD_FLT_DESAT_L 0, Reg.GD_FLT_DESAT_L 1,
        Reg.GD_FLT_HSHORT 0, Reg.GD_FLT_HSHORT 1]) (s.lane x) (t.lane x)) ∧
  (∀ (x : LaneId) (s : State), ((s.lane x).gd.enLow.all fun t0 => decide (((s.lane x).now : Int) < t0 + 450)) = true →
    ∃ t, exec (.enRise x) s = .next t ∧ OnlyLane x s t ∧ (t.lane x).pins = { (s.lane x).pins with en := true } ∧
      (t.lane x).gd = { (s.lane x).gd with enLow := none } ∧ (t.lane x).bit Reg.GD_STAT_EN = true ∧
      Touches [.gd, .pins, .fm] (fields [] [Reg.GD_STAT_EN]) (s.lane x) (t.lane x)) ∧
  (∀ (x : LaneId) (t0 : Int) (s : State), (s.lane x).gd.enLow = some t0 → t0 + 450 ≤ ((s.lane x).now : Int) → ((s.lane x).now : Int) < t0 + 500 →
    ∃ t, exec (.enRise x) s = .next t ∧ OnlyLane x s t ∧ (t.lane x).pins = { (s.lane x).pins with en := true } ∧
      (t.lane x).gd = { (s.lane x).gd with enLow := none } ∧ (t.lane x).bit Reg.GD_STAT_EN = true ∧
      Touches [.gd, .pins, .free, .fm] (fields [] [Reg.GD_STAT_EN, Reg.GD_STAT_LINK, Reg.GD_STAT_FLT, Reg.GD_FLT_SHORT 0, Reg.GD_FLT_SHORT 1,
        Reg.GD_FLT_TWO_LEG 0, Reg.GD_FLT_TWO_LEG 1, Reg.GD_FLT_DESAT_H 0, Reg.GD_FLT_DESAT_H 1, Reg.GD_FLT_DESAT_L 0, Reg.GD_FLT_DESAT_L 1,
        Reg.GD_FLT_HSHORT 0, Reg.GD_FLT_HSHORT 1]) (s.lane x) (t.lane x)) ∧
  (∀ (x : LaneId) (s : State), (s.lane x).up = true →
    ∃ t, exec (.torqueOffLine x) s = .next t ∧ OnlyLane x s t ∧ (t.lane x).bit Reg.GD_STAT_TOFF = (s.lane x).bit Reg.SM_STAT_TOFF ∧
      ((s.lane x).bit Reg.SM_STAT_TOFF = true → ∀ b, b < 2 → (t.lane x).get (Reg.FC_BR_STAT_STATE b) = 0) ∧
      ((s.lane x).bit Reg.SM_STAT_TOFF = false → Touches [.fm] (fields [] [Reg.GD_STAT_TOFF]) (s.lane x) (t.lane x)) ∧
      Touches (.fm :: stopParts) (fields [0x4001] (Reg.GD_STAT_TOFF :: stopFlds)) (s.lane x) (t.lane x))

/-! ### The core pair (08_core_pair.md) -/

/-- COMMIT_GATE_TRANSACTION (R361 to R378). In lockstep, with nothing waiting: a store to SRAM that both cores present alike is performed once, its old bytes are kept in the journal and both are answered; a load or fetch from
SRAM outside the shared windows answers both with the word there; an access that PMP denies makes no bus access; two WFIs leave both cores waiting. Where the transactions differ nothing is performed and the restart begins: source 16 is raised where
the input logs agree, 17 where they do not, and at the third event in succession 19 with refuge (in LAST-LANE held back, R562). In split running each core's access is performed for it alone, with no journal entry. A restart or a throttled pair makes no access. A dispatch interrupt that
waited is taken at the checkpoint that follows, and a trap after it; the cause each of them shows is that of R404 and R560. -/
def Obligations.TheCommitGate : Prop :=
  (∀ (x : LaneId) (c : CoreTxn) (s : State), (s.lane x).up = true → (s.lane x).get Reg.CP_STAT_STATE = 0 → (s.lane x).coresRun = true →
    (s.lane x).throttled 0 = false → c.kind = .store → pmpAllows c = true → (s.lane x).trapWaits 0 = false → (s.lane x).cp.trap = false →
    c.csrReads = [] → 0x20000000 ≤ c.addr.toNat → c.addr.toNat < 0x20800000 → (s.lane x).inShared c.addr.toNat = false →
    (s.lane x).cp.journal.length < 1023 →
    (s.lane x).cp.inlog.zero.length < 16 → (s.lane x).cp.inlog.one.length < 16 → (s.lane x).cp.splitReq = none →
    (s.lane x).cp.haltReq = [] → (s.lane x).cp.pmReq = false →
    ∃ t, exec (.commitGateTransaction x c c) s = .next t ∧ OnlyLaneMem x s t ∧
      t.memOf x = (s.memOf x).setMasked (c.addr.toNat / 4 * 4) c.mask.toNat c.data.toNat ∧
      (t.lane x).cp.journal =
        (c.addr.toNat / 4 * 4, c.mask, BitVec.ofNat 32 ((s.memOf x).word (c.addr.toNat / 4 * 4))) :: (s.lane x).cp.journal ∧
      (t.lane x).cp.regs = ⟨c.regs, c.regs⟩ ∧ (t.lane x).cp.answer = ⟨{}, {}⟩ ∧
      (t.lane x).get Reg.CP_STAT_JOURNAL = (t.lane x).cp.journal.length % 2 ^ Reg.CP_STAT_JOURNAL.width ∧
      Touches [.cp, .fm] (fields [] [Reg.CP_STAT_JOURNAL, Reg.CP_STAT_INLOG]) (s.lane x) (t.lane x)) ∧
  (∀ (x : LaneId) (c : CoreTxn) (s : State), (s.lane x).up = true → (s.lane x).get Reg.CP_STAT_STATE = 0 → (s.lane x).coresRun = true →
    (s.lane x).throttled 0 = false → c.kind = .load ∨ c.kind = .fetch → pmpAllows c = true → (s.lane x).trapWaits 0 = false →
    (s.lane x).cp.trap = false → c.csrReads = [] → 0x20000000 ≤ c.addr.toNat → c.addr.toNat < 0x20800000 →
    (s.lane x).inShared c.addr.toNat = false → (s.lane x).cp.journal.length < 1024 → (s.lane x).cp.inlog.zero.length < 16 →
    (s.lane x).cp.inlog.one.length < 16 → (s.lane x).cp.splitReq = none → (s.lane x).cp.haltReq = [] → (s.lane x).cp.pmReq = false →
    ∃ t, exec (.commitGateTransaction x c c) s = .next t ∧ OnlyLane x s t ∧
      (t.lane x).cp.answer = ⟨⟨BitVec.ofNat 32 ((s.memOf x).word (c.addr.toNat / 4 * 4)), false⟩,
        ⟨BitVec.ofNat 32 ((s.memOf x).word (c.addr.toNat / 4 * 4)), false⟩⟩ ∧
      (t.lane x).cp.regs = ⟨c.regs, c.regs⟩ ∧ (t.lane x).cp.journal = (s.lane x).cp.journal ∧
      Touches [.cp, .fm] (fields [] [Reg.CP_STAT_JOURNAL, Reg.CP_STAT_INLOG]) (s.lane x) (t.lane x)) ∧
  (∀ (x : LaneId) (c : CoreTxn) (s : State), (s.lane x).up = true → (s.lane x).get Reg.CP_STAT_STATE = 0 → (s.lane x).coresRun = true →
    (s.lane x).throttled 0 = false → c.kind ≠ .wfi → pmpAllows c = false → c.csrReads = [] → (s.lane x).cp.journal.length < 1024 →
    (s.lane x).cp.inlog.zero.length < 16 → (s.lane x).cp.inlog.one.length < 16 → (s.lane x).cp.splitReq = none →
    (s.lane x).cp.haltReq = [] → (s.lane x).cp.pmReq = false →
    ∃ t, exec (.commitGateTransaction x c c) s = .next t ∧ OnlyLane x s t ∧ (t.lane x).cp.regs = ⟨c.regs, c.regs⟩ ∧
      (t.lane x).cp.journal = (s.lane x).cp.journal ∧ (t.lane x).cp.answer = (s.lane x).cp.answer ∧
      Touches [.cp, .fm] (fields [] [Reg.CP_STAT_JOURNAL, Reg.CP_STAT_INLOG]) (s.lane x) (t.lane x)) ∧
  (∀ (x : LaneId) (c d : CoreTxn) (s : State), (s.lane x).up = true → (s.lane x).lockstep = true → (s.lane x).coresRun = true →
    (s.lane x).throttled 0 = false → c.kind = .wfi → d.kind = .wfi → (s.lane x).wakePending = false →
    ∃ t, exec (.commitGateTransaction x c d) s = .next t ∧ OnlyLane x s t ∧ (t.lane x).cp.wfi = true ∧
      Touches [.cp, .fm] (fields [] [Reg.CP_STAT_JOURNAL, Reg.CP_STAT_INLOG, Reg.PM_STAT_STATE]) (s.lane x) (t.lane x)) ∧
  (∀ (x : LaneId) (c d : CoreTxn) (w : Nat) (s : State), (s.lane x).up = true → (s.lane x).lockstep = true →
    (s.lane x).coresRun = true → (s.lane x).throttled 0 = false → txnDiffers c d = some w → c.csrReads = [] → d.csrReads = [] →
    (s.lane x).cp.inlog.zero = (s.lane x).cp.inlog.one → (s.lane x).cp.events.length < 2 →
    ∃ t, exec (.commitGateTransaction x c d) s = .next t ∧ OnlyLane x s t ∧ (t.lane x).get Reg.CP_STAT_STATE = 1 ∧
      (t.lane x).get Reg.CP_LAST_KIND = 1 ∧ (t.lane x).get Reg.CP_LAST_WHERE = w ∧
      (t.lane x).get Reg.CP_LAST_ADDR_ADDR = c.addr.toNat ∧ Raised 16 (s.lane x) (t.lane x)) ∧
  (∀ (x : LaneId) (c d : CoreTxn) (w : Nat) (s : State), (s.lane x).up = true → (s.lane x).lockstep = true →
    (s.lane x).coresRun = true → (s.lane x).throttled 0 = false → txnDiffers c d = some w → c.csrReads = [] → d.csrReads = [] →
    (s.lane x).cp.inlog.zero ≠ (s.lane x).cp.inlog.one → (s.lane x).cp.events.length < 2 →
    ∃ t, exec (.commitGateTransaction x c d) s = .next t ∧ OnlyLane x s t ∧ (t.lane x).get Reg.CP_STAT_STATE = 1 ∧
      (t.lane x).get Reg.CP_LAST_KIND = 2 ∧ (t.lane x).get Reg.CP_LAST_WHERE = w ∧ Raised 17 (s.lane x) (t.lane x)) ∧
  (∀ (x : LaneId) (c d : CoreTxn) (w : Nat) (s : State), (s.lane x).up = true → (s.lane x).lockstep = true →
    (s.lane x).coresRun = true → (s.lane x).throttled 0 = false → txnDiffers c d = some w → (s.lane x).cp.events = [2, 2] →
    ∃ t, exec (.commitGateTransaction x c d) s = .next t ∧ OnlyLane x s t ∧ Raised 19 (s.lane x) (t.lane x) ∧
      ((s.lane x).mode ≠ 4 → (t.lane x).md.resetNext = true ∧ (t.lane x).md.refuge = true) ∧
      ((s.lane x).mode = 4 → (t.lane x).bit Reg.FM_STAT_LRST_PEND = true ∧ (t.lane x).md = (s.lane x).md)) ∧
  (∀ (x : LaneId) (c d : CoreTxn) (s : State), (s.lane x).up = true → (s.lane x).get Reg.CP_STAT_STATE = 3 → (s.lane x).coresRun = true →
    (s.lane x).coreRuns 0 c = true → (s.lane x).coreRuns 1 d = true → c.kind = .store → d.kind = .wfi → pmpAllows c = true →
    (s.lane x).trapWaits 0 = false → (s.lane x).trapWaits 1 = false → (s.lane x).cp.trap = false →
    0x20000000 ≤ c.addr.toNat → c.addr.toNat < 0x20800000 →
    ∃ t, exec (.commitGateTransaction x c d) s = .next t ∧ OnlyLaneMem x s t ∧
      t.memOf x = (s.memOf x).setMasked (c.addr.toNat / 4 * 4) c.mask.toNat c.data.toNat ∧
      (t.lane x).cp.journal = (s.lane x).cp.journal ∧ (t.lane x).cp.regs = ⟨c.regs, d.regs⟩ ∧ (t.lane x).cp.answer.zero = {} ∧
      (t.lane x).cp.answer.one = (s.lane x).cp.answer.one ∧ Touches [.cp, .fm] noRegs (s.lane x) (t.lane x)) ∧
  (∀ (x : LaneId) (c d : CoreTxn) (s : State),
    (s.lane x).up = false ∨ (s.lane x).coresRun = false ∨ ((s.lane x).lockstep && (s.lane x).throttled 0) = true →
    ∃ t, exec (.commitGateTransaction x c d) s = .next t ∧ t = s) ∧
  (∀ (x : LaneId) (c : CoreTxn) (s : State), (s.lane x).up = true → (s.lane x).get Reg.CP_STAT_STATE = 0 → (s.lane x).coresRun = true →
    (s.lane x).throttled 0 = false → c.kind = .store ∨ c.kind = .load → c.ecc = .clean → pmpAllows c = true → c.csrReads = [] →
    0x20000000 ≤ c.addr.toNat → c.addr.toNat < 0x20800000 → (s.lane x).cp.journal.length < 1023 → (s.lane x).cp.splitReq = none →
    (s.lane x).cp.haltReq = [] → (s.lane x).trapWaits 0 = true →
    ∃ t, exec (.commitGateTransaction x c c) s = .next t ∧ OnlyLaneMem x s t ∧ ((t.lane x).target 0).taken = true ∧ (t.lane x).cp.cause = 0 ∧
      (t.lane x).cp.journal = [] ∧ (t.lane x).cp.snap = ⟨c.regs, c.regs⟩ ∧
      ((s.lane x).cp.trap = false → (t.lane x).cp.mcause = ⟨some 0x8000000B, some 0x8000000B⟩) ∧
      ((s.lane x).cp.trap = true → (t.lane x).cp.trap = false ∧ (t.lane x).fm.trapSet = some (s.lane x).fm.trapBits ∧
        (t.lane x).cp.mcause = ⟨some 0x80000010, some 0x80000010⟩))

/-- PARTNER_TIMEOUT (R367): the late core is recorded, counted, source 18 raised, and the restart begins; at the third in succession with one core late, that core is isolated. PAIR_RESTART_END (R378): memory is back at the
checkpoint, the journal and the logs are empty, the cores hold the checkpoint's registers, and the pair is in lockstep, or waits for the split asked for; a halt that waited
splits the pair with its core halted, and an isolated core leaves the pair in fault split (R394). CORE_INTERNAL_FAULT (R381): the core is isolated, the other leads, source 20 is raised; a
pair in lockstep restarts, a split pair is in fault split at once. WFI (R369, R628): both cores wait, and with IDLE_EN set the lane is in IDLE; with a wake condition pending nothing happens. -/
def Obligations.PairEventsAndWfi : Prop :=
  (∀ (x : LaneId) (late : Fin 2) (addr : Word) (s : State), (s.lane x).up = true → (s.lane x).gateOpen = true →
    (s.lane x).cp.events = [] →
    ∃ t, exec (.partnerTimeout x late addr) s = .next t ∧ OnlyLane x s t ∧ (t.lane x).get Reg.CP_STAT_STATE = 1 ∧
      (t.lane x).get Reg.CP_LAST_KIND = 3 + late ∧ (t.lane x).get Reg.CP_LAST_ADDR_ADDR = addr.toNat ∧ Raised 18 (s.lane x) (t.lane x) ∧
      (t.lane x).get Reg.CP_CNT_TIMEOUT_COUNT =
        min ((s.lane x).get Reg.CP_CNT_TIMEOUT_COUNT + 1) (2 ^ Reg.CP_CNT_TIMEOUT_COUNT.width - 1) ∧
      Touches (raiseParts 18) (raiseAnd 18 [Reg.CP_STAT_STATE, Reg.CP_STAT_CONSEC, Reg.CP_LAST_KIND, Reg.CP_LAST_WHERE, Reg.CP_LAST_CAUSE,
        Reg.CP_LAST_UNWOUND, Reg.CP_LAST_ADDR_ADDR, Reg.CP_CNT_TIMEOUT_COUNT]) (s.lane x) (t.lane x)) ∧
  (∀ (x : LaneId) (late : Fin 2) (addr : Word) (s : State), (s.lane x).up = true → (s.lane x).gateOpen = true →
    (s.lane x).cp.events = [late.val, late.val] →
    ∃ t, exec (.partnerTimeout x late addr) s = .next t ∧ OnlyLane x s t ∧ (t.lane x).bitOf Reg.CP_STAT_ISOLATED late = true ∧
      (t.lane x).get Reg.CP_STAT_LEAD = 1 - late ∧ Raised 18 (s.lane x) (t.lane x)) ∧
  (∀ (x : LaneId) (s : State), (s.lane x).up = true → (s.lane x).get Reg.CP_STAT_STATE = 1 →
    (s.lane x).get Reg.CP_STAT_ISOLATED = 0 → (s.lane x).cp.haltReq = [] →
    ∃ t, exec (.pairRestartEnd x) s = .next t ∧ OnlyLaneMem x s t ∧ t.memOf x = unwind (s.memOf x) (s.lane x).cp.journal ∧
      (t.lane x).cp = { (s.lane x).cp with journal := [], inlog := ⟨[], []⟩, regs := (s.lane x).cp.snap, wfi := false } ∧
      (t.lane x).get Reg.CP_STAT_STATE = (if (s.lane x).cp.splitReq.isSome then 2 else 0) ∧
      ((t.lane x).target 0 = { (s.lane x).target 0 with taken := ((s.lane x).target 0).taken && decide ((s.lane x).cp.cause ≠ 0) }) ∧
      Touches [.cp, .ts] (fields [] [Reg.CP_STAT_STATE, Reg.CP_STAT_JOURNAL, Reg.CP_STAT_INLOG, Reg.PM_STAT_STATE]) (s.lane x) (t.lane x)) ∧
  (∀ (x : LaneId) (core : Fin 2) (s : State), (s.lane x).up = true → (s.lane x).lockstep = true →
    ∃ t, exec (.coreInternalFault x core) s = .next t ∧ OnlyLane x s t ∧ (t.lane x).bitOf Reg.CP_STAT_ISOLATED core = true ∧
      (t.lane x).get Reg.CP_STAT_LEAD = 1 - core ∧ (t.lane x).get Reg.CP_STAT_STATE = 1 ∧ Raised 20 (s.lane x) (t.lane x) ∧
      Touches (raiseParts 20) (raiseAnd 20 [Reg.CP_STAT_STATE, Reg.CP_STAT_ISOLATED, Reg.CP_STAT_LEAD, Reg.CP_LAST_KIND, Reg.CP_LAST_WHERE,
        Reg.CP_LAST_CAUSE, Reg.CP_LAST_UNWOUND, Reg.CP_CNT_SPLIT_COUNT]) (s.lane x) (t.lane x)) ∧
  (∀ (x : LaneId) (core : Fin 2) (s : State), (s.lane x).up = true → (s.lane x).lockstep = false →
    ∃ t, exec (.coreInternalFault x core) s = .next t ∧ OnlyLane x s t ∧ (t.lane x).bitOf Reg.CP_STAT_ISOLATED core = true ∧
      (t.lane x).get Reg.CP_STAT_LEAD = 1 - core ∧ (t.lane x).get Reg.CP_STAT_STATE = 5 ∧ Raised 20 (s.lane x) (t.lane x)) ∧
  (∀ (x : LaneId) (s : State), (s.lane x).up = true → (s.lane x).wakePending = false →
    ∃ t, exec (.wfi x) s = .next t ∧ OnlyLane x s t ∧ (t.lane x).cp = { (s.lane x).cp with wfi := true } ∧
      (t.lane x).get Reg.PM_STAT_STATE = (if (s.lane x).bit Reg.PM_CFG_IDLE_EN = true ∧ (s.lane x).get Reg.PM_STAT_STATE = 0 then 1
        else (s.lane x).get Reg.PM_STAT_STATE) ∧
      Touches [.cp, .fm] (fields [] [Reg.PM_STAT_STATE]) (s.lane x) (t.lane x)) ∧
  (∀ (x : LaneId) (s : State), (s.lane x).up = true → (s.lane x).wakePending = true →
    ∃ t, exec (.wfi x) s = .next t ∧ OnlyLane x s t ∧ Touches [.fm] noRegs (s.lane x) (t.lane x)) ∧
  (∀ (x : LaneId) (core : Fin 2) (s : State), (s.lane x).up = true → (s.lane x).get Reg.CP_STAT_STATE = 1 →
    (s.lane x).get Reg.CP_STAT_ISOLATED = 0 → (s.lane x).cp.haltReq = [core.val] →
    ∃ t, exec (.pairRestartEnd x) s = .next t ∧ OnlyLaneMem x s t ∧ t.memOf x = unwind (s.memOf x) (s.lane x).cp.journal ∧
      (t.lane x).get Reg.CP_STAT_STATE = 3 ∧ (t.lane x).get Reg.CP_STAT_LEAD = 1 - core ∧ (t.lane x).bit (haltFld core) = true ∧
      (t.lane x).bit Reg.CP_STAT_DEBUG_SPLIT = true ∧ (t.lane x).cp.haltReq = []) ∧
  (∀ (x : LaneId) (s : State), (s.lane x).up = true → (s.lane x).get Reg.CP_STAT_STATE = 1 → (s.lane x).get Reg.CP_STAT_ISOLATED ≠ 0 →
    ∃ t, exec (.pairRestartEnd x) s = .next t ∧ OnlyLaneMem x s t ∧ t.memOf x = unwind (s.memOf x) (s.lane x).cp.journal ∧
      (t.lane x).get Reg.CP_STAT_STATE = 5 ∧ (t.lane x).cp.haltReq = [] ∧ (t.lane x).cp.splitReq = none ∧
      ∀ core, core < 2 → (s.lane x).cp.haltReq.contains core = true → (s.lane x).bitOf Reg.CP_STAT_ISOLATED core = false →
        (t.lane x).bit (haltFld core) = true)

/-- Split and rejoin (R383, R387): a split in LOCKSTEP that the mode permits waits for the next checkpoint (SPLIT_REQUEST is answered 0); one it does not permit answers RESULT 1 and raises source 2, one in another state answers 3 in fault split and
else 2, and raises source 21. A rejoin from SPLIT with no halted core drains the follower for DRAIN µs; with a halted core it answers 4, in fault split 3, and else 2, and raises source 21. DRAIN_TIMEOUT asks for the dispatch that pre-empts the
follower's task, after a dispatch whose choice is fixed; with no task there it asks nothing. Debug (R390 to R393, R400): a halt of a lockstep pair waits for the next checkpoint; one of a running core of a split pair that is not isolated takes place at once, signals TS event 196, and where DEBUG_SPLIT was clear sets it and raises source
176; of a halted or an isolated core it changes nothing. A resume ends a halt and a single step lets the halted core of a split pair run one instruction, each with TS event 197; of a core that is not halted they change nothing. A session opens or
closes, with TS event 198. -/
def Obligations.SplitRejoinAndDebug : Prop :=
  (∀ (x : LaneId) (lead : Fin 2) (s : State), (s.lane x).up = true → (s.lane x).permits .split = true →
    (s.lane x).get Reg.CP_STAT_STATE = 0 →
    ∃ t, exec (.splitRequest x lead) s = .next t ∧ OnlyLane x s t ∧ (t.lane x).get Reg.CP_SPLIT_RESULT = 0 ∧
      (t.lane x).get Reg.CP_SPLIT_LEAD = lead ∧ (t.lane x).get Reg.CP_SPLIT_REQ = 1 ∧
      (t.lane x).get Reg.CP_STAT_STATE = 2 ∧ (t.lane x).cp = { (s.lane x).cp with splitReq := some lead.val } ∧
      Touches [.cp, .fm] (fields [] [Reg.CP_SPLIT_LEAD, Reg.CP_SPLIT_RESULT, Reg.CP_SPLIT_REQ, Reg.CP_STAT_STATE]) (s.lane x) (t.lane x)) ∧
  (∀ (x : LaneId) (lead : Fin 2) (s : State), (s.lane x).up = true → (s.lane x).permits .split = false →
    ∃ t, exec (.splitRequest x lead) s = .next t ∧ OnlyLane x s t ∧ (t.lane x).get Reg.CP_SPLIT_RESULT = 1 ∧ Raised 2 (s.lane x) (t.lane x) ∧
      Touches (raiseParts 2) (raiseAnd 2 [Reg.CP_SPLIT_LEAD, Reg.CP_SPLIT_RESULT]) (s.lane x) (t.lane x)) ∧
  (∀ (x : LaneId) (lead : Fin 2) (s : State), (s.lane x).up = true → (s.lane x).permits .split = true →
    (s.lane x).get Reg.CP_STAT_STATE ≠ 0 →
    ∃ t, exec (.splitRequest x lead) s = .next t ∧ OnlyLane x s t ∧
      (t.lane x).get Reg.CP_SPLIT_RESULT = (if (s.lane x).get Reg.CP_STAT_STATE = 5 then 3 else 2) ∧ Raised 21 (s.lane x) (t.lane x) ∧
      Touches (raiseParts 21) (raiseAnd 21 [Reg.CP_SPLIT_LEAD, Reg.CP_SPLIT_RESULT]) (s.lane x) (t.lane x)) ∧
  (∀ (x : LaneId) (s : State), (s.lane x).up = true → (s.lane x).get Reg.CP_STAT_STATE = 3 → (s.lane x).bit Reg.CP_STAT_HALT0 = false →
    (s.lane x).bit Reg.CP_STAT_HALT1 = false →
    ∃ t, exec (.rejoinRequest x) s = .next t ∧ OnlyLane x s t ∧ (t.lane x).get Reg.CP_SPLIT_RESULT = 0 ∧
      (t.lane x).get Reg.CP_SPLIT_REJOIN = 1 ∧ (t.lane x).get Reg.CP_STAT_STATE = 4 ∧ ((t.lane x).target 1).drain = true ∧
      (t.lane x).cp = { (s.lane x).cp with drainAt := some ((s.lane x).now + (s.lane x).get Reg.CP_REJOIN_CFG_DRAIN * 100) } ∧
      Touches [.ts, .cp, .fm] (fields [] [Reg.CP_SPLIT_RESULT, Reg.CP_SPLIT_REJOIN, Reg.CP_STAT_STATE]) (s.lane x) (t.lane x)) ∧
  (∀ (x : LaneId) (s : State), (s.lane x).up = true →
    (s.lane x).get Reg.CP_STAT_STATE ≠ 3 ∨ (s.lane x).bit Reg.CP_STAT_HALT0 = true ∨ (s.lane x).bit Reg.CP_STAT_HALT1 = true →
    ∃ t, exec (.rejoinRequest x) s = .next t ∧ OnlyLane x s t ∧
      (t.lane x).get Reg.CP_SPLIT_RESULT = (if (s.lane x).get Reg.CP_STAT_STATE = 3 then 4 else if (s.lane x).get Reg.CP_STAT_STATE = 5 then 3
        else 2) ∧
      Raised 21 (s.lane x) (t.lane x) ∧ Touches (raiseParts 21) (raiseAnd 21 [Reg.CP_SPLIT_RESULT]) (s.lane x) (t.lane x)) ∧
  (∀ (x : LaneId) (T : Nat) (p : Bool) (s : State), (s.lane x).up = true → (s.lane x).cp.drainAt = some T →
    p = (((s.lane x).target 1).fixed.isNone && ((s.lane x).target 1).drain && ((s.lane x).running 1).isSome) →
    ∃ t, exec (.drainTimeout x) s = .next t ∧ OnlyLane x (s.reach x T) t ∧
      (t.lane x).cp = { (s.lane x).cp with drainAt := none, wfi := (s.lane x).cp.wfi && !p } ∧
      (t.lane x).target 1 = { (s.lane x).target 1 with irq := ((s.lane x).target 1).irq || p } ∧
      (t.lane x).target 0 = (s.lane x).target 0 ∧ Touches [.cp, .ts, .fm] (fields [] [Reg.PM_STAT_STATE]) ((s.reach x T).lane x) (t.lane x) ∧
      (p = false → (t.lane x).get Reg.PM_STAT_STATE = (s.lane x).get Reg.PM_STAT_STATE)) ∧
  (∀ (x : LaneId) (core : Fin 2) (s : State), (s.lane x).up = true → (s.lane x).lockstep = true →
    ∃ t, exec (.debugHalt x core) s = .next t ∧ OnlyLane x s t ∧ (t.lane x).cp = { (s.lane x).cp with haltReq := if (s.lane x).cp.haltReq.contains core.val then (s.lane x).cp.haltReq else (s.lane x).cp.haltReq ++ [core.val] } ∧
      Touches [.cp, .fm] noRegs (s.lane x) (t.lane x)) ∧
  (∀ (x : LaneId) (core : Fin 2) (s : State), (s.lane x).up = true → (s.lane x).lockstep = false →
    (s.lane x).bitOf Reg.CP_STAT_ISOLATED core = false → (s.lane x).bit (haltFld core) = false →
    (s.lane x).bit Reg.CP_STAT_DEBUG_SPLIT = false →
    ∃ t, exec (.debugHalt x core) s = .next t ∧ OnlyLane x s t ∧ (t.lane x).bit (haltFld core) = true ∧
      (t.lane x).bit Reg.CP_STAT_DEBUG_SPLIT = true ∧ Raised 176 (s.lane x) (t.lane x) ∧
      Touches (raiseParts 176) (raiseAnd 176 [haltFld core, Reg.CP_STAT_DEBUG_SPLIT]) (s.lane x) (t.lane x)) ∧
  (∀ (x : LaneId) (core : Fin 2) (s : State), (s.lane x).up = true → (s.lane x).lockstep = false →
    (s.lane x).bitOf Reg.CP_STAT_ISOLATED core = false → (s.lane x).bit (haltFld core) = false →
    (s.lane x).bit Reg.CP_STAT_DEBUG_SPLIT = true →
    ∃ t, exec (.debugHalt x core) s = .next t ∧ OnlyLane x s t ∧ (t.lane x).bit (haltFld core) = true ∧ Signalled 196 (s.lane x) (t.lane x) ∧
      Touches [.ts, .cp, .fm] (fields [0x4001] [Reg.PM_STAT_STATE, haltFld core]) (s.lane x) (t.lane x)) ∧
  (∀ (x : LaneId) (core : Fin 2) (s : State), (s.lane x).up = true → (s.lane x).lockstep = false →
    (s.lane x).bitOf Reg.CP_STAT_ISOLATED core = true ∨ (s.lane x).bit (haltFld core) = true →
    ∃ t, exec (.debugHalt x core) s = .next t ∧ OnlyLane x s t ∧ Touches [.fm] noRegs (s.lane x) (t.lane x)) ∧
  (∀ (x : LaneId) (core : Fin 2) (s : State), (s.lane x).up = true → (s.lane x).lockstep = false → (s.lane x).bit (haltFld core) = true →
    ∃ t, exec (.debugResume x core) s = .next t ∧ OnlyLane x s t ∧ (t.lane x).bit (haltFld core) = false ∧ Signalled 197 (s.lane x) (t.lane x) ∧
      Touches [.ts, .cp, .fm] (fields [0x4001] [Reg.PM_STAT_STATE, haltFld core]) (s.lane x) (t.lane x)) ∧
  (∀ (x : LaneId) (core : Fin 2) (s : State), (s.lane x).up = true → (s.lane x).lockstep = false → (s.lane x).bit (haltFld core) = true →
    ∃ t, exec (.debugSingleStep x core) s = .next t ∧ OnlyLane x s t ∧ (t.lane x).cp.stepping.get core = true ∧
      Signalled 197 (s.lane x) (t.lane x) ∧ Touches [.ts, .cp, .fm] (fields [0x4001] [Reg.PM_STAT_STATE]) (s.lane x) (t.lane x)) ∧
  (∀ (x : LaneId) (core : Fin 2) (s : State), (s.lane x).up = true → (s.lane x).lockstep = true ∨ (s.lane x).bit (haltFld core) = false →
    ∃ t, exec (.debugResume x core) s = .next t ∧ OnlyLane x s t ∧ Touches [.fm] noRegs (s.lane x) (t.lane x)) ∧
  (∀ (x : LaneId) (core : Fin 2) (s : State), (s.lane x).up = true → (s.lane x).lockstep = true ∨ (s.lane x).bit (haltFld core) = false →
    ∃ t, exec (.debugSingleStep x core) s = .next t ∧ OnlyLane x s t ∧ Touches [.fm] noRegs (s.lane x) (t.lane x)) ∧
  (∀ (x : LaneId) (isOpen : Bool) (s : State), (s.lane x).awake = true → (s.lane x).cp.debugOpen ≠ isOpen →
    ∃ t, exec (.debugSessionChange x isOpen) s = .next t ∧ OnlyLane x s t ∧ (t.lane x).cp.debugOpen = isOpen ∧
      Signalled 198 (s.lane x) (t.lane x) ∧ Touches [.ts, .cp, .fm] (fields [0x4001] [Reg.PM_STAT_STATE]) (s.lane x) (t.lane x)) ∧
  (∀ (x : LaneId) (s : State), (s.lane x).awake = true →
    ∃ t, exec (.debugSessionChange x (s.lane x).cp.debugOpen) s = .next t ∧ OnlyLane x s t ∧ Touches [.fm] noRegs (s.lane x) (t.lane x))

/-! ### Tasks, queues, flows and the interconnect (09_tasks_arbitration.md) -/

/-- TS_EVENT, SIGNAL and FLAG_CLEAR (R398, R399, R414): an event sets the flag its enabled route names, and one without an enabled route changes nothing; a signal sets the flag it names; a write of 1s clears the flags it names
but those that a queue holds set or an event set at this instant. Nothing else but task states, dispatch interrupts and the cores' wait changes. Dispatch (R404, R405, R408). DISPATCH_READ: the first read after the interrupt fixes the outgoing and the incoming task, a later one shows the same, and one with no interrupt shows none. DISPATCH_ACK: with a choice fixed, the incoming task runs, counted;
an outgoing task that was pre-empted is READY and counted, one that ended by YIELD_END DORMANT; where both are one task it goes on; with none fixed nothing happens. YIELD and YIELD_END raise a dispatch with the running task as OUT; on an idle target
they change nothing. -/
def Obligations.EventsFlagsAndDispatch : Prop :=
  (∀ (x : LaneId) (e : Fin 256) (s : State), (s.lane x).up = true → eventExists e = true →
    ∃ t, exec (.tsEvent x e) s = .next t ∧ OnlyLane x s t ∧ Signalled e (s.lane x) (t.lane x) ∧
      Touches [.ts, .cp, .fm] tsRegs (s.lane x) (t.lane x)) ∧
  (∀ (x : LaneId) (e : Fin 256) (s : State), (s.lane x).up = true → (eventExists e && (s.lane x).bit (Reg.TS_ROUTE_EN e)) = false →
    ∃ t, exec (.tsEvent x e) s = .next t ∧ OnlyLane x s t ∧ Touches [.fm] noRegs (s.lane x) (t.lane x)) ∧
  (∀ (x : LaneId) (task : Fin 256) (flag : Fin 32) (s : State), (s.lane x).up = true →
    ∃ t, exec (.signal x task flag) s = .next t ∧ OnlyLane x s t ∧ (t.lane x).bitOf (Reg.TS_TASK_FLAGS_FLAGS task) flag = true ∧
      Touches [.ts, .cp, .fm] tsRegs (s.lane x) (t.lane x)) ∧
  (∀ (x : LaneId) (task : Fin 256) (flag : Fin 32) (v : Word) (s : State), (s.lane x).up = true →
    ∃ t, exec (.flagClear x task v) s = .next t ∧ OnlyLane x s t ∧
      (t.lane x).bitOf (Reg.TS_TASK_FLAGS_FLAGS task) flag =
        ((!bitAt v.toNat flag || (s.lane x).keptFlag task flag) && (s.lane x).bitOf (Reg.TS_TASK_FLAGS_FLAGS task) flag) ∧
      Touches [.ts, .cp, .fm] tsRegs (s.lane x) (t.lane x)) ∧
  (∀ (x : LaneId) (k : Fin 2) (s : State), (s.lane x).up = true → ((s.lane x).target k).irq = true → ((s.lane x).target k).fixed = none →
    ∃ t, exec (.dispatchRead x k) s = .next t ∧ OnlyLane x s t ∧
      ((t.lane x).target k).fixed = some ((s.lane x).running k, (s.lane x).choose k) ∧ (t.lane x).bit Reg.TS_DISP_VALID = true ∧
      (t.lane x).bit Reg.TS_DISP_OUT_NONE = ((s.lane x).running k).isNone ∧ (t.lane x).bit Reg.TS_DISP_IN_NONE = ((s.lane x).choose k).isNone ∧
      Touches [.ts, .fm] (fields [] [Reg.TS_DISP_VALID, Reg.TS_DISP_FRESH, Reg.TS_DISP_OUT_NONE, Reg.TS_DISP_IN_NONE, Reg.TS_DISP_IN,
        Reg.TS_DISP_OUT]) (s.lane x) (t.lane x)) ∧
  (∀ (x : LaneId) (k : Fin 2) (s : State), (s.lane x).up = true → ((s.lane x).target k).fixed ≠ none ∨ ((s.lane x).target k).irq = false →
    ∃ t, exec (.dispatchRead x k) s = .next t ∧ OnlyLane x s t ∧
      (t.lane x).bit Reg.TS_DISP_VALID = ((s.lane x).target k).fixed.isSome ∧
      Touches [.fm] (fields [] [Reg.TS_DISP_VALID, Reg.TS_DISP_FRESH, Reg.TS_DISP_OUT_NONE, Reg.TS_DISP_IN_NONE, Reg.TS_DISP_IN,
        Reg.TS_DISP_OUT]) (s.lane x) (t.lane x)) ∧
  (∀ (x : LaneId) (k : Fin 2) (n : Fin 256) (s : State), (s.lane x).up = true → ((s.lane x).target k).fixed = some (none, some n.val) →
    ∃ t, exec (.dispatchAck x k) s = .next t ∧ OnlyLane x s t ∧ (t.lane x).running k = some n.val ∧
      (t.lane x).get (Reg.TS_TASK_STAT_STATE n) = 3 ∧ ((t.lane x).target k).fixed = none ∧ ((t.lane x).target k).yielding = none ∧
      (t.lane x).get (Reg.TS_TASK_STAT_DISPATCHES n) =
        ((s.lane x).get (Reg.TS_TASK_STAT_DISPATCHES n) + 1) % 2 ^ (Reg.TS_TASK_STAT_DISPATCHES n).width ∧
      Touches [.ts, .cp, .fm] tsRegs (s.lane x) (t.lane x)) ∧
  (∀ (x : LaneId) (k : Fin 2) (m n : Fin 256) (s : State), (s.lane x).up = true → m ≠ n →
    ((s.lane x).target k).fixed = some (some m.val, some n.val) → ((s.lane x).task m).disable = false →
    ((s.lane x).target k).yielding ≠ some false →
    ∃ t, exec (.dispatchAck x k) s = .next t ∧ OnlyLane x s t ∧ (t.lane x).running k = some n.val ∧
      (t.lane x).get (Reg.TS_TASK_STAT_STATE n) = 3 ∧
      (t.lane x).get (Reg.TS_TASK_STAT_STATE m) = (if ((s.lane x).target k).yielding = none then 2 else 0) ∧
      (t.lane x).get Reg.TS_CNT_PREEMPT_COUNT = (if ((s.lane x).target k).yielding = none then
        min ((s.lane x).get Reg.TS_CNT_PREEMPT_COUNT + 1) (2 ^ Reg.TS_CNT_PREEMPT_COUNT.width - 1) else (s.lane x).get Reg.TS_CNT_PREEMPT_COUNT) ∧
      Touches [.ts, .cp, .fm] tsRegs (s.lane x) (t.lane x)) ∧
  (∀ (x : LaneId) (k : Fin 2) (m : Fin 256) (s : State), (s.lane x).up = true → ((s.lane x).target k).fixed = some (some m.val, some m.val) →
    ∃ t, exec (.dispatchAck x k) s = .next t ∧ OnlyLane x s t ∧ (t.lane x).running k = (s.lane x).running k ∧
      ((t.lane x).target k).fixed = none ∧ (t.lane x).get (Reg.TS_TASK_STAT_STATE m) = (s.lane x).get (Reg.TS_TASK_STAT_STATE m) ∧
      Touches [.ts, .cp, .fm] tsRegs (s.lane x) (t.lane x)) ∧
  (∀ (x : LaneId) (k : Fin 2) (s : State), (s.lane x).up = true → ((s.lane x).target k).fixed = none →
    ∃ t, exec (.dispatchAck x k) s = .next t ∧ OnlyLane x s t ∧ Touches [.fm] noRegs (s.lane x) (t.lane x)) ∧
  (∀ (x : LaneId) (k : Fin 2) (s : State), (s.lane x).up = true → ((s.lane x).running k).isSome = true →
    ∃ t, exec (.tsYield x k) s = .next t ∧ OnlyLane x s t ∧ ((t.lane x).target k).irq = true ∧
      ((t.lane x).target k).yielding = some false ∧ Touches [.ts, .cp, .fm] (fields [] [Reg.PM_STAT_STATE]) (s.lane x) (t.lane x)) ∧
  (∀ (x : LaneId) (k : Fin 2) (s : State), (s.lane x).up = true → ((s.lane x).running k).isSome = true →
    ∃ t, exec (.tsYieldEnd x k) s = .next t ∧ OnlyLane x s t ∧ ((t.lane x).target k).irq = true ∧
      ((t.lane x).target k).yielding = some true ∧ Touches [.ts, .cp, .fm] (fields [] [Reg.PM_STAT_STATE]) (s.lane x) (t.lane x)) ∧
  (∀ (x : LaneId) (k : Fin 2) (s : State), (s.lane x).up = true → (s.lane x).running k = none →
    ∃ t, exec (.tsYield x k) s = .next t ∧ OnlyLane x s t ∧ Touches [.fm] noRegs (s.lane x) (t.lane x)) ∧
  (∀ (x : LaneId) (k : Fin 2) (s : State), (s.lane x).up = true → (s.lane x).running k = none →
    ∃ t, exec (.tsYieldEnd x k) s = .next t ∧ OnlyLane x s t ∧ Touches [.fm] noRegs (s.lane x) (t.lane x))

/-- Task commands (Table 9.13, R397, R409, R421): a DORMANT task is enabled and a FAULTED one restarted, fresh, to WAITING or, with a wanted flag set, to READY; in another state they change nothing. A disabled task that neither runs nor is the incoming
one of a fixed choice becomes DORMANT at once and holds no ticket that is not complete; another is marked and becomes so at its next dispatch out. -/
def Obligations.TaskCommands : Prop :=
  (∀ (x : LaneId) (n : Fin 256) (s : State), (s.lane x).up = true → (s.lane x).get (Reg.TS_TASK_STAT_STATE n) = 0 →
    ∃ t, exec (.taskEnable x n) s = .next t ∧ OnlyLane x s t ∧ (t.lane x).bit (Reg.TS_TASK_STAT_FRESH n) = true ∧
      (t.lane x).get (Reg.TS_TASK_STAT_STATE n) = (if (s.lane x).wanted n then 2 else 1) ∧
      Touches [.ts, .cp, .fm] tsRegs (s.lane x) (t.lane x)) ∧
  (∀ (x : LaneId) (n : Fin 256) (s : State), (s.lane x).up = true → (s.lane x).get (Reg.TS_TASK_STAT_STATE n) ≠ 0 →
    ∃ t, exec (.taskEnable x n) s = .next t ∧ OnlyLane x s t ∧ Touches [.fm] noRegs (s.lane x) (t.lane x)) ∧
  (∀ (x : LaneId) (n : Fin 256) (s : State), (s.lane x).up = true → (s.lane x).get (Reg.TS_TASK_STAT_STATE n) = 4 →
    ∃ t, exec (.taskRestart x n) s = .next t ∧ OnlyLane x s t ∧ (t.lane x).bit (Reg.TS_TASK_STAT_FRESH n) = true ∧
      (t.lane x).get (Reg.TS_TASK_STAT_STATE n) = (if (s.lane x).wanted n then 2 else 1) ∧
      Touches [.ts, .cp, .fm] tsRegs (s.lane x) (t.lane x)) ∧
  (∀ (x : LaneId) (n : Fin 256) (s : State), (s.lane x).up = true → (s.lane x).get (Reg.TS_TASK_STAT_STATE n) ≠ 4 →
    ∃ t, exec (.taskRestart x n) s = .next t ∧ OnlyLane x s t ∧ Touches [.fm] noRegs (s.lane x) (t.lane x)) ∧
  (∀ (x : LaneId) (n : Fin 256) (s : State), (s.lane x).up = true → (s.lane x).get (Reg.TS_TASK_STAT_STATE n) ≠ 3 →
    (s.lane x).incoming n = false →
    ∃ t, exec (.taskDisable x n) s = .next t ∧ OnlyLane x s t ∧ (t.lane x).get (Reg.TS_TASK_STAT_STATE n) = 0 ∧
      (∀ f, f < 32 → ((t.lane x).flow f).all (fun k => !(k.holder = n.val) || k.done.isSome) = true) ∧
      Touches [.ts, .fm] tsRegs (s.lane x) (t.lane x)) ∧
  (∀ (x : LaneId) (n : Fin 256) (s : State), (s.lane x).up = true →
    (s.lane x).get (Reg.TS_TASK_STAT_STATE n) = 3 ∨ (s.lane x).incoming n = true →
    ∃ t, exec (.taskDisable x n) s = .next t ∧ OnlyLane x s t ∧ ((t.lane x).task n).disable = true ∧
      Touches [.ts, .fm] noRegs (s.lane x) (t.lane x))

/-- The hardware queues are first in, first out (R413, R415): a push is appended, after one that is held, waits at a full queue, and stores nothing at one that is not enabled, where a core in lockstep is answered with an error; a pop gives the oldest
entry with bit 31 set, or 0; the oldest core push, held for 1 µs at a full queue, ends without being stored, answered with an error, counted, and raised as source 25; a held push enters once there is space. A pop that found the
queue empty in the tick of a push takes its entry after all (Table 9.6). -/
def Obligations.QueuesAreFirstInFirstOut : Prop :=
  (∀ (x : LaneId) (q : Fin 64) (d : BitVec 31) (core : Bool) (s : State), (s.lane x).up = true →
    (s.lane x).bit (Reg.TS_Q_CFG_EN q) = true → (s.lane x).heldPush q = [] → (s.lane x).queueFull q = false →
    (s.lane x).emptyPops q = [] →
    ∃ t, exec (.queuePush x q d core) s = .next t ∧ OnlyLane x s t ∧ (t.lane x).queue q = (s.lane x).queue q ++ [d.toNat] ∧
      (∀ p, p ≠ q.val → (t.lane x).queue p = (s.lane x).queue p) ∧ Signalled (32 + q) (s.lane x) (t.lane x) ∧
      Touches [.ts, .cp, .fm] tsRegs (s.lane x) (t.lane x)) ∧
  (∀ (x : LaneId) (q : Fin 64) (d : BitVec 31) (core : Bool) (e : HeldPush) (s : State), (s.lane x).up = true →
    (s.lane x).bit (Reg.TS_Q_CFG_EN q) = true → (s.lane x).heldPush q = [e] → ((s.lane x).queue q).length + 1 < (s.lane x).queueCap q →
    (s.lane x).emptyPops q = [] →
    ∃ t, exec (.queuePush x q d core) s = .next t ∧ OnlyLane x s t ∧ (t.lane x).heldPush q = [] ∧
      (t.lane x).queue q = (s.lane x).queue q ++ [e.data, d.toNat] ∧ Touches [.ts, .cp, .fm] tsRegs (s.lane x) (t.lane x)) ∧
  (∀ (x : LaneId) (q : Fin 64) (d : BitVec 31) (core : Bool) (s : State), (s.lane x).up = true →
    (s.lane x).bit (Reg.TS_Q_CFG_EN q) = true → (s.lane x).queueFull q = true →
    ∃ t, exec (.queuePush x q d core) s = .next t ∧ OnlyLane x s t ∧
      (t.lane x).heldPush q = (s.lane x).heldPush q ++ [⟨core, 0, d.toNat, (s.lane x).now⟩] ∧ (t.lane x).queue q = (s.lane x).queue q ∧
      Touches [.ts, .fm] noRegs (s.lane x) (t.lane x)) ∧
  (∀ (x : LaneId) (q : Fin 64) (d : BitVec 31) (s : State), (s.lane x).up = true → (s.lane x).bit (Reg.TS_Q_CFG_EN q) = false →
    ∃ t, exec (.queuePush x q d false) s = .next t ∧ OnlyLane x s t ∧ Touches [.fm] noRegs (s.lane x) (t.lane x)) ∧
  (∀ (x : LaneId) (q : Fin 64) (d : BitVec 31) (s : State), (s.lane x).up = true → (s.lane x).bit (Reg.TS_Q_CFG_EN q) = false →
    ∃ t, exec (.queuePush x q d true) s = .next t ∧ OnlyLane x s t ∧
      ((s.lane x).lockstep = true → (t.lane x).cp.answer = ⟨⟨0, true⟩, ⟨0, true⟩⟩) ∧ Touches [.cp, .fm] noRegs (s.lane x) (t.lane x)) ∧
  (∀ (x : LaneId) (q : Fin 64) (d : Nat) (rest : List Nat) (s : State), (s.lane x).up = true → (s.lane x).queue q = d :: rest →
    ∃ t, exec (.queuePop x q) s = .next t ∧ OnlyLane x s t ∧ (t.lane x).queue q = rest ∧ (t.lane x).bit (Reg.TS_Q_POP_VALID q) = true ∧
      (t.lane x).get (Reg.TS_Q_POP_DATA q) = d % 2 ^ 31 ∧ (∀ p, p ≠ q.val → (t.lane x).queue p = (s.lane x).queue p) ∧
      Touches [.ts, .fm] (fields [] ([Reg.TS_Q_STAT_FILL q, Reg.TS_Q_STAT_FULL q, Reg.TS_Q_POP_VALID q, Reg.TS_Q_POP_DATA q] ++
        (List.range 32).map Reg.TS_FLOW_STAT_WAIT_OQ)) (s.lane x) (t.lane x)) ∧
  (∀ (x : LaneId) (q : Fin 64) (s : State), (s.lane x).up = true → (s.lane x).queue q = [] →
    ∃ t, exec (.queuePop x q) s = .next t ∧ OnlyLane x s t ∧ (t.lane x).get (Reg.TS_Q_POP_VALID q) = 0 ∧
      (t.lane x).get (Reg.TS_Q_POP_DATA q) = 0 ∧
      (t.lane x).queue q = [] ∧ Touches [.ts, .fm] (fields [] [Reg.TS_Q_POP_VALID q, Reg.TS_Q_POP_DATA q]) (s.lane x) (t.lane x)) ∧
  (∀ (x : LaneId) (q : Fin 64) (e : HeldPush) (T : Nat) (s : State), (s.lane x).up = true → (s.lane x).pushDue q = some T →
    ((s.lane x).heldPush q).find? (·.core) = some e → (s.lane x).queueFull q = true →
    ∃ t, exec (.queuePushTimeout x q) s = .next t ∧ OnlyLane x (s.reach x T) t ∧ (t.lane x).heldPush q = ((s.lane x).heldPush q).erase e ∧
      (t.lane x).queue q = (s.lane x).queue q ∧ Raised 25 ((s.reach x T).lane x) (t.lane x) ∧
      (t.lane x).get (Reg.TS_Q_STAT_FULLREF q) =
        min ((s.lane x).get (Reg.TS_Q_STAT_FULLREF q) + 1) (2 ^ (Reg.TS_Q_STAT_FULLREF q).width - 1) ∧
      ((s.lane x).lockstep = true → (t.lane x).cp.answer = ⟨⟨0, true⟩, ⟨0, true⟩⟩) ∧
      Touches (raiseParts 25) (raiseAnd 25 [Reg.TS_Q_STAT_FULLREF q]) ((s.reach x T).lane x) (t.lane x)) ∧
  (∀ (x : LaneId) (q : Fin 64) (e : HeldPush) (rest : List HeldPush) (T : Nat) (s : State), (s.lane x).up = true →
    (s.lane x).pushDue q = some T → (s.lane x).heldPush q = e :: rest → (s.lane x).queueFull q = false →
    ((s.reach x T).lane x).emptyPops q = [] →
    ∃ t, exec (.queuePushTimeout x q) s = .next t ∧ OnlyLane x (s.reach x T) t ∧ (t.lane x).heldPush q = rest ∧
      (t.lane x).queue q = (s.lane x).queue q ++ [e.data] ∧ Touches [.ts, .cp, .fm] tsRegs ((s.reach x T).lane x) (t.lane x)) ∧
  (∀ (x : LaneId) (q : Fin 64) (e : HeldPush) (rest : List HeldPush) (s : State), (s.lane x).up = true →
    (s.lane x).heldPush q = e :: rest → (s.lane x).queueFull q = false → (s.lane x).emptyPops q = [] →
    ∃ t, exec (.queueSpacePush x q) s = .next t ∧ OnlyLane x s t ∧ (t.lane x).heldPush q = rest ∧
      (t.lane x).queue q = (s.lane x).queue q ++ [e.data] ∧ Touches [.ts, .cp, .fm] tsRegs (s.lane x) (t.lane x)) ∧
  (∀ (x : LaneId) (q : Fin 64) (s : State), (s.lane x).up = true → (s.lane x).heldPush q = [] ∨ (s.lane x).queueFull q = true →
    ∃ t, exec (.queueSpacePush x q) s = .next t ∧ OnlyLane x s t ∧ Touches [.fm] noRegs (s.lane x) (t.lane x)) ∧
  (∀ (x : LaneId) (q : Fin 64) (d : BitVec 31) (core : Bool) (r : Nat) (rest : List Nat) (s : State), (s.lane x).up = true →
    (s.lane x).bit (Reg.TS_Q_CFG_EN q) = true → (s.lane x).heldPush q = [] → (s.lane x).queueFull q = false →
    (s.lane x).emptyPops q = r :: rest →
    ∃ t, exec (.queuePush x q d core) s = .next t ∧ OnlyLane x s t ∧ (∀ p, (t.lane x).queue p = (s.lane x).queue p) ∧
      (t.lane x).bit (Reg.TS_Q_POP_VALID q) = true ∧ (t.lane x).get (Reg.TS_Q_POP_DATA q) = d.toNat ∧ Signalled (32 + q) (s.lane x) (t.lane x) ∧
      Touches [.ts, .cp, .fm] tsRegs (s.lane x) (t.lane x))

/-- Ordered flows (R417 to R420): an admission takes the oldest entry of IQ under the next ticket, without its bits [30:24], and reads 0 where IQ is empty, the flow is off or 64 tickets are out; a completion marks its ticket, and one of a ticket that is
not outstanding or already complete is counted and raised as source 26; a release moves the oldest complete ticket's result into OQ, and waits, shown by WAIT_OQ, while that is full. -/
def Obligations.FlowsReleaseInOrder : Prop :=
  (∀ (x : LaneId) (f : Fin 32) (task : Fin 256) (iq d : Nat) (rest : List Nat) (s : State), (s.lane x).up = true →
    iq = (s.lane x).get (Reg.TS_FLOW_CFG_IQ f) → (s.lane x).queue iq = d :: rest → (s.lane x).bit (Reg.TS_FLOW_CFG_EN f) = true →
    ((s.lane x).flow f).length < 64 →
    ∃ t, exec (.flowAdmit x f task) s = .next t ∧ OnlyLane x s t ∧ (t.lane x).queue iq = rest ∧
      (t.lane x).flow f = (s.lane x).flow f ++ [⟨(s.lane x).get (Reg.TS_FLOW_STAT_NEXT f), task, none, none⟩] ∧
      (t.lane x).get (Reg.TS_FLOW_STAT_NEXT f) = ((s.lane x).get (Reg.TS_FLOW_STAT_NEXT f) + 1) % 2 ^ 7 ∧
      (t.lane x).get (Reg.TS_FLOW_ADMIT_ITEM f) = 2 ^ 31 + (s.lane x).get (Reg.TS_FLOW_STAT_NEXT f) * 2 ^ 24 + d % 2 ^ 24 ∧
      (∀ p, p ≠ iq → (t.lane x).queue p = (s.lane x).queue p) ∧ (∀ g, g ≠ f.val → (t.lane x).flow g = (s.lane x).flow g) ∧
      Touches [.ts, .fm] (fields [0x4001] []) (s.lane x) (t.lane x)) ∧
  (∀ (x : LaneId) (f : Fin 32) (task : Fin 256) (s : State), (s.lane x).up = true →
    (s.lane x).queue ((s.lane x).get (Reg.TS_FLOW_CFG_IQ f)) = [] ∨ (s.lane x).bit (Reg.TS_FLOW_CFG_EN f) = false ∨
      64 ≤ ((s.lane x).flow f).length →
    ∃ t, exec (.flowAdmit x f task) s = .next t ∧ OnlyLane x s t ∧ (t.lane x).get (Reg.TS_FLOW_ADMIT_ITEM f) = 0 ∧
      Touches [.fm] (fields [] [Reg.TS_FLOW_ADMIT_ITEM f]) (s.lane x) (t.lane x)) ∧
  (∀ (x : LaneId) (f : Fin 32) (v : Word) (l : List Ticket) (s : State), (s.lane x).up = true →
    completeTicket (s.lane x).now (v.toNat / 2 ^ 24 % 2 ^ 7) (bitAt v.toNat 31, v.toNat % 2 ^ 24) ((s.lane x).flow f) = some l →
    ∃ t, exec (.flowDone x f v) s = .next t ∧ OnlyLane x s t ∧ (t.lane x).flow f = l ∧ l.length = ((s.lane x).flow f).length ∧
      (∀ g, g ≠ f.val → (t.lane x).flow g = (s.lane x).flow g) ∧ Touches [.ts, .fm] (fields [0x4001] []) (s.lane x) (t.lane x)) ∧
  (∀ (x : LaneId) (f : Fin 32) (v : Word) (s : State), (s.lane x).up = true →
    completeTicket (s.lane x).now (v.toNat / 2 ^ 24 % 2 ^ 7) (bitAt v.toNat 31, v.toNat % 2 ^ 24) ((s.lane x).flow f) = none →
    ∃ t, exec (.flowDone x f v) s = .next t ∧ OnlyLane x s t ∧ Raised 26 (s.lane x) (t.lane x) ∧
      (t.lane x).get (Reg.TS_FLOW_STAT_REFUSED f) =
        min ((s.lane x).get (Reg.TS_FLOW_STAT_REFUSED f) + 1) (2 ^ (Reg.TS_FLOW_STAT_REFUSED f).width - 1) ∧
      Touches (raiseParts 26) (raiseAnd 26 [Reg.TS_FLOW_STAT_REFUSED f]) (s.lane x) (t.lane x)) ∧
  (∀ (x : LaneId) (f : Fin 32) (id holder r oq : Nat) (drop : Bool) (fault : Option Nat) (rest : List Ticket) (s : State), (s.lane x).up = true →
    (s.lane x).flow f = ⟨id, holder, some (drop, r), fault⟩ :: rest → oq = (s.lane x).get (Reg.TS_FLOW_CFG_OQ f) →
    (s.lane x).queueFull oq = false → (s.lane x).bit (Reg.TS_Q_CFG_EN oq) = true → (s.lane x).emptyPops oq = [] →
    ∃ t, exec (.flowRelease x f) s = .next t ∧ OnlyLane x s t ∧ (t.lane x).flow f = rest ∧
      (t.lane x).queue oq = (s.lane x).queue oq ++ [b2n drop * 2 ^ 30 + r] ∧ (∀ g, g ≠ f.val → (t.lane x).flow g = (s.lane x).flow g) ∧
      Touches [.ts, .cp, .fm] tsRegs (s.lane x) (t.lane x)) ∧
  (∀ (x : LaneId) (f : Fin 32) (k : Ticket) (rest : List Ticket) (s : State), (s.lane x).up = true → (s.lane x).flow f = k :: rest →
    k.done.isSome = true → (s.lane x).queueFull ((s.lane x).get (Reg.TS_FLOW_CFG_OQ f)) = true →
    ∃ t, exec (.flowRelease x f) s = .next t ∧ OnlyLane x s t ∧ (∀ g, g < 32 → (t.lane x).flow g = (s.lane x).flow g) ∧ (∀ q, q < 64 → (t.lane x).queue q = (s.lane x).queue q) ∧
      (t.lane x).bit (Reg.TS_FLOW_STAT_WAIT_OQ f) = true ∧ Touches [.ts, .fm] (fields [0x4001] []) (s.lane x) (t.lane x)) ∧
  (∀ (x : LaneId) (f : Fin 32) (s : State), (s.lane x).up = true → headDone ((s.lane x).flow f) = false →
    ∃ t, exec (.flowRelease x f) s = .next t ∧ OnlyLane x s t ∧ Touches [.fm] noRegs (s.lane x) (t.lane x))

/-- The interconnect (R422 to R428). IX_RENEWAL, at its instant, gives every requester its tally at every target by the weights that hold; a requester that went short is counted and raised as source 29. IX_GRANT: a grant takes its beats off the
requester's tally, and at the SRAM its write reaches memory; of two requests at the SRAM the one with the larger tally is granted; an address outside Table 0.4 is raised as source 27. WEIGHT_WRITE: a weight that keeps the sum within 240 is taken, one
beyond, or a change while locked, is raised as source 28, and IX_WEIGHT[1] ignores writes. -/
def Obligations.TalliesGrantsAndWeights : Prop :=
  (∀ (x : LaneId) (throughout : List (Nat × Nat)) (k : Fin 4) (r : Fin 11) (s : State), (s.lane x).up = true →
    (s.lane x).underServed throughout = [] →
    ∃ t, exec (.ixRenewal x throughout) s = .next t ∧ OnlyLane x (s.reach x (s.lane x).renewalDue) t ∧
      (t.lane x).get (Reg.IX_TALLY_TALLY k r) =
        ((s.reach x (s.lane x).renewalDue).lane x).renewedTally k r % 2 ^ (Reg.IX_TALLY_TALLY k r).width ∧
      (t.lane x).ix.served = [] ∧ (t.lane x).ix.renewed = some ((s.reach x (s.lane x).renewalDue).lane x).now ∧
      Touches [.ix, .fm] (fields [] (Reg.IX_CTRL_SUM :: (List.range 44).map fun i => Reg.IX_TALLY_TALLY (i / 11) (i % 11)))
        ((s.reach x (s.lane x).renewalDue).lane x) (t.lane x)) ∧
  (∀ (x : LaneId) (throughout : List (Nat × Nat)) (r : Nat) (s : State), (s.lane x).up = true →
    (s.lane x).underServed throughout = [r] →
    ∃ t, exec (.ixRenewal x throughout) s = .next t ∧ OnlyLane x (s.reach x (s.lane x).renewalDue) t ∧
      Raised 29 ((s.reach x (s.lane x).renewalDue).lane x) (t.lane x) ∧
      (t.lane x).get (Reg.IX_CNT_SHORT_COUNT r) =
        min ((s.lane x).get (Reg.IX_CNT_SHORT_COUNT r) + 1) (2 ^ (Reg.IX_CNT_SHORT_COUNT r).width - 1) ∧ (t.lane x).ix.served = []) ∧
  (∀ (x : LaneId) (q : IxReq) (v : Word) (s : State), (s.lane x).up = true → 2 ≤ q.r.val → q.write = true → q.data = [v] →
    0x20000000 ≤ q.addr.toNat → q.addr.toNat < 0x20800000 →
    ∃ t, exec (.ixGrant x [q]) s = .next t ∧ OnlyLaneMem x s t ∧ t.memOf x = (if q.beats = 0 then s.memOf x else
        (s.memOf x).setMasked (q.addr.toNat / 4 * 4) 15 v.toNat) ∧
      (t.lane x).get (Reg.IX_TALLY_TALLY 0 q.r) = (s.lane x).get (Reg.IX_TALLY_TALLY 0 q.r) - min q.beats 8 ∧
      Touches [.ix, .fm] (fields [] [Reg.IX_TALLY_TALLY 0 q.r]) (s.lane x) (t.lane x)) ∧
  (∀ (x : LaneId) (p q : IxReq) (s : State), (s.lane x).up = true → 2 ≤ p.r.val → 2 ≤ q.r.val → p.write = false → q.write = false →
    0x20000000 ≤ p.addr.toNat → p.addr.toNat < 0x20800000 → 0x20000000 ≤ q.addr.toNat → q.addr.toNat < 0x20800000 →
    (s.lane x).get (Reg.IX_TALLY_TALLY 0 q.r) < (s.lane x).get (Reg.IX_TALLY_TALLY 0 p.r) →
    ∃ t, exec (.ixGrant x [p, q]) s = .next t ∧ OnlyLane x s t ∧
      (t.lane x).get (Reg.IX_TALLY_TALLY 0 p.r) = (s.lane x).get (Reg.IX_TALLY_TALLY 0 p.r) - min p.beats 8 ∧
      Touches [.ix, .fm] (fields [] [Reg.IX_TALLY_TALLY 0 p.r]) (s.lane x) (t.lane x)) ∧
  (∀ (x : LaneId) (q : IxReq) (s : State), (s.lane x).up = true → 2 ≤ q.r.val → placeOf q.addr.toNat = .nothing →
    ∃ t, exec (.ixGrant x [q]) s = .next t ∧ OnlyLane x s t ∧ Raised 27 (s.lane x) (t.lane x)) ∧
  (∀ (x : LaneId) (r : Fin 11) (v : Word) (s : State), (s.lane x).up = true → r.val ≠ 1 → (s.lane x).bit Reg.IX_CTRL_LOCK = false →
    (s.lane x).weightSum - (s.lane x).get (Reg.IX_WEIGHT_W r) + v.toNat % 256 ≤ 240 →
    ∃ t, exec (.weightWrite x r v) s = .next t ∧ OnlyLane x s t ∧ (t.lane x).get (Reg.IX_WEIGHT_W r) = v.toNat % 256 ∧
      Touches [.ix, .fm] (fields [] [Reg.IX_WEIGHT_W r]) (s.lane x) (t.lane x)) ∧
  (∀ (x : LaneId) (r : Fin 11) (v : Word) (s : State), (s.lane x).up = true → r.val ≠ 1 → (s.lane x).bit Reg.IX_CTRL_LOCK = false →
    240 < (s.lane x).weightSum - (s.lane x).get (Reg.IX_WEIGHT_W r) + v.toNat % 256 →
    ∃ t, exec (.weightWrite x r v) s = .next t ∧ OnlyLane x s t ∧ (t.lane x).bit Reg.IX_CTRL_REFUSED = true ∧
      Raised 28 (s.lane x) (t.lane x) ∧ Touches (raiseParts 28) (raiseAnd 28 [Reg.IX_CTRL_REFUSED]) (s.lane x) (t.lane x)) ∧
  (∀ (x : LaneId) (r : Fin 11) (v : Word) (s : State), (s.lane x).up = true → r.val ≠ 1 → (s.lane x).bit Reg.IX_CTRL_LOCK = true →
    v.toNat % 256 ≠ (s.lane x).get (Reg.IX_WEIGHT_W r) →
    ∃ t, exec (.weightWrite x r v) s = .next t ∧ OnlyLane x s t ∧ Raised 28 (s.lane x) (t.lane x) ∧
      Touches (raiseParts 28) (raiseRegs 28) (s.lane x) (t.lane x)) ∧
  (∀ (x : LaneId) (v : Word) (s : State), (s.lane x).up = true →
    ∃ t, exec (.weightWrite x 1 v) s = .next t ∧ OnlyLane x s t ∧ Touches [.fm] noRegs (s.lane x) (t.lane x))

/-! ### Network time (11_network_time.md) -/

/-- Domains (R492, R495, R497 to R499): an Announce of an acceptable grandmaster is recorded, makes an idle domain ACQUIRING, and goes on from the other port (one that passed this lane changes nothing; a path trace of more than 16 entries raises source 121); a two-step Sync on the slave port of a domain that has one waits for its Follow_Up, and the one that matches it makes the domain
SYNCED, as a one-step Sync does at once (with vehicle time invalid or following a SYNCED domain); the first Sync sets the domain's time by a step. A Follow_Up that stays away for one sync interval raises source 121; a receipt timeout makes the domain LOST
and raises source 122, and vehicle time that followed it goes over to the other domain or holds over. The Sync that waits leaves once on a master port that is up and free of ferry passes, within 50 µs of its start. A neighbour's peer-delay request is answered at once; peer delay keeps the times of request and answer and ends with the answer's Follow_Up. -/
def Obligations.DomainsFollowTheirGrandmaster : Prop :=
  (∀ (x : LaneId) (d port : Fin 2) (gm : BitVec 64) (msg : AnnounceMsg) (s : State), (s.lane x).up = true →
    (s.lane x).bit (Reg.TB_DOM_CFG_EN d) = true →
    (s.lane x).bit (Reg.TB_DOM_CFG_EXT d) = false ∨ (s.lane x).get (Reg.TB_DOM_CFG_SLAVE d) = port →
    (msg.path.map BitVec.toNat).contains (s.lane x).clockId = false → msg.path.length ≤ 16 →
    ∃ t, exec (.announceReceived x d port gm msg) s = .next t ∧ OnlyLane x s t ∧
      (t.lane x).get (Reg.TB_DOM_STAT_STATE d) =
        (if (s.lane x).get (Reg.TB_DOM_STAT_STATE d) = 0 then 1 else (s.lane x).get (Reg.TB_DOM_STAT_STATE d)) ∧
      (t.lane x).get (Reg.TB_DOM_GM_HI_GM d) = gm.toNat / 2 ^ 32 ∧ (t.lane x).get (Reg.TB_DOM_GM_LO_GM d) = gm.toNat % 2 ^ 32 ∧
      (t.lane x).get (Reg.TB_DOM_STAT_HOPS d) = min 255 msg.hops ∧ (t.lane x).get (Reg.TB_DOM_STAT_SLAVE_PORT d) = port ∧
      (t.lane x).dom d = { (s.lane x).dom d with annAt := (s.lane x).now, annTicks := secTicks msg.logInterval } ∧
      (t.lane x).tb.out = (s.lane x).tb.out ++
        [.announce d (1 - port.val) gm.toNat (msg.hops + 1) ((msg.path.map BitVec.toNat ++ [(s.lane x).clockId]).take 16)] ∧
      Touches [.tb, .fm] (fields [] [Reg.TB_DOM_GM_HI_GM d, Reg.TB_DOM_GM_LO_GM d, Reg.TB_DOM_STAT_HOPS d, Reg.TB_DOM_STAT_SLAVE_PORT d,
        Reg.TB_DOM_STAT_STATE d, Reg.TB_DOM_STAT_GMCHG d, domStateFld d]) (s.lane x) (t.lane x)) ∧
  (∀ (x : LaneId) (d port : Fin 2) (gm : BitVec 64) (msg : AnnounceMsg) (s : State), (s.lane x).up = true →
    (s.lane x).bit (Reg.TB_DOM_CFG_EN d) = false →
    ∃ t, exec (.announceReceived x d port gm msg) s = .next t ∧ OnlyLane x s t ∧ Touches [.fm] noRegs (s.lane x) (t.lane x)) ∧
  (∀ (x : LaneId) (d port : Fin 2) (msg : SyncMsg) (s : State), (s.lane x).up = true → (s.lane x).bit (Reg.TB_DOM_CFG_EN d) = true →
    (s.lane x).slavePort d = port → (s.lane x).get (Reg.TB_DOM_STAT_STATE d) ≠ 0 → msg.twoStep = true →
    ∃ t, exec (.syncReceived x d port msg) s = .next t ∧ OnlyLane x s t ∧
      (t.lane x).dom d = { (s.lane x).dom d with waiting := some msg } ∧ Touches [.tb, .fm] noRegs (s.lane x) (t.lane x)) ∧
  (∀ (x : LaneId) (d port : Fin 2) (msg : SyncMsg) (s : State), (s.lane x).up = true → (s.lane x).bit (Reg.TB_DOM_CFG_EN d) = true →
    (s.lane x).slavePort d = port → (s.lane x).get (Reg.TB_DOM_STAT_STATE d) ≠ 0 → msg.twoStep = false →
    (s.lane x).bit Reg.TB_STAT_VALID = false ∨
      ((s.lane x).bit Reg.TB_STAT_HOLD = false ∧ (s.lane x).synced ((s.lane x).get Reg.TB_STAT_SRC) = true ∧
        (s.lane x).tb.resumedAt ≠ some (s.lane x).now) →
    ∃ t, exec (.syncReceived x d port msg) s = .next t ∧ OnlyLane x s t ∧ (t.lane x).get (Reg.TB_DOM_STAT_STATE d) = 2 ∧
      ((t.lane x).dom d).relay = some msg ∧ (t.lane x).bit Reg.TB_STAT_VALID = true ∧
      (((s.lane x).dom d).set = false → ((t.lane x).dom d).set = true ∧ ((t.lane x).dom d).base =
        ⟨(s.lane x).now, (msg.originNs : Int) * 65536 + (s.lane x).corrOut port msg ((stamp msg.tRx : Int) + (s.lane x).rxDly port) (s.lane x).nowUnits, (s.lane x).rrOf port msg⟩) ∧
      Touches [.tb, .fm] (fields [0x400A] []) (s.lane x) (t.lane x)) ∧
  (∀ (x : LaneId) (d port : Fin 2) (msg : SyncMsg) (s : State), (s.lane x).up = true →
    (s.lane x).bit (Reg.TB_DOM_CFG_EN d) = false ∨ (s.lane x).slavePort d ≠ port ∨ (s.lane x).get (Reg.TB_DOM_STAT_STATE d) = 0 →
    ∃ t, exec (.syncReceived x d port msg) s = .next t ∧ OnlyLane x s t ∧ Touches [.fm] noRegs (s.lane x) (t.lane x)) ∧
  (∀ (x : LaneId) (d : Fin 2) (w msg : SyncMsg) (s : State), (s.lane x).up = true → ((s.lane x).dom d).waiting = some w →
    w.seq = msg.seq → ((s.lane x).followUpDue d).any (fun T => decide (T < (s.lane x).now)) = false →
    (s.lane x).bit Reg.TB_STAT_VALID = false ∨
      ((s.lane x).bit Reg.TB_STAT_HOLD = false ∧ (s.lane x).synced ((s.lane x).get Reg.TB_STAT_SRC) = true ∧
        (s.lane x).tb.resumedAt ≠ some (s.lane x).now) →
    ∃ t, exec (.followUpReceived x d msg) s = .next t ∧ OnlyLane x s t ∧ (t.lane x).get (Reg.TB_DOM_STAT_STATE d) = 2 ∧
      ((t.lane x).dom d).waiting = none ∧
      ((t.lane x).dom d).relay = some { w with originNs := msg.originNs, corr := msg.corr, rr := msg.rr } ∧
      (t.lane x).bit Reg.TB_STAT_VALID = true ∧ Touches [.tb, .fm] (fields [0x400A] []) (s.lane x) (t.lane x)) ∧
  (∀ (x : LaneId) (d : Fin 2) (msg : SyncMsg) (s : State), (s.lane x).up = true →
    (((s.lane x).dom d).waiting.all fun w => decide (w.seq ≠ msg.seq)) = true →
    ((s.lane x).followUpDue d).any (fun T => decide (T < (s.lane x).now)) = false →
    ∃ t, exec (.followUpReceived x d msg) s = .next t ∧ OnlyLane x s t ∧ Touches [.fm] noRegs (s.lane x) (t.lane x)) ∧
  (∀ (x : LaneId) (d : Fin 2) (T : Nat) (s : State), (s.lane x).up = true → (s.lane x).followUpDue d = some T →
    ∃ t, exec (.followUpTimeout x d) s = .next t ∧ OnlyLane x (s.reach x T) t ∧ ((t.lane x).dom d).waiting = none ∧
      Raised 121 ((s.reach x T).lane x) (t.lane x) ∧
      Touches (.tb :: raiseParts 121) (raiseAnd 121 [Reg.TB_CNT_DISC_COUNT]) ((s.reach x T).lane x) (t.lane x)) ∧
  (∀ (x : LaneId) (d : Fin 2) (T : Nat) (s : State), (s.lane x).up = true → (s.lane x).receiptDue d = some T →
    (s.lane x).bit Reg.TB_STAT_VALID = false → (s.lane x).bit (Reg.FM_REACT_B 122) = false →
    ∃ t, exec (.receiptTimeout x d) s = .next t ∧ OnlyLane x (s.reach x T) t ∧ (t.lane x).get (Reg.TB_DOM_STAT_STATE d) = 0 ∧
      ((t.lane x).dom d).waiting = none ∧ ((t.lane x).dom d).relay = none ∧ Raised 122 ((s.reach x T).lane x) (t.lane x) ∧
      Touches (.tb :: raiseParts 122) (raiseAnd 122 [Reg.TB_DOM_STAT_STATE d, domStateFld d, Reg.TB_STAT_VALID, Reg.TB_STAT_SRC,
        Reg.TB_STAT_HOLD, Reg.TB_STAT_SLEWING]) ((s.reach x T).lane x) (t.lane x)) ∧
  (∀ (x : LaneId) (d : Fin 2) (T : Nat) (s : State), (s.lane x).up = true → (s.lane x).receiptDue d = some T →
    (s.lane x).bit Reg.TB_STAT_VALID = true → (s.lane x).bit Reg.TB_STAT_HOLD = false → (s.lane x).get Reg.TB_STAT_SRC = d →
    (s.lane x).synced (1 - d) = false → (s.lane x).bit (Reg.FM_REACT_B 122) = false → (s.lane x).bit (Reg.FM_REACT_B 123) = false →
    ∃ t, exec (.receiptTimeout x d) s = .next t ∧ OnlyLane x (s.reach x T) t ∧ (t.lane x).get (Reg.TB_DOM_STAT_STATE d) = 0 ∧
      (t.lane x).bit Reg.TB_STAT_VALID = true ∧ (t.lane x).bit Reg.TB_STAT_HOLD = true) ∧
  (∀ (x : LaneId) (d : Fin 2) (s : State), (s.lane x).up = true → (s.lane x).get (Reg.TB_DOM_STAT_STATE d) = 0 →
    ∃ t, exec (.receiptTimeout x d) s = .next t ∧ OnlyLane x s t ∧ Touches [.fm] noRegs (s.lane x) (t.lane x)) ∧
  (∀ (x : LaneId) (d port : Fin 2) (tTx : Nat) (m : SyncMsg) (s : State), (s.lane x).up = true → ((s.lane x).dom d).relay = some m →
    (s.lane x).mayRelay d port tTx = true → (s.lane x).bit (linkFld port) = true →
    ((s.reach x (tTx / 655360)).lane x).startTick port syncLen (tTx / 655360) = tTx / 655360 →
    ∃ t, exec (.syncDeparture x d port tTx) s = .next t ∧ OnlyLane x (s.reach x (tTx / 655360)) t ∧ ((t.lane x).dom d).relay = none ∧
      (∀ c, c = (s.lane x).corrOut ((s.lane x).slavePort d) m ((stamp m.tRx : Int) + (s.lane x).rxDly ((s.lane x).slavePort d))
          ((stamp tTx : Int) + (s.lane x).txDly port) →
        ((t.lane x).dom d).sent = some (m.originNs, c, (s.lane x).rrOf ((s.lane x).slavePort d) m) ∧
        (t.lane x).tb.out = (s.lane x).tb.out ++ [.sync d port m.originNs c ((s.lane x).rrOf ((s.lane x).slavePort d) m)]) ∧
      (t.lane x).vf.busy.get port = tTx / 655360 + wireTicks syncLen ∧
      Touches [.tb, .vf, .fm] noRegs ((s.reach x (tTx / 655360)).lane x) (t.lane x)) ∧
  (∀ (x : LaneId) (d port : Fin 2) (tTx : Nat) (s : State), (s.lane x).up = true →
    ((s.lane x).dom d).relay = none ∨ (s.lane x).mayRelay d port tTx = false ∨ (s.lane x).bit (linkFld port) = false ∨
      ((s.reach x (tTx / 655360)).lane x).startTick port syncLen (tTx / 655360) ≠ tTx / 655360 →
    ∃ t, exec (.syncDeparture x d port tTx) s = .next t ∧ OnlyLane x (s.reach x (tTx / 655360)) t ∧
      Touches [.fm] noRegs ((s.reach x (tTx / 655360)).lane x) (t.lane x)) ∧
  (∀ (x : LaneId) (port : Fin 2) (t2 : Nat) (s : State), (s.lane x).up = true →
    ∃ t, exec (.pdelayMessage x port (.req t2)) s = .next t ∧ OnlyLane x s t ∧
      (t.lane x).tb.out = (s.lane x).tb.out ++ [.pdelayResp port ((stamp t2 : Int) + (s.lane x).rxDly port),
        .pdelayRespFollowUp port ((s.lane x).nowUnits + (s.lane x).txDly port)] ∧
      Touches [.tb, .fm] noRegs (s.lane x) (t.lane x)) ∧
  (∀ (x : LaneId) (port : Fin 2) (t2 t4 : Nat) (s : State), (s.lane x).up = true → ((s.lane x).port port).reqOut = true →
    ∃ t, exec (.pdelayMessage x port (.resp t2 t4)) s = .next t ∧ OnlyLane x s t ∧
      (t.lane x).port port = { (s.lane x).port port with t2 := t2, t4 := t4 } ∧ Touches [.tb, .fm] noRegs (s.lane x) (t.lane x)) ∧
  (∀ (x : LaneId) (port : Fin 2) (t1 t3 : Nat) (s : State), (s.lane x).up = true → ((s.lane x).port port).reqOut = true →
    ((s.lane x).port port).t1 = some t1 →
    ∃ t, exec (.pdelayMessage x port (.followUp t3)) s = .next t ∧ OnlyLane x s t ∧
      (t.lane x).port port = { (s.lane x).port port with reqOut := false, prev := some (t3, stamp ((s.lane x).port port).t4) } ∧
      (((s.lane x).port port).prev = none → (t.lane x).get (Reg.TB_PORT_NRR_NRR port) = (s.lane x).get (Reg.TB_PORT_NRR_NRR port)) ∧
      Touches [.tb, .fm] (fields [] [Reg.TB_PORT_NRR_NRR port, Reg.TB_PORT_STAT_MLD port, Reg.TB_PORT_STAT_ASCAP port])
        (s.lane x) (t.lane x)) ∧
  (∀ (x : LaneId) (port : Fin 2) (s : State), (s.lane x).up = true →
    ∃ t, exec (.pdelayReqTimer x port) s = .next t ∧ OnlyLane x (s.reach x ((s.lane x).pdelayDue port)) t ∧
      ((t.lane x).port port).reqOut = true ∧
      (∃ n, n < 16 ∧ ((t.lane x).port port).t1 = some ((t.lane x).now * 655360 + n * 40960)) ∧
      (t.lane x).tb.out = ((s.reach x ((s.lane x).pdelayDue port)).lane x).tb.out ++ [.pdelayReq port] ∧
      Touches [.free, .tb, .fm] noRegs ((s.reach x ((s.lane x).pdelayDue port)).lane x) (t.lane x)) ∧
  (∀ (x : LaneId) (d port : Fin 2) (gm : BitVec 64) (msg : AnnounceMsg) (s : State), (s.lane x).up = true →
    (msg.path.map BitVec.toNat).contains (s.lane x).clockId = true ∨
      ((s.lane x).bit (Reg.TB_DOM_CFG_EXT d) = true ∧ (s.lane x).get (Reg.TB_DOM_CFG_SLAVE d) ≠ port) →
    ∃ t, exec (.announceReceived x d port gm msg) s = .next t ∧ OnlyLane x s t ∧ Touches [.fm] noRegs (s.lane x) (t.lane x)) ∧
  (∀ (x : LaneId) (d port : Fin 2) (gm : BitVec 64) (msg : AnnounceMsg) (s : State), (s.lane x).up = true →
    (s.lane x).bit (Reg.TB_DOM_CFG_EN d) = true →
    (s.lane x).bit (Reg.TB_DOM_CFG_EXT d) = false ∨ (s.lane x).get (Reg.TB_DOM_CFG_SLAVE d) = port →
    (msg.path.map BitVec.toNat).contains (s.lane x).clockId = false → 16 < msg.path.length →
    ∃ t, exec (.announceReceived x d port gm msg) s = .next t ∧ OnlyLane x s t ∧ Raised 121 (s.lane x) (t.lane x) ∧
      Touches (raiseParts 121) (raiseAnd 121 [Reg.TB_CNT_DISC_COUNT]) (s.lane x) (t.lane x)) ∧
  (∀ (x : LaneId) (d : Fin 2) (T : Nat) (msg : SyncMsg) (s : State), (s.lane x).up = true → (s.lane x).followUpDue d = some T →
    T < (s.lane x).now →
    ∃ t, exec (.followUpReceived x d msg) s = .next t ∧ OnlyLane x s t ∧ ((t.lane x).dom d).waiting = none ∧
      Raised 121 (s.lane x) (t.lane x) ∧ Touches (.tb :: raiseParts 121) (raiseAnd 121 [Reg.TB_CNT_DISC_COUNT]) (s.lane x) (t.lane x)) ∧
  (∀ (x : LaneId) (d : Fin 2) (T : Nat) (s : State), (s.lane x).up = true → (s.lane x).receiptDue d = some T →
    (s.lane x).bit Reg.TB_STAT_VALID = true → (s.lane x).bit Reg.TB_STAT_HOLD = false → (s.lane x).get Reg.TB_STAT_SRC = d →
    (s.lane x).synced (1 - d) = true → (s.lane x).bit (Reg.FM_REACT_B 122) = false → (s.lane x).bit (Reg.FM_REACT_B 124) = false →
    ∃ t, exec (.receiptTimeout x d) s = .next t ∧ OnlyLane x (s.reach x T) t ∧ (t.lane x).get (Reg.TB_DOM_STAT_STATE d) = 0 ∧
      (t.lane x).get Reg.TB_STAT_SRC = 1 - d.val ∧ (t.lane x).bit Reg.TB_STAT_HOLD = false)

/-- Vehicle time and reads (R494, R500 to R502, R505, R506): a slew ends with SLEWING 0; a return to the preferred domain is a switch of source 124, but for one whose domain is lost at that instant; a comparator fires its TS event, once where it has no period, else moving its time on by whole periods past
the base's value; a snapshot captures the five bases in one tick; a LO read latches its HI for the requester, and one of no base changes nothing. RESYNC is refused with source 120 while the vehicle bus is enabled; else vehicle time is valid again on the
domain to follow afresh, or invalid where no domain is SYNCED. -/
def Obligations.VehicleTimeComparatorsAndReads : Prop :=
  (∀ (x : LaneId) (T : Nat) (s : State), (s.lane x).up = true → (s.lane x).slewDue = some T →
    ∃ t, exec (.slewComplete x) s = .next t ∧ OnlyLane x (s.reach x T) t ∧ (t.lane x).bit Reg.TB_STAT_SLEWING = false ∧
      Touches [.fm] (fields [] [Reg.TB_STAT_SLEWING]) ((s.reach x T).lane x) (t.lane x)) ∧
  (∀ (x : LaneId) (T : Nat) (s : State), (s.lane x).up = true → (s.lane x).revertDue = some T →
    (((s.reach x T).lane x).receiptDue ((s.lane x).get Reg.TB_CTRL_PRI)).any (fun u => decide (u ≤ ((s.reach x T).lane x).now)) = false →
    ∃ t, exec (.revertQualified x) s = .next t ∧ OnlyLane x (s.reach x T) t ∧
      (t.lane x).get Reg.TB_STAT_SRC = (s.lane x).get Reg.TB_CTRL_PRI ∧ (t.lane x).bit Reg.TB_STAT_HOLD = false ∧
      Raised 124 ((s.reach x T).lane x) (t.lane x) ∧
      Touches (.tb :: raiseParts 124) (raiseAnd 124 [Reg.TB_STAT_SRC, Reg.TB_STAT_SLEWING, Reg.TB_STAT_HOLD, Reg.TB_CNT_SWITCH_COUNT])
        ((s.reach x T).lane x) (t.lane x)) ∧
  (∀ (x : LaneId) (c : Fin 16) (T : Nat) (s : State), (s.lane x).up = true → (s.lane x).cmpDue c = some T →
    ∃ t, exec (.comparatorFire x c) s = .next t ∧ OnlyLane x (s.reach x T) t ∧ Signalled c (s.lane x) (t.lane x) ∧
      ((s.lane x).get (Reg.TB_CMP_PER_PERIOD c) = 0 → spGet false c (t.lane x).tb.fired = true ∧
        (t.lane x).cmpTime c = (s.lane x).cmpTime c) ∧
      (∀ p, p = (s.lane x).get (Reg.TB_CMP_PER_PERIOD c) → p ≠ 0 → (t.lane x).cmpTime c = ((s.lane x).cmpTime c +
        ((((s.reach x T).lane x).baseValue ((s.lane x).get (Reg.TB_CMP_CFG_BASE c)) - (s.lane x).cmpTime c) / p + 1) * p) % 2 ^ 64) ∧
      Touches [.tb, .ts, .cp, .fm] (fields [0x4001] [Reg.PM_STAT_STATE, Reg.TB_CMP_LO_TIME c, Reg.TB_CMP_HI_TIME c,
        Reg.TB_CMP_CFG_MISSED c]) ((s.reach x T).lane x) (t.lane x)) ∧
  (∀ (x : LaneId) (b : Nat) (s : State), (s.lane x).up = true → b < 5 →
    ∃ t, exec (.snapshot x) s = .next t ∧ OnlyLane x s t ∧
      (t.lane x).get (Reg.TB_SNAP_VAL_WORD (2 * b)) = (s.lane x).baseValue b % 2 ^ 32 ∧
      (t.lane x).get (Reg.TB_SNAP_VAL_WORD (2 * b + 1)) = (s.lane x).baseValue b / 2 ^ 32 ∧
      Touches [.fm] (fields [] ((List.range 10).map Reg.TB_SNAP_VAL_WORD)) (s.lane x) (t.lane x)) ∧
  (∀ (x : LaneId) (requester : Fin 11) (base : Fin 8) (s : State), (s.lane x).up = true → base.val < 5 →
    ∃ t, exec (.timeLoRead x requester base) s = .next t ∧ OnlyLane x s t ∧
      spGet none (latchKey requester.val base) (t.lane x).tb.hi = some ((s.lane x).pairValue base / 2 ^ 32) ∧
      (base.val = 0 → (t.lane x).get Reg.TB_LOCAL_LO_WORD = (s.lane x).now % 2 ^ 32) ∧
      Touches [.tb, .fm] (fields [] [Reg.TB_LOCAL_LO_WORD, Reg.TB_LOCAL_HI_WORD, Reg.TB_FERRY_LO_WORD, Reg.TB_FERRY_HI_WORD,
        Reg.TB_VEH_LO_WORD, Reg.TB_VEH_HI_WORD]) (s.lane x) (t.lane x)) ∧
  (∀ (x : LaneId) (requester : Fin 11) (base : Fin 8) (s : State), (s.lane x).up = true → 5 ≤ base.val →
    ∃ t, exec (.timeLoRead x requester base) s = .next t ∧ OnlyLane x s t ∧ Touches [.fm] noRegs (s.lane x) (t.lane x)) ∧
  (∀ (x : LaneId) (d : Nat) (s : State), (s.lane x).up = true → (s.lane x).bit Reg.VF_CTRL_EN = false → (s.lane x).freshFollow = some d →
    ∃ t, exec (.resync x) s = .next t ∧ OnlyLane x s t ∧ (t.lane x).bit Reg.TB_STAT_VALID = true ∧ (t.lane x).get Reg.TB_STAT_SRC = d % 2 ∧
      (t.lane x).bit Reg.TB_STAT_SLEWING = false ∧ (t.lane x).bit Reg.TB_STAT_HOLD = false ∧
      (t.lane x).tb.resync.map (·.at_) = some (s.lane x).now ∧
      Touches [.tb, .fm] (fields [] [Reg.TB_STAT_VALID, Reg.TB_STAT_SRC, Reg.TB_STAT_SLEWING, Reg.TB_STAT_HOLD]) (s.lane x) (t.lane x)) ∧
  (∀ (x : LaneId) (s : State), (s.lane x).up = true → (s.lane x).bit Reg.VF_CTRL_EN = true →
    ∃ t, exec (.resync x) s = .next t ∧ OnlyLane x s t ∧ Raised 120 (s.lane x) (t.lane x) ∧
      Touches (raiseParts 120) (raiseRegs 120) (s.lane x) (t.lane x)) ∧
  (∀ (x : LaneId) (s : State), (s.lane x).up = true → (s.lane x).bit Reg.VF_CTRL_EN = false →
    (∀ d, d < 2 → (s.lane x).synced d = false) →
    ∃ t, exec (.resync x) s = .next t ∧ OnlyLane x s t ∧ (t.lane x).bit Reg.TB_STAT_VALID = false ∧
      Touches [.tb, .fm] (fields [] [Reg.TB_STAT_VALID, Reg.TB_STAT_SLEWING, Reg.TB_STAT_HOLD]) (s.lane x) (t.lane x)) ∧
  (∀ (x : LaneId) (T : Nat) (s : State), (s.lane x).up = true → (s.lane x).revertDue = some T →
    (((s.reach x T).lane x).receiptDue ((s.lane x).get Reg.TB_CTRL_PRI)).any (fun u => decide (u ≤ ((s.reach x T).lane x).now)) = true →
    ∃ t, exec (.revertQualified x) s = .next t ∧ OnlyLane x (s.reach x T) t ∧ Touches [.fm] noRegs ((s.reach x T).lane x) (t.lane x))


/-! ### The deputy and the safety layer (12_safety.md) -/

/-- MONITORED STOP and TORQUE OFF (R521 to R530). A STOP permitted while none runs starts one from the speeds measured, and while one runs changes nothing; a TOFF permitted asserts the line, turns both bridges OFF, and ends a stop that runs as done; RELEASE releases
the line in its modes, and is answered 0x0B at an instant at which the deputy asserts it; ABORT ends a running stop with STATE 4 before its commit point. Refused, STOP, TOFF and RELEASE answer RESULT 0x0B in other modes and raise source 2, and ABORT answers 0x0C from the commit point on and 0x0D without a stop. A stop still outside
its envelope when the grace ends fails, one still slow when the hold ends completes, each with the line asserted; one no longer so goes on. -/
def Obligations.MonitoredStopAndTorqueOff : Prop :=
  (∀ (x : LaneId) (s : State), (s.lane x).up = true → (s.lane x).permits .stop = false →
    ∃ t, exec (.smCmdStop x) s = .next t ∧ OnlyLane x s t ∧ (t.lane x).get Reg.SM_CMD_RESULT = 0x0B ∧ Raised 2 (s.lane x) (t.lane x) ∧
      Touches (raiseParts 2) (raiseAnd 2 [Reg.SM_CMD_RESULT]) (s.lane x) (t.lane x)) ∧
  (∀ (x : LaneId) (s : State), (s.lane x).up = true → (s.lane x).permits .stop = true → (s.lane x).stopping = false →
    ∃ t, exec (.smCmdStop x) s = .next t ∧ OnlyLane x s t ∧ (t.lane x).get Reg.SM_CMD_RESULT = 0 ∧ (t.lane x).stopping = true ∧
      (t.lane x).sm.stopAt = (s.lane x).now ∧ (t.lane x).sm.stopOp = none ∧
      (t.lane x).sm.v0 = ⟨((s.lane x).noteHeld.measure.smSpeed 0).natAbs, ((s.lane x).noteHeld.measure.smSpeed 1).natAbs⟩ ∧
      Touches [.md, .fc, .gd, .cp, .ts, .sm, .fm, .hl] (fields [0x4001, 0x400B, 0x400C] (Reg.HL_CNT_RLOST_COUNT :: refugeFlds))
        (s.lane x) (t.lane x)) ∧
  (∀ (x : LaneId) (s : State), (s.lane x).up = true → (s.lane x).permits .stop = true → (s.lane x).stopping = true →
    ∃ t, exec (.smCmdStop x) s = .next t ∧ OnlyLane x s t ∧ (t.lane x).get Reg.SM_CMD_RESULT = 0 ∧
      Touches [.fm] (fields [] [Reg.SM_CMD_RESULT]) (s.lane x) (t.lane x)) ∧
  (∀ (x : LaneId) (b : Nat) (s : State), (s.lane x).up = true → (s.lane x).permits .toff = true → (s.lane x).stopping = false → b < 2 →
    ∃ t, exec (.smCmdToff x) s = .next t ∧ OnlyLane x s t ∧ (t.lane x).get Reg.SM_CMD_RESULT = 0 ∧
      (t.lane x).bit Reg.SM_STAT_TOFF = true ∧ (t.lane x).get (Reg.FC_BR_STAT_STATE b) = 0 ∧
      Touches (.md :: .sm :: .fm :: stopParts) (fields [0x4001] (Reg.SM_CMD_RESULT :: refugeFlds)) (s.lane x) (t.lane x)) ∧
  (∀ (x : LaneId) (b : Nat) (s : State), (s.lane x).up = true → (s.lane x).permits .toff = true → (s.lane x).stopping = true → b < 2 →
    ∃ t, exec (.smCmdToff x) s = .next t ∧ OnlyLane x s t ∧ (t.lane x).get Reg.SM_CMD_RESULT = 0 ∧
      (t.lane x).bit Reg.SM_STAT_TOFF = true ∧ (t.lane x).get (Reg.FC_BR_STAT_STATE b) = 0 ∧ (t.lane x).get Reg.SM_STOP_STAT_STATE = 2 ∧
      (t.lane x).sm.stopOp = none ∧ Touches deputyParts deputyRegs (s.lane x) (t.lane x)) ∧
  (∀ (x : LaneId) (s : State), (s.lane x).up = true → (s.lane x).permits .toff = false →
    ∃ t, exec (.smCmdToff x) s = .next t ∧ OnlyLane x s t ∧ (t.lane x).get Reg.SM_CMD_RESULT = 0x0B ∧ Raised 2 (s.lane x) (t.lane x) ∧
      Touches (raiseParts 2) (raiseAnd 2 [Reg.SM_CMD_RESULT]) (s.lane x) (t.lane x)) ∧
  (∀ (x : LaneId) (s : State), (s.lane x).up = true → (s.lane x).noteHeld.releaseCode = 0 →
    ∃ t, exec (.smCmdRelease x) s = .next t ∧ OnlyLane x s t ∧ (t.lane x).get Reg.SM_CMD_RESULT = 0 ∧
      (t.lane x).bit Reg.SM_STAT_TOFF = false ∧
      Touches [.ts, .cp, .fm] (fields [0x4001] [Reg.PM_STAT_STATE, Reg.SM_CMD_RESULT, Reg.SM_STAT_TOFF]) (s.lane x) (t.lane x)) ∧
  (∀ (x : LaneId) (s : State), (s.lane x).up = true → (s.lane x).releaseMode = false →
    ∃ t, exec (.smCmdRelease x) s = .next t ∧ OnlyLane x s t ∧ (t.lane x).get Reg.SM_CMD_RESULT = 0x0B ∧ Raised 2 (s.lane x) (t.lane x) ∧
      Touches (raiseParts 2) (raiseAnd 2 [Reg.SM_CMD_RESULT]) (s.lane x) (t.lane x)) ∧
  (∀ (x : LaneId) (s : State), (s.lane x).up = true → (s.lane x).noteHeld.stopAbortCode = 0 →
    ∃ t, exec (.smCmdAbort x) s = .next t ∧ OnlyLane x s t ∧ (t.lane x).get Reg.SM_CMD_RESULT = 0 ∧
      (t.lane x).get Reg.SM_STOP_STAT_STATE = 4 ∧ (t.lane x).sm = { (s.lane x).sm with stopOp := none } ∧
      Touches deputyParts (fields [0x4001, 0x4011] [Reg.PM_STAT_STATE, Reg.SM_CMD_RESULT, Reg.SM_STOP_STAT_STATE]) (s.lane x) (t.lane x)) ∧
  (∀ (x : LaneId) (s : State), (s.lane x).up = true → (s.lane x).noteHeld.stopAbortCode ≠ 0 →
    ∃ t, exec (.smCmdAbort x) s = .next t ∧ OnlyLane x s t ∧
      (t.lane x).get Reg.SM_CMD_RESULT = (if 1 ≤ (s.lane x).get Reg.SM_STOP_STAT_STATE ∧ (s.lane x).get Reg.SM_STOP_STAT_STATE ≤ 3
        then 0x0C else 0x0D) ∧
      Touches [.fm] (fields [] [Reg.SM_CMD_RESULT]) (s.lane x) (t.lane x)) ∧
  (∀ (x : LaneId) (T : Nat) (M : Lane) (s : State), (s.lane x).awake = true → (s.lane x).graceDue = some T →
    M = ((s.reach x T).lane x).noteHeld.measure.watchStop → M.graceDue.any (· ≤ M.now) = false →
    ∃ t, exec (.stopGraceExpiry x) s = .next t ∧ OnlyLane x (s.reach x T) t ∧ t.lane x = M) ∧
  (∀ (x : LaneId) (T : Nat) (M : Lane) (s : State), (s.lane x).awake = true → (s.lane x).graceDue = some T →
    M = ((s.reach x T).lane x).noteHeld.measure.watchStop → M.graceDue.any (· ≤ M.now) = true →
    ∃ t, exec (.stopGraceExpiry x) s = .next t ∧ OnlyLane x (s.reach x T) t ∧ (t.lane x).get Reg.SM_STOP_STAT_STATE = 3 ∧
      (t.lane x).bit Reg.SM_STAT_TOFF = true ∧
      Touches deputyParts deputyRegs ((s.reach x T).lane x) (t.lane x)) ∧
  (∀ (x : LaneId) (T : Nat) (M : Lane) (s : State), (s.lane x).awake = true → (s.lane x).holdDue = some T →
    M = ((s.reach x T).lane x).noteHeld.measure.watchStop → M.holdDue.any (· ≤ M.now) = false →
    ∃ t, exec (.stopHoldExpiry x) s = .next t ∧ OnlyLane x (s.reach x T) t ∧ t.lane x = M) ∧
  (∀ (x : LaneId) (T : Nat) (M : Lane) (s : State), (s.lane x).awake = true → (s.lane x).holdDue = some T →
    M = ((s.reach x T).lane x).noteHeld.measure.watchStop → M.holdDue.any (· ≤ M.now) = true →
    ∃ t, exec (.stopHoldExpiry x) s = .next t ∧ OnlyLane x (s.reach x T) t ∧ (t.lane x).get Reg.SM_STOP_STAT_STATE = 2 ∧
      (t.lane x).bit Reg.SM_STAT_TOFF = true ∧
      Touches deputyParts deputyRegs ((s.reach x T).lane x) (t.lane x)) ∧
  (∀ (x : LaneId) (s : State), (s.lane x).up = true → (s.lane x).releaseMode = true → (s.lane x).noteHeld.assertsNow = true →
    ∃ t, exec (.smCmdRelease x) s = .next t ∧ OnlyLane x s t ∧ (t.lane x).get Reg.SM_CMD_RESULT = 0x0B ∧
      Touches [.fm] (fields [] [Reg.SM_CMD_RESULT]) (s.lane x) (t.lane x))

/-- The deputy's measurements (R513 to R516), while its own hall sets are in use: a legal hall edge whose lines have held for 500 ns moves its position by one count; the first code, or an illegal transition, moves it by none, and lines that have not held change nothing;
100 ms without an edge make its speed 0; at each of these, and at the tick LIMITED RATE releases, its limits are evaluated over what it has measured. -/
def Obligations.TheDeputyMeasuresAndLimits : Prop :=
  (∀ (x : LaneId) (b : Fin 2) (code : Fin 8) (held : Nat) (k : Nat × Bool) (s : State), (s.lane x).awake = true → 50 ≤ held →
    ((s.lane x).smAct b).known = true → legalEdge (s.lane x).me ((s.lane x).smAct b).code code = some k →
    (∀ c, c < 2 → ((s.lane x).smAct c).fused = false ∧ ((s.lane x).af.act.get c).ownLost = false) →
    ∃ t, exec (.deputyHallEdge x b ⟨code, held⟩) s = .next t ∧ OnlyLane x s t ∧ ((t.lane x).smAct b).code = code ∧
      ((t.lane x).smAct b).last = some (s.lane x).now ∧
      (t.lane x).get (Reg.SM_POS_POS b) = uns 32 ((s.lane x).getI (Reg.SM_POS_POS b) + if k.2 then -1 else 1) ∧
      Touches deputyParts deputyRegs (s.lane x) (t.lane x)) ∧
  (∀ (x : LaneId) (b : Fin 2) (code : Fin 8) (held : Nat) (s : State), (s.lane x).awake = true → 50 ≤ held →
    ((s.lane x).smAct b).known = false ∨ legalEdge (s.lane x).me ((s.lane x).smAct b).code code = none →
    (∀ c, c < 2 → ((s.lane x).smAct c).fused = false ∧ ((s.lane x).af.act.get c).ownLost = false) →
    ∃ t, exec (.deputyHallEdge x b ⟨code, held⟩) s = .next t ∧ OnlyLane x s t ∧ ((t.lane x).smAct b).code = code ∧
      ((t.lane x).smAct b).known = true ∧ (t.lane x).get (Reg.SM_POS_POS b) = (s.lane x).get (Reg.SM_POS_POS b) ∧
      Touches deputyParts deputyRegs (s.lane x) (t.lane x)) ∧
  (∀ (x : LaneId) (b : Fin 2) (code : Fin 8) (held : Nat) (s : State), (s.lane x).awake = true → held < 50 →
    ∃ t, exec (.deputyHallEdge x b ⟨code, held⟩) s = .next t ∧ OnlyLane x s t ∧ Touches [.fm] noRegs (s.lane x) (t.lane x)) ∧
  (∀ (x : LaneId) (b : Fin 2) (T : Nat) (M : Lane) (s : State), (s.lane x).awake = true → ((s.lane x).smAct b).mag ≠ 0 →
    ((s.lane x).smAct b).last = some T → M = ((s.reach x (T + 10000000)).lane x).noteHeld →
    ∃ t, exec (.deputySpeedTimeout x b) s = .next t ∧ OnlyLane x (s.reach x (T + 10000000)) t ∧ ((t.lane x).smAct b).mag = 0 ∧
      (t.lane x).get Reg.SM_STAT_VIOL = (M.watchStop.setSmAct b { M.watchStop.smAct b with mag := 0 }).measure.violWord ∧
      Touches deputyParts deputyRegs M (t.lane x)) ∧
  (∀ (x : LaneId) (b : Fin 2) (T : Nat) (M : Lane) (s : State), (s.lane x).awake = true → (s.lane x).rateReleaseDue b = some T →
    M = ((s.reach x T).lane x).noteHeld →
    ∃ t, exec (.limitedRateRelease x b) s = .next t ∧ OnlyLane x (s.reach x T) t ∧
      (t.lane x).get Reg.SM_STAT_VIOL = M.measure.violWord ∧
      (t.lane x).get Reg.SM_STAT_RESTR = M.measure.restrWord M.measure.violWord ∧
      Touches deputyParts deputyRegs M (t.lane x))

/-- The safety inputs (R531 to R534): a sample outside the test pulses gives every input its level, one within them none; the filtered state takes the level that has held; a test pulse starts with the levels before it kept, and at its end an input under test that failed
is in fault, its state at SAFE, and one that passed has one more pulse passed, of two at most; a fault is cleared only after two pulses passed. -/
def Obligations.SafetyInputsAndTestPulses : Prop :=
  (∀ (x : LaneId) (levels : BitVec 8) (i T : Nat) (s : State), (s.lane x).awake = true → (s.lane x).sampleDue = some T →
    ((s.reach x T).lane x).blanked = false → i < 8 →
    ∃ t, exec (.siSample x levels) s = .next t ∧ OnlyLane x (s.reach x T) t ∧ (t.lane x).sm.raw = levels.toNat ∧
      (t.lane x).sm.sampledAt = some ((s.reach x T).lane x).now ∧ ((t.lane x).smIn i).level = bitAt levels.toNat i ∧
      Touches deputyParts deputyRegs ((s.reach x T).lane x) (t.lane x)) ∧
  (∀ (x : LaneId) (levels : BitVec 8) (i T : Nat) (s : State), (s.lane x).awake = true → (s.lane x).sampleDue = some T →
    ((s.reach x T).lane x).blanked = true → i < 8 →
    ∃ t, exec (.siSample x levels) s = .next t ∧ OnlyLane x (s.reach x T) t ∧ (t.lane x).sm.raw = levels.toNat ∧
      (t.lane x).sm.sampledAt = some ((s.reach x T).lane x).now ∧ (t.lane x).smIn i = (s.lane x).smIn i ∧
      Touches deputyParts deputyRegs ((s.reach x T).lane x) (t.lane x)) ∧
  (∀ (x : LaneId) (i : Fin 8) (T : Nat) (s : State), (s.lane x).awake = true → (s.lane x).filterDue i = some T →
    ∃ t, exec (.siFilterChange x i) s = .next t ∧ OnlyLane x (s.reach x T) t ∧
      (t.lane x).bitOf Reg.SM_SI_STAT_STATE i = ((s.lane x).smIn i).level ∧
      Touches deputyParts deputyRegs ((s.reach x T).lane x) (t.lane x)) ∧
  (∀ (x : LaneId) (n : Fin 4) (T : Nat) (s : State), (s.lane x).awake = true → (s.lane x).pulseDue n = some T →
    ∃ t, exec (.testPulseStart x n) s = .next t ∧ OnlyLane x (s.reach x T) t ∧
      (t.lane x).pulse n = some ⟨(t.lane x).now, (t.lane x).now + (s.lane x).get Reg.SM_TP_CFG_WIDTH * 100, false⟩ ∧
      (∀ i, i < 8 → ((t.lane x).smIn i).before = bitAt ((s.lane x).levelsBefore ((s.reach x T).lane x).now) i) ∧
      Touches [.sm, .fm] noRegs ((s.reach x T).lane x) (t.lane x)) ∧
  (∀ (x : LaneId) (n : Fin 4) (i T : Nat) (s : State), (s.lane x).awake = true → (s.lane x).pulseEndDue n = some T → i < 8 →
    (s.lane x).bit (Reg.SM_SI_CFG_EN i) = true → (s.lane x).get (Reg.SM_SI_CFG_TP i) ≠ 0 →
    (s.lane x).inputFails ((s.lane x).levelsBefore T) i n = true →
    ∃ t, exec (.testPulseEnd x n) s = .next t ∧ OnlyLane x (s.reach x T) t ∧ (t.lane x).pulseEndDue n = none ∧
      (t.lane x).bitOf Reg.SM_SI_STAT_FAULT i = true ∧ ((t.lane x).smIn i).passed = 0 ∧
      (t.lane x).bitOf Reg.SM_SI_STAT_STATE i = (s.lane x).bit (Reg.SM_SI_CFG_SAFE i) ∧
      Touches deputyParts deputyRegs ((s.reach x T).lane x) (t.lane x)) ∧
  (∀ (x : LaneId) (n : Fin 4) (i T : Nat) (s : State), (s.lane x).awake = true → (s.lane x).pulseEndDue n = some T → i < 8 →
    (s.lane x).bit (Reg.SM_SI_CFG_EN i) = true → (s.lane x).get (Reg.SM_SI_CFG_TP i) ≠ 0 →
    (s.lane x).inputFails ((s.lane x).levelsBefore T) i n = false →
    ∃ t, exec (.testPulseEnd x n) s = .next t ∧ OnlyLane x (s.reach x T) t ∧ (t.lane x).pulseEndDue n = none ∧
      ((t.lane x).smIn i).passed = min 2 (((s.lane x).smIn i).passed + 1) ∧
      (t.lane x).bitOf Reg.SM_SI_STAT_FAULT i = (s.lane x).bitOf Reg.SM_SI_STAT_FAULT i ∧
      Touches deputyParts deputyRegs ((s.reach x T).lane x) (t.lane x)) ∧
  (∀ (x : LaneId) (mask : BitVec 8) (i : Nat) (s : State), (s.lane x).up = true → i < 8 →
    ∃ t, exec (.siFaultClear x mask) s = .next t ∧ OnlyLane x s t ∧
      (t.lane x).bitOf Reg.SM_SI_STAT_FAULT i = ((s.lane x).bitOf Reg.SM_SI_STAT_FAULT i &&
        !(bitAt mask.toNat i && decide (2 ≤ ((s.lane x).smIn i).passed))) ∧
      Touches [.fm] (fields [] [Reg.SM_SI_STAT_FAULT]) (s.lane x) (t.lane x))

/-- The safety layer (R540 to R545). A send makes one unit with the next number; one that names no producer, or a length above 48, raises source 137. A unit that passes the tests of Table 12.5 is accepted: the connection is LIVE, shows the unit's number, length and time
stamp, and its receive buffer the payload's whole words; one too short for its check, or with a check that does not match, is counted and discarded, as is one that repeats the latest number; one for no enabled consumer is taken by nobody. A connection that expires is EXPIRED, counted and raised as source 136;
where it is the selected motion host's and the other host's is LIVE, that host is selected. The accepted unit is one of a connection that supplies no motion targets, and source 136 is one with no block reset as its reaction. -/
def Obligations.SafetyUnits : Prop :=
  (∀ (x : LaneId) (v : Word) (c len : Nat) (s : State), (s.lane x).up = true → c = Reg.SX_SEND_CONN.of v.toNat →
    len = Reg.SX_SEND_LEN.of v.toNat → (s.lane x).isProducer c = true → len ≤ 48 →
    ∃ t, exec (.sxSend x v) s = .next t ∧ OnlyLane x s t ∧
      (t.lane x).sx.out = (s.lane x).sx.out ++ [((s.lane x).get (Reg.SX_CONN_CFG_ROUTE c), (s.lane x).makeUnit c len)] ∧
      (t.lane x).get (Reg.SX_CONN_STAT_LAST_SEQ c) = (s.lane x).nextSeq c ∧ (t.lane x).get (Reg.SX_CONN_STAT_LEN c) = len ∧
      Touches [.sx, .ts, .cp, .fm] (fields [0x4001] [Reg.PM_STAT_STATE, Reg.SX_CONN_STAT_LAST_SEQ c, Reg.SX_CONN_STAT_LEN c,
        Reg.SX_CONN_TS_TSTAMP c]) (s.lane x) (t.lane x)) ∧
  (∀ (x : LaneId) (v : Word) (s : State), (s.lane x).up = true →
    (s.lane x).isProducer (Reg.SX_SEND_CONN.of v.toNat) = false ∨ 48 < Reg.SX_SEND_LEN.of v.toNat →
    ∃ t, exec (.sxSend x v) s = .next t ∧ OnlyLane x s t ∧ Raised 137 (s.lane x) (t.lane x) ∧
      Touches (raiseParts 137) (raiseRegs 137) (s.lane x) (t.lane x)) ∧
  (∀ (x : LaneId) (route : Fin 3) (b : Byte) (u : List Byte) (c : Nat) (s : State), (s.lane x).up = true → c = b.toNat % 64 →
    (s.lane x).isConsumer c = true → u.length < 11 →
    ∃ t, exec (.sxUnitReceived x route (b :: u)) s = .next t ∧ OnlyLane x s t ∧
      (t.lane x).get (Reg.SX_CNT_CHECK_COUNT c) = min ((s.lane x).get (Reg.SX_CNT_CHECK_COUNT c) + 1) (2 ^ 32 - 1) ∧
      Touches [.ts, .cp, .fm] (fields [0x4001] [Reg.PM_STAT_STATE, Reg.SX_CNT_CHECK_COUNT c]) (s.lane x) (t.lane x)) ∧
  (∀ (x : LaneId) (route : Fin 3) (b l : Byte) (u : List Byte) (c : Nat) (s : State), (s.lane x).up = true → c = b.toNat % 64 →
    (s.lane x).isConsumer c = true →
    ofBe (slice (b :: l :: u) (8 + l.toNat) 4) ≠ (s.lane x).unitCheck c ((b :: l :: u).take (8 + l.toNat)) →
    ∃ t, exec (.sxUnitReceived x route (b :: l :: u)) s = .next t ∧ OnlyLane x s t ∧
      (t.lane x).get (Reg.SX_CNT_CHECK_COUNT c) = min ((s.lane x).get (Reg.SX_CNT_CHECK_COUNT c) + 1) (2 ^ 32 - 1) ∧
      Touches [.ts, .cp, .fm] (fields [0x4001] [Reg.PM_STAT_STATE, Reg.SX_CNT_CHECK_COUNT c]) (s.lane x) (t.lane x)) ∧
  (∀ (x : LaneId) (route : Fin 3) (u : List Byte) (c len seq ts d : Nat) (age : Int) (s : State), (s.lane x).up = true →
    c = ofBe (slice u 0 1) % 64 → (s.lane x).isConsumer c = true → u.length = 12 + len → ofBe (slice u 0 1) / 64 = 1 →
    len = ofBe (slice u 1 1) → len ≤ 48 → seq = ofBe (slice u 2 2) → ts = ofBe (slice u 4 4) →
    (s.lane x).get (Reg.SX_CONN_CFG_ROUTE c) = 3 ∨ (s.lane x).get (Reg.SX_CONN_CFG_ROUTE c) = route →
    ofBe (slice u (8 + len) 4) = (s.lane x).unitCheck c (u.take (8 + len)) → (s.lane x).bit Reg.TB_STAT_VALID = true →
    age = sgn 32 (uns 32 (((s.lane x).vehUs : Int) - ts)) → -((10 * (s.lane x).get (Reg.SX_CONN_CFG_SKEW c) : Nat) : Int) ≤ age →
    age ≤ (250 * (s.lane x).get (Reg.SX_CONN_CFG_EXPECT c) : Nat) →
    d = (seq + 2 ^ 16 - (s.lane x).get (Reg.SX_CONN_STAT_LAST_SEQ c)) % 2 ^ 16 → d ≠ 0 →
    (1 ≤ d ∧ d ≤ (s.lane x).get (Reg.SX_CONN_CFG_SEQWIN c)) ∨ (s.lane x).sxState c = 1 ∨ (s.lane x).sxState c = 3 →
    (s.lane x).bit Reg.HL_MOTION_CFG_EN = false ∨ (s.lane x).motionConn ≠ c →
    ∃ t, exec (.sxUnitReceived x route u) s = .next t ∧ OnlyLane x s t ∧ (t.lane x).sxState c = 2 ∧
      (t.lane x).conn c = ⟨true, (s.lane x).now⟩ ∧ (t.lane x).get (Reg.SX_CONN_STAT_LAST_SEQ c) = seq ∧
      (t.lane x).get (Reg.SX_CONN_STAT_LEN c) = len ∧ (t.lane x).get (Reg.SX_CONN_TS_TSTAMP c) = ts ∧
      (t.lane x).bit (Reg.SX_CONN_STAT_NEW c) = true ∧ Signalled 144 (s.lane x) (t.lane x) ∧
      (∀ w, w < 12 → 4 * w + 4 ≤ len → (t.lane x).get (Reg.SX_RX_WORD c w) = ofBe (slice u (8 + 4 * w) 4)) ∧
      Touches [.sx, .ts, .cp, .fm] (fields [0x4001] ([Reg.PM_STAT_STATE, Reg.SX_CONN_STAT_STATE c, Reg.SX_CONN_STAT_LAST_SEQ c,
        Reg.SX_CONN_STAT_LEN c, Reg.SX_CONN_STAT_NEW c, Reg.SX_CONN_TS_TSTAMP c, Reg.SX_CNT_LOST_COUNT c, Reg.SX_CNT_OVERRUN_COUNT c] ++
        (List.range 12).map (Reg.SX_RX_WORD c))) (s.lane x) (t.lane x)) ∧
  (∀ (x : LaneId) (route : Fin 3) (b : Byte) (u : List Byte) (s : State), (s.lane x).up = true →
    (s.lane x).isConsumer (b.toNat % 64) = false →
    ∃ t, exec (.sxUnitReceived x route (b :: u)) s = .next t ∧ OnlyLane x s t ∧ Touches [.fm] noRegs (s.lane x) (t.lane x)) ∧
  (∀ (x : LaneId) (c : Fin 64) (T : Nat) (s : State), (s.lane x).up = true → (s.lane x).expiryDue c = some T →
    (s.lane x).bit (Reg.FM_REACT_B 136) = false → (s.lane x).bit Reg.HL_MOTION_CFG_EN = false →
    ∃ t, exec (.sxExpiry x c) s = .next t ∧ OnlyLane x (s.reach x T) t ∧ (t.lane x).sxState c = 3 ∧
      (t.lane x).get (Reg.SX_CNT_EXPIRED_COUNT c) = min ((s.lane x).get (Reg.SX_CNT_EXPIRED_COUNT c) + 1) (2 ^ 32 - 1) ∧
      Raised 136 ((s.reach x T).lane x) (t.lane x) ∧
      Touches (raiseParts 136) (raiseAnd 136 [Reg.SX_CONN_STAT_STATE c, Reg.SX_CNT_EXPIRED_COUNT c]) ((s.reach x T).lane x) (t.lane x)) ∧
  (∀ (x : LaneId) (c : Fin 64) (k T : Nat) (s : State), (s.lane x).up = true → (s.lane x).expiryDue c = some T →
    (s.lane x).bit (Reg.FM_REACT_B 136) = false → (s.lane x).bit Reg.HL_MOTION_CFG_EN = true → (s.lane x).motionConn = c →
    k = (if (s.lane x).bit Reg.HL_STAT_SELECT then (s.lane x).get Reg.HL_MOTION_CFG_PCONN else (s.lane x).get Reg.HL_MOTION_CFG_SCONN) →
    k ≠ c.val → (s.lane x).sxState k = 2 → (s.lane x).bit (Reg.FM_REACT_B 163) = false →
    ∃ t, exec (.sxExpiry x c) s = .next t ∧ OnlyLane x (s.reach x T) t ∧ (t.lane x).sxState c = 3 ∧
      (t.lane x).bit Reg.HL_STAT_SELECT = (!(s.lane x).bit Reg.HL_STAT_SELECT) ∧
      (t.lane x).get Reg.HL_CNT_TAKEOVER_COUNT =
        min ((s.lane x).get Reg.HL_CNT_TAKEOVER_COUNT + 1) (2 ^ Reg.HL_CNT_TAKEOVER_COUNT.width - 1)) ∧
  (∀ (x : LaneId) (route : Fin 3) (u : List Byte) (c len : Nat) (age : Int) (s : State), (s.lane x).up = true →
    c = ofBe (slice u 0 1) % 64 → (s.lane x).isConsumer c = true → u.length = 12 + len → ofBe (slice u 0 1) / 64 = 1 →
    len = ofBe (slice u 1 1) → len ≤ 48 →
    (s.lane x).get (Reg.SX_CONN_CFG_ROUTE c) = 3 ∨ (s.lane x).get (Reg.SX_CONN_CFG_ROUTE c) = route →
    ofBe (slice u (8 + len) 4) = (s.lane x).unitCheck c (u.take (8 + len)) → (s.lane x).bit Reg.TB_STAT_VALID = true →
    age = sgn 32 (uns 32 (((s.lane x).vehUs : Int) - ofBe (slice u 4 4))) → -((10 * (s.lane x).get (Reg.SX_CONN_CFG_SKEW c) : Nat) : Int) ≤ age →
    age ≤ (250 * (s.lane x).get (Reg.SX_CONN_CFG_EXPECT c) : Nat) →
    ofBe (slice u 2 2) = (s.lane x).get (Reg.SX_CONN_STAT_LAST_SEQ c) →
    ∃ t, exec (.sxUnitReceived x route u) s = .next t ∧ OnlyLane x s t ∧
      (t.lane x).get (Reg.SX_CNT_DUP_COUNT c) = min ((s.lane x).get (Reg.SX_CNT_DUP_COUNT c) + 1) (2 ^ 32 - 1) ∧
      Touches [.ts, .cp, .fm] (fields [0x4001] [Reg.PM_STAT_STATE, Reg.SX_CNT_DUP_COUNT c]) (s.lane x) (t.lane x))


/-! ### Host orders (14_host_orders.md) -/

/-- Orders that act in this lane and are answered at once (R590, R597 to R599), on every route: PING answers LOCAL; READ answers words of SRAM, up to 62 of them, or 14 on CAN FD, and refuses other counts with BAD_ARG; WRITE stores its words there in STARTUP, WORKSHOP and PARK, and is
refused with NOT_PERMITTED in the other modes; SUBSCRIBE sets its route's two bits; FAULT_CLEAR clears each status bit named whose cause is not held; ONEWAY sets its bit; TOFF asserts the deputy's line, and ends a stop that runs; RELEASE releases it; TOFF and RELEASE where they are not
permitted change nothing. The last three act in this lane alone where SCOPE is 0. -/
def Obligations.OrdersThatActAtOnce : Prop :=
  (∀ (x : LaneId) (via : FrameVia) (syms : List Sym) (h : OrderHdr) (s : State), Accepted x 0x01 via syms h [] s →
    ∃ t, exec (.ordPing x via syms) s = .next t ∧ OnlyLaneMem x s t ∧ t.memOf x = s.memOf x ∧
      Answered 0x01 0 [(s.lane x).now % 2 ^ 32] h (s.lane x) (t.lane x) ∧
      Touches [.hl, .ts, .cp, .fm] (fields [0x4001] (orderFlds h)) (s.lane x) (t.lane x)) ∧
  (∀ (x : LaneId) (via : FrameVia) (syms : List Sym) (h : OrderHdr) (a n : Word) (s : State), Accepted x 0x02 via syms h [a, n] s → 0 < n.toNat →
    n.toNat ≤ (if h.route = 2 then 14 else 62) → 0x20000000 ≤ a.toNat → a.toNat + 4 * n.toNat ≤ 0x20800000 →
    ∃ t, exec (.ordRead x via syms) s = .next t ∧ OnlyLaneMem x s t ∧ t.memOf x = s.memOf x ∧
      Answered 0x02 0 ((List.range n.toNat).map fun i => (s.memOf x).word ((a.toNat + 4 * i) / 4 * 4)) h (s.lane x) (t.lane x) ∧
      Touches [.hl, .ts, .cp, .fm] (fields [0x4001] (orderFlds h)) (s.lane x) (t.lane x)) ∧
  (∀ (x : LaneId) (via : FrameVia) (syms : List Sym) (h : OrderHdr) (a n : Word) (s : State), Accepted x 0x02 via syms h [a, n] s →
    n.toNat = 0 ∨ (if h.route = 2 then 14 else 62) < n.toNat →
    ∃ t, exec (.ordRead x via syms) s = .next t ∧ OnlyLaneMem x s t ∧ t.memOf x = s.memOf x ∧
      Answered 0x02 0x11 [] h (s.lane x) (t.lane x) ∧
      Touches [.hl, .ts, .cp, .fm] (fields [0x4001] (orderFlds h)) (s.lane x) (t.lane x)) ∧
  (∀ (x : LaneId) (via : FrameVia) (syms : List Sym) (h : OrderHdr) (a : Word) (vs : List Word) (s : State), Accepted x 0x03 via syms h (a :: vs) s → 0x20000000 ≤ a.toNat →
    a.toNat + 4 * vs.length ≤ 0x20800000 → (s.lane x).mode = 1 ∨ (s.lane x).mode = 6 ∨ (s.lane x).mode = 7 →
    ∃ t, exec (.ordWrite x via syms) s = .next t ∧ OnlyLaneMem x s t ∧
      t.memOf x = (List.range vs.length).foldl (fun m i => m.setMasked ((a.toNat + 4 * i) / 4 * 4) 15 (vs.getD i 0).toNat) (s.memOf x) ∧
      Answered 0x03 0 [] h (s.lane x) (t.lane x) ∧
      Touches [.hl, .ts, .cp, .fm] (fields [0x4001] (orderFlds h)) (s.lane x) (t.lane x)) ∧
  (∀ (x : LaneId) (via : FrameVia) (syms : List Sym) (h : OrderHdr) (args : List Word) (s : State), Accepted x 0x03 via syms h args s → (s.lane x).mode ≠ 1 → (s.lane x).mode ≠ 6 →
    (s.lane x).mode ≠ 7 →
    ∃ t, exec (.ordWrite x via syms) s = .next t ∧ OnlyLaneMem x s t ∧ t.memOf x = s.memOf x ∧ Answered 0x03 0x0B [] h (s.lane x) (t.lane x) ∧
      Touches [.hl, .ts, .cp, .fm] (fields [0x4001] (orderFlds h)) (s.lane x) (t.lane x)) ∧
  (∀ (x : LaneId) (via : FrameVia) (syms : List Sym) (h : OrderHdr) (a : Word) (s : State), Accepted x 0x0C via syms h [a] s →
    ∃ t, exec (.ordSubscribe x via syms) s = .next t ∧ OnlyLaneMem x s t ∧ t.memOf x = s.memOf x ∧ Answered 0x0C 0 [] h (s.lane x) (t.lane x) ∧
      (t.lane x).bit (Reg.HL_RPT_CFG_TALLY h.route) = bitAt a.toNat 1 ∧ (t.lane x).bit (Reg.HL_RPT_CFG_FAULT h.route) = bitAt a.toNat 0 ∧
      Touches [.hl, .ts, .cp, .fm] (fields [0x4001] (Reg.HL_RPT_CFG_TALLY h.route :: Reg.HL_RPT_CFG_FAULT h.route :: orderFlds h))
        (s.lane x) (t.lane x)) ∧
  (∀ (x : LaneId) (via : FrameVia) (syms : List Sym) (h : OrderHdr) (g v : Word) (i : Nat) (s : State), Accepted x 0x0D via syms h [g, v] s → i < 32 →
    ∃ t, exec (.ordFaultClear x via syms) s = .next t ∧ OnlyLaneMem x s t ∧ t.memOf x = s.memOf x ∧
      Answered 0x0D 0 [] h (s.lane x) (t.lane x) ∧
      (t.lane x).status (32 * g.toNat + i) = ((s.lane x).status (32 * g.toNat + i) &&
        !(bitAt v.toNat i && !(((s.lane x).noteHeld.takeFrame via syms).acceptTag h 0x0D).held554 (32 * g.toNat + i))) ∧
      Touches [.hl, .ts, .cp, .fm] (fields [0x4001] (Reg.FM_STATUS_STATUS g.toNat :: orderFlds h)) (s.lane x) (t.lane x)) ∧
  (∀ (x : LaneId) (via : FrameVia) (syms : List Sym) (h : OrderHdr) (a : Word) (s : State), Accepted x 0x08 via syms h [a] s → h.scope = false →
    ∃ t, exec (.ordOneway x via syms) s = .next t ∧ OnlyLaneMem x s t ∧ t.memOf x = s.memOf x ∧ Answered 0x08 0 [] h (s.lane x) (t.lane x) ∧
      (t.lane x).bit (Reg.SM_ONEWAY_SET (a.toNat / 2)) = bitAt a.toNat 0 ∧ Touches deputyParts deputyRegs (s.lane x) (t.lane x)) ∧
  (∀ (x : LaneId) (via : FrameVia) (syms : List Sym) (h : OrderHdr) (s : State), Accepted x 0x05 via syms h [] s → h.scope = false → (s.lane x).toffCode = 0 →
    ∃ t, exec (.ordToff x via syms) s = .next t ∧ OnlyLaneMem x s t ∧ t.memOf x = s.memOf x ∧ Answered 0x05 0 [] h (s.lane x) (t.lane x) ∧
      (t.lane x).bit Reg.SM_STAT_TOFF = true ∧ (t.lane x).stopping = false ∧ Touches deputyParts deputyRegs (s.lane x) (t.lane x)) ∧
  (∀ (x : LaneId) (via : FrameVia) (syms : List Sym) (h : OrderHdr) (s : State), Accepted x 0x05 via syms h [] s → h.scope = false → (s.lane x).toffCode ≠ 0 →
    ∃ t, exec (.ordToff x via syms) s = .next t ∧ OnlyLaneMem x s t ∧ t.memOf x = s.memOf x ∧
      Answered 0x05 (s.lane x).toffCode [] h (s.lane x) (t.lane x) ∧
      Touches [.hl, .ts, .cp, .fm] (fields [0x4001] (Reg.SM_CMD_RESULT :: orderFlds h)) (s.lane x) (t.lane x)) ∧
  (∀ (x : LaneId) (via : FrameVia) (syms : List Sym) (h : OrderHdr) (s : State), Accepted x 0x07 via syms h [] s → h.scope = false → (((s.lane x).noteHeld.takeFrame via syms).acceptTag h 0x07).releaseCode = 0 →
    ∃ t, exec (.ordRelease x via syms) s = .next t ∧ OnlyLaneMem x s t ∧ t.memOf x = s.memOf x ∧ Answered 0x07 0 [] h (s.lane x) (t.lane x) ∧
      (t.lane x).bit Reg.SM_STAT_TOFF = false ∧
      Touches [.hl, .ts, .cp, .fm] (fields [0x4001] (Reg.SM_STAT_TOFF :: Reg.SM_CMD_RESULT :: orderFlds h)) (s.lane x) (t.lane x)) ∧
  (∀ (x : LaneId) (via : FrameVia) (syms : List Sym) (h : OrderHdr) (s : State), Accepted x 0x07 via syms h [] s → h.scope = false → (((s.lane x).noteHeld.takeFrame via syms).acceptTag h 0x07).releaseCode ≠ 0 →
    ∃ t, exec (.ordRelease x via syms) s = .next t ∧ OnlyLaneMem x s t ∧ t.memOf x = s.memOf x ∧
      Answered 0x07 (((s.lane x).noteHeld.takeFrame via syms).acceptTag h 0x07).releaseCode [] h (s.lane x) (t.lane x) ∧
      Touches [.hl, .ts, .cp, .fm] (fields [0x4001] (Reg.SM_CMD_RESULT :: orderFlds h)) (s.lane x) (t.lane x))

/-- Orders that start operations or scripts (R600, R611 to R616, R621, R622, R629, R656, R664), on every route: STOP, POWER, SCRIPT_RUN, RECORD and BIST take the next free operation number and answer with it; with four operations open they are refused as BUSY. A STOP while one runs starts none;
POWER outside PARK and for RUN or IDLE, and SCRIPT_LOAD with and without LAST, are as their clauses say. -/
def Obligations.OrdersThatStartOperations : Prop :=
  (∀ (x : LaneId) (via : FrameVia) (syms : List Sym) (h : OrderHdr) (s : State), Accepted x 0x06 via syms h [] s → h.scope = false → (s.lane x).full4 h.part = false →
    (s.lane x).stopCode = 0 → (s.lane x).stopping = false →
    ∃ t, exec (.ordStop x via syms) s = .next t ∧ OnlyLaneMem x s t ∧ t.memOf x = s.memOf x ∧
      Answered 0x06 0 [(s.lane x).opidWord (some (s.lane x).freeOpId)] h (s.lane x) (t.lane x) ∧ (t.lane x).stopping = true ∧
      (t.lane x).sm.stopOp = some (s.lane x).freeOpId ∧ Touches deputyParts deputyRegs (s.lane x) (t.lane x)) ∧
  (∀ (x : LaneId) (via : FrameVia) (syms : List Sym) (h : OrderHdr) (s : State), Accepted x 0x06 via syms h [] s → h.scope = false → (s.lane x).full4 h.part = false →
    (s.lane x).stopCode = 0 → (s.lane x).stopping = true →
    ∃ t, exec (.ordStop x via syms) s = .next t ∧ OnlyLaneMem x s t ∧ t.memOf x = s.memOf x ∧
      Answered 0x06 0 [(s.lane x).opidWord none] h (s.lane x) (t.lane x) ∧
      Touches [.hl, .ts, .cp, .fm] (fields [0x4001] (Reg.SM_CMD_RESULT :: orderFlds h)) (s.lane x) (t.lane x)) ∧
  (∀ (x : LaneId) (via : FrameVia) (syms : List Sym) (h : OrderHdr) (a : Word) (s : State), Accepted x 0x0E via syms h [a] s → (s.lane x).full4 h.part = false → 2 ≤ a.toNat →
    (s.lane x).mode = 7 → (s.lane x).bit Reg.PM_STAT_ENTERING = false → (s.lane x).bit Reg.PM_STAT_EXITING = false →
    ∃ t, exec (.ordPower x via syms) s = .next t ∧ OnlyLaneMem x s t ∧ t.memOf x = s.memOf x ∧
      Answered 0x0E 0 [(s.lane x).opidWord (some (s.lane x).freeOpId)] h (s.lane x) (t.lane x) ∧
      (t.lane x).bit Reg.PM_STAT_ENTERING = true ∧ (t.lane x).get Reg.PM_STAT_TARGET = a.toNat ∧
      (t.lane x).pm.ops = [(s.lane x).freeOpId] ∧
      (t.lane x).hl.ops = (s.lane x).hl.ops ++ [⟨(s.lane x).freeOpId, h.part, h.route, .power, false⟩] ∧
      Touches [.pm, .hl, .ts, .cp, .fm] (fields [0x4001] (Reg.PM_STAT_TARGET :: Reg.PM_STAT_ENTERING :: orderFlds h))
        (s.lane x) (t.lane x)) ∧
  (∀ (x : LaneId) (via : FrameVia) (syms : List Sym) (h : OrderHdr) (a : Word) (s : State), Accepted x 0x0E via syms h [a] s → (s.lane x).full4 h.part = false → a.toNat < 2 →
    (s.lane x).bit Reg.PM_STAT_ENTERING = false → (s.lane x).bit Reg.PM_STAT_EXITING = false →
    ∃ t, exec (.ordPower x via syms) s = .next t ∧ OnlyLaneMem x s t ∧ t.memOf x = s.memOf x ∧
      Answered 0x0E 0 [(s.lane x).opidWord (some (s.lane x).freeOpId)] h (s.lane x) (t.lane x) ∧
      (t.lane x).get Reg.PM_CFG_IDLE_EN = a.toNat ∧ (∀ o, o ∈ (t.lane x).hl.ops → o.id ≠ (s.lane x).freeOpId) ∧
      Touches [.free, .hl, .ts, .cp, .fm] (fields [0x4001] (Reg.PM_CFG_IDLE_EN :: orderFlds h)) (s.lane x) (t.lane x)) ∧
  (∀ (x : LaneId) (via : FrameVia) (syms : List Sym) (h : OrderHdr) (a : Word) (s : State), Accepted x 0x0E via syms h [a] s → (s.lane x).full4 h.part = false → 2 ≤ a.toNat →
    (s.lane x).mode ≠ 7 →
    ∃ t, exec (.ordPower x via syms) s = .next t ∧ OnlyLaneMem x s t ∧ t.memOf x = s.memOf x ∧
      Answered 0x0E 0x0B [] h (s.lane x) (t.lane x) ∧
      Touches [.hl, .ts, .cp, .fm] (fields [0x4001] (orderFlds h)) (s.lane x) (t.lane x)) ∧
  (∀ (x : LaneId) (via : FrameVia) (syms : List Sym) (h : OrderHdr) (a : Word) (s : State), Accepted x 0x11 via syms h [a] s → (s.lane x).full4 h.part = false →
    (s.lane x).hl.run = none → ((s.lane x).script a.toNat).runnable = true →
    ∃ t, exec (.ordScriptRun x via syms) s = .next t ∧ OnlyLaneMem x s t ∧ t.memOf x = s.memOf x ∧
      Answered 0x11 0 [(s.lane x).opidWord (some (s.lane x).freeOpId)] h (s.lane x) (t.lane x) ∧
      (t.lane x).hl.run = some ⟨a.toNat, 0, 0, none, none, (s.lane x).freeOpId, h.part, false, none⟩ ∧
      (t.lane x).bit Reg.HL_STAT_SCR_RUN = true ∧ (t.lane x).get Reg.HL_STAT_SCRIPT = a.toNat ∧
      Touches [.hl, .ts, .cp, .fm] (fields [0x4001] (Reg.HL_STAT_SCR_RUN :: Reg.HL_STAT_SCRIPT :: orderFlds h)) (s.lane x) (t.lane x)) ∧
  (∀ (x : LaneId) (via : FrameVia) (syms : List Sym) (h : OrderHdr) (a : Word) (s : State), Accepted x 0x12 via syms h [a] s → (s.lane x).full4 h.part = false →
    (s.lane x).recordCode a.toNat ((s.memOf x).word (s.lane x).stageAddr) ((s.memOf x).word ((s.lane x).stageAddr + 8)) = 0 →
    (s.lane x).nvOpen = true → (s.lane x).rs.writing = none → (s.lane x).rs.pend = [] →
    ∃ t, exec (.ordRecord x via syms) s = .next t ∧ OnlyLaneMem x s t ∧ t.memOf x = s.memOf x ∧
      Answered 0x12 0 [(s.lane x).opidWord (some (s.lane x).freeOpId)] h (s.lane x) (t.lane x) ∧
      (t.lane x).recordBusy a.toNat = true ∧
      Touches [.rs, .hl, .ts, .cp, .fm] (fields [0x4001, 0x4010] (orderFlds h)) (s.lane x) (t.lane x)) ∧
  (∀ (x : LaneId) (via : FrameVia) (syms : List Sym) (h : OrderHdr) (a : Word) (s : State), Accepted x 0x13 via syms h [a] s → (s.lane x).full4 h.part = false →
    bistMode (s.lane x).mode = true → (s.lane x).st.bist = none →
    ∃ t, exec (.ordBist x via syms) s = .next t ∧ OnlyLaneMem x s t ∧ t.memOf x = s.memOf x ∧
      Answered 0x13 0 [(s.lane x).opidWord (some (s.lane x).freeOpId)] h (s.lane x) (t.lane x) ∧
      (t.lane x).st.bist.map (·.opid) = some (some (s.lane x).freeOpId) ∧ (t.lane x).bit Reg.ST_STAT_BUSY = true ∧
      Touches [.st, .hl, .ts, .cp, .fm] (fields [0x4001] (Reg.ST_STAT_BUSY :: Reg.ST_STAT_SLICE :: orderFlds h)) (s.lane x) (t.lane x)) ∧
  (∀ (x : LaneId) (k : Nat) (via : FrameVia) (syms : List Sym) (h : OrderHdr) (args : List Word) (s : State), k = 5 ∨ k = 13 ∨ k = 15 ∨ k = 16 ∨ k = 17 →
    Accepted x (ordOp k) via syms h args s → h.scope = false → (s.lane x).full4 h.part = true →
    ∃ t, exec (ordCmd k x via syms) s = .next t ∧ OnlyLaneMem x s t ∧ t.memOf x = s.memOf x ∧
      Answered (ordOp k) 0x16 [] h (s.lane x) (t.lane x) ∧
      Touches [.hl, .ts, .cp, .fm] (fields [0x4001] (orderFlds h)) (s.lane x) (t.lane x)) ∧
  (∀ (x : LaneId) (via : FrameVia) (syms : List Sym) (h : OrderHdr) (w : Word) (ws : List Word) (i slot off : Nat) (s : State), Accepted x 0x10 via syms h (w :: ws) s →
    slot = bitsOf w.toNat 9 8 → off = w.toNat % 2 ^ 8 → ((s.lane x).hl.run.all fun r => decide (r.slot ≠ slot)) = true →
    bitAt w.toNat 31 = false → off + ws.length ≤ 256 → i < ws.length →
    ∃ t, exec (.ordScriptLoad x via syms) s = .next t ∧ OnlyLaneMem x s t ∧ t.memOf x = s.memOf x ∧
      Answered 0x10 0 [] h (s.lane x) (t.lane x) ∧
      (t.lane x).get (Reg.HL_SCRIPT_WORD slot (off + i)) = (ws.getD i 0).toNat ∧
      (t.lane x).script slot = ⟨false, h.part⟩ ∧ Touches [.hl, .ts, .cp, .fm] (fields [0x4001, 0x4011] [Reg.PM_STAT_STATE]) (s.lane x) (t.lane x)) ∧
  (∀ (x : LaneId) (via : FrameVia) (syms : List Sym) (h : OrderHdr) (w : Word) (ws : List Word) (whole : List Nat) (slot off : Nat) (s : State), Accepted x 0x10 via syms h (w :: ws) s →
    slot = bitsOf w.toNat 9 8 → off = w.toNat % 2 ^ 8 → ((s.lane x).hl.run.all fun r => decide (r.slot ≠ slot)) = true →
    bitAt w.toNat 31 = true → off + ws.length ≤ 256 →
    whole = ((List.range off).map fun i => (s.lane x).get (Reg.HL_SCRIPT_WORD slot i)) ++ ws.map (·.toNat) →
    ∃ t, exec (.ordScriptLoad x via syms) s = .next t ∧ OnlyLaneMem x s t ∧ t.memOf x = s.memOf x ∧
      Answered 0x10 (if scriptOk ((s.lane x).get (Reg.HL_PART_CFG_AUTH h.part)) whole then 0 else 0x11) [] h (s.lane x) (t.lane x) ∧
      ((t.lane x).script slot).runnable = scriptOk ((s.lane x).get (Reg.HL_PART_CFG_AUTH h.part)) whole ∧
      Touches [.hl, .ts, .cp, .fm] (fields [0x4001, 0x4011] [Reg.PM_STAT_STATE]) (s.lane x) (t.lane x))

/-- ABORT (R580, R613 to R616, R663), on every route, in this lane alone where SCOPE is 0: of no open operation of the partition it answers NO_OP, of a committed one TOO_LATE; else a stop ends with STATE 4, a RAMP leaves the target, a queued power request is dropped, an
entry is abandoned at its next abort point, a running script that waits for no operation ends, a record write is dropped, and a BIST ends after the slice in progress. -/
def Obligations.AbortsReachTheirOwners : Prop :=
  (∀ (x : LaneId) (via : FrameVia) (syms : List Sym) (h : OrderHdr) (a : Word) (s : State), Accepted x 0x09 via syms h [a] s → h.scope = false →
    (((s.lane x).findOp ((s.lane x).ownOpid a.toNat)).all fun p => decide (p.part ≠ h.part.val)) = true →
    ∃ t, exec (.ordAbort x via syms) s = .next t ∧ OnlyLaneMem x s t ∧ t.memOf x = s.memOf x ∧ Answered 0x09 0x0D [] h (s.lane x) (t.lane x) ∧
      Touches [.hl, .ts, .cp, .fm] (fields [0x4001] (orderFlds h)) (s.lane x) (t.lane x)) ∧
  (∀ (x : LaneId) (via : FrameVia) (syms : List Sym) (h : OrderHdr) (a : Word) (p : Op) (s : State), Accepted x 0x09 via syms h [a] s → h.scope = false →
    (s.lane x).findOp ((s.lane x).ownOpid a.toNat) = some p → p.part = h.part → p.committed = true →
    ∃ t, exec (.ordAbort x via syms) s = .next t ∧ OnlyLaneMem x s t ∧ t.memOf x = s.memOf x ∧ Answered 0x09 0x0C [] h (s.lane x) (t.lane x) ∧
      Touches [.hl, .ts, .cp, .fm] (fields [0x4001] (orderFlds h)) (s.lane x) (t.lane x)) ∧
  (∀ (x : LaneId) (via : FrameVia) (syms : List Sym) (h : OrderHdr) (a : Word) (p : Op) (s : State), Accepted x 0x09 via syms h [a] s → h.scope = false →
    (s.lane x).findOp ((s.lane x).ownOpid a.toNat) = some p → p.part = h.part → p.kind = .stop → p.committed = false →
    (s.lane x).stopAbortCode = 0 →
    ∃ t, exec (.ordAbort x via syms) s = .next t ∧ OnlyLaneMem x s t ∧ t.memOf x = s.memOf x ∧ Answered 0x09 0 [] h (s.lane x) (t.lane x) ∧
      (t.lane x).get Reg.SM_STOP_STAT_STATE = 4 ∧ (t.lane x).sm = { (s.lane x).sm with stopOp := none } ∧
      Touches deputyParts (fields [0x4001, 0x4011] [Reg.PM_STAT_STATE, Reg.SM_STOP_STAT_STATE]) (s.lane x) (t.lane x)) ∧
  (∀ (x : LaneId) (via : FrameVia) (syms : List Sym) (h : OrderHdr) (a : Word) (p : Op) (s : State), Accepted x 0x09 via syms h [a] s → h.scope = false →
    (s.lane x).findOp ((s.lane x).ownOpid a.toNat) = some p → p.part = h.part → p.kind = .ramp → p.committed = false →
    ((s.lane x).hl.ramps.any fun r => decide (r.opid = some p.id) && (s.lane x).rampCommitted r) = false →
    ∃ t, exec (.ordAbort x via syms) s = .next t ∧ OnlyLaneMem x s t ∧ t.memOf x = s.memOf x ∧ Answered 0x09 0 [] h (s.lane x) (t.lane x) ∧
      (t.lane x).hl.ramps = ((s.lane x).hl.ramps.filter fun r => r.opid ≠ some p.id) ∧ (∀ o, o ∈ (t.lane x).hl.ops → o.id ≠ p.id) ∧
      Touches [.xf, .hl, .ts, .cp, .fm] (fields [0x4001] (orderFlds h)) (s.lane x) (t.lane x)) ∧
  (∀ (x : LaneId) (via : FrameVia) (syms : List Sym) (h : OrderHdr) (a : Word) (p : Op) (s : State), Accepted x 0x09 via syms h [a] s → h.scope = false →
    (s.lane x).findOp ((s.lane x).ownOpid a.toNat) = some p → p.part = h.part → p.kind = .power → p.committed = false →
    (s.lane x).pm.qop = some p.id →
    ∃ t, exec (.ordAbort x via syms) s = .next t ∧ OnlyLaneMem x s t ∧ t.memOf x = s.memOf x ∧ Answered 0x09 0 [] h (s.lane x) (t.lane x) ∧
      (t.lane x).bit Reg.PM_STAT_QVALID = false ∧ (t.lane x).pm = { (s.lane x).pm with qop := none } ∧
      (∀ o, o ∈ (t.lane x).hl.ops → o.id ≠ p.id) ∧
      Touches [.pm, .hl, .ts, .cp, .fm] (fields [0x4001] (Reg.PM_STAT_QVALID :: Reg.PM_STAT_QUEUED :: orderFlds h)) (s.lane x) (t.lane x)) ∧
  (∀ (x : LaneId) (via : FrameVia) (syms : List Sym) (h : OrderHdr) (a : Word) (p : Op) (s : State), Accepted x 0x09 via syms h [a] s → h.scope = false →
    (s.lane x).findOp ((s.lane x).ownOpid a.toNat) = some p → p.part = h.part → p.kind = .power → p.committed = false →
    (s.lane x).pm.qop ≠ some p.id →
    ∃ t, exec (.ordAbort x via syms) s = .next t ∧ OnlyLaneMem x s t ∧ t.memOf x = s.memOf x ∧ Answered 0x09 0 [] h (s.lane x) (t.lane x) ∧
      (t.lane x).pm = { (s.lane x).pm with abort := true } ∧
      Touches [.pm, .hl, .ts, .cp, .fm] (fields [0x4001] (orderFlds h)) (s.lane x) (t.lane x)) ∧
  (∀ (x : LaneId) (via : FrameVia) (syms : List Sym) (h : OrderHdr) (a : Word) (p : Op) (r : ScriptRun) (s : State), Accepted x 0x09 via syms h [a] s → h.scope = false →
    (s.lane x).findOp ((s.lane x).ownOpid a.toNat) = some p → p.part = h.part → p.kind = .script → p.committed = false →
    (s.lane x).hl.run = some r → r.opid = p.id → r.waiting = none →
    ∃ t, exec (.ordAbort x via syms) s = .next t ∧ OnlyLaneMem x s t ∧ t.memOf x = s.memOf x ∧ Answered 0x09 0 [] h (s.lane x) (t.lane x) ∧
      (t.lane x).hl.run = none ∧ (t.lane x).bit Reg.HL_STAT_SCR_RUN = false ∧ (∀ o, o ∈ (t.lane x).hl.ops → o.id ≠ p.id) ∧
      Touches [.hl, .ts, .cp, .fm] (fields [0x4001] (Reg.HL_STAT_SCR_RUN :: orderFlds h)) (s.lane x) (t.lane x)) ∧
  (∀ (x : LaneId) (via : FrameVia) (syms : List Sym) (h : OrderHdr) (a : Word) (p : Op) (n : Nat) (w : RsWrite) (s : State), Accepted x 0x09 via syms h [a] s → h.scope = false →
    (s.lane x).findOp ((s.lane x).ownOpid a.toNat) = some p → p.part = h.part → p.kind = .record n → p.committed = false →
    (s.lane x).rs.pend = [] → (s.lane x).rs.writing = some w → w.slot = n → w.op = some p.id →
    ∃ t, exec (.ordAbort x via syms) s = .next t ∧ OnlyLaneMem x s t ∧ t.memOf x = s.memOf x ∧ Answered 0x09 0 [] h (s.lane x) (t.lane x) ∧
      (t.lane x).rs = { (s.lane x).rs with writing := none } ∧ (∀ o, o ∈ (t.lane x).hl.ops → o.id ≠ p.id) ∧
      Touches [.rs, .hl, .ts, .cp, .fm] (fields [0x4001, 0x4010] (orderFlds h)) (s.lane x) (t.lane x)) ∧
  (∀ (x : LaneId) (via : FrameVia) (syms : List Sym) (h : OrderHdr) (a : Word) (p : Op) (b : Bist) (s : State), Accepted x 0x09 via syms h [a] s → h.scope = false →
    (s.lane x).findOp ((s.lane x).ownOpid a.toNat) = some p → p.part = h.part → p.kind = .bist → p.committed = false →
    (s.lane x).st.bist = some b →
    ∃ t, exec (.ordAbort x via syms) s = .next t ∧ OnlyLaneMem x s t ∧ t.memOf x = s.memOf x ∧ Answered 0x09 0 [] h (s.lane x) (t.lane x) ∧
      (t.lane x).st = { (s.lane x).st with bist := some { b with abort := true } } ∧
      Touches [.st, .hl, .ts, .cp, .fm] (fields [0x4001] (orderFlds h)) (s.lane x) (t.lane x))

/-- Orders that reach the other lanes (R604 to R611), on every route. MODE in the command lane waits for its next watch evaluation, or is refused while a published change is pending; in another lane it is relayed to the command lane, and with none it is answered ROUTE or
NO_QUORUM. RAMP and MOTION_SELECT, and TOFF, STOP, RELEASE, ONEWAY and ABORT with SCOPE 1, are performed here and relayed, and their answer waits for the three results; without a relay element, or with the relay queue full, they are performed nowhere and refused. The
MOTION_SELECT is one whose source 163 asks for no block reset. -/
def Obligations.OrdersThatReachTheOtherLanes : Prop :=
  (∀ (x : LaneId) (via : FrameVia) (syms : List Sym) (h : OrderHdr) (a : Word) (s : State), Accepted x 0x04 via syms h [a] s → (s.lane x).commandLane = some (s.lane x).me →
    (s.lane x).changePending = false →
    ∃ t, exec (.ordMode x via syms) s = .next t ∧ OnlyLaneMem x s t ∧ t.memOf x = s.memOf x ∧
      (t.lane x).md.reqs = (s.lane x).md.reqs ++
        [⟨(s.lane x).get (Reg.HL_PART_CFG_AUTH h.part), h.part, a.toNat, .host h.route h.part h.tag⟩] ∧
      (t.lane x).hl.resp = (s.lane x).hl.resp ∧ ⟨h.part, h.tag, 0x04, h.route⟩ ∈ (t.lane x).hl.tags ∧
      Touches [.md, .hl, .ts, .cp, .fm] (fields [0x4001] (orderFlds h)) (s.lane x) (t.lane x)) ∧
  (∀ (x : LaneId) (via : FrameVia) (syms : List Sym) (h : OrderHdr) (a : Word) (s : State), Accepted x 0x04 via syms h [a] s → (s.lane x).commandLane = some (s.lane x).me →
    (s.lane x).changePending = true →
    ∃ t, exec (.ordMode x via syms) s = .next t ∧ OnlyLaneMem x s t ∧ t.memOf x = s.memOf x ∧ Answered 0x04 0x08 [] h (s.lane x) (t.lane x) ∧
      (t.lane x).md.reqs = (s.lane x).md.reqs ∧
      Touches [.hl, .ts, .cp, .fm] (fields [0x4001] (Reg.SYS_MODE_CNT_REFUSED :: orderFlds h)) (s.lane x) (t.lane x)) ∧
  (∀ (x : LaneId) (via : FrameVia) (syms : List Sym) (h : OrderHdr) (a : Word) (c : LaneId) (s : State), Accepted x 0x04 via syms h [a] s → (s.lane x).commandLane = some c →
    c ≠ (s.lane x).me → (s.lane x).relayCode [a.toNat] = 0 →
    ∃ t, exec (.ordMode x via syms) s = .next t ∧ OnlyLaneMem x s t ∧ t.memOf x = s.memOf x ∧
      (t.lane x).hl.await = (s.lane x).hl.await ++ [⟨h.part, h.tag, 0x04, [c], [], some ((s.lane x).now + 1200000), 0, false⟩] ∧
      (t.lane x).hl.relayQ.length = (s.lane x).hl.relayQ.length + 1 ∧ (t.lane x).hl.resp = (s.lane x).hl.resp ∧
      Touches [.hl, .ts, .cp, .fm] (fields [0x4001] (Reg.HL_STAT_RELAYQ :: orderFlds h)) (s.lane x) (t.lane x)) ∧
  (∀ (x : LaneId) (via : FrameVia) (syms : List Sym) (h : OrderHdr) (a : Word) (s : State), Accepted x 0x04 via syms h [a] s → (s.lane x).commandLane = none →
    ∃ t, exec (.ordMode x via syms) s = .next t ∧ OnlyLaneMem x s t ∧ t.memOf x = s.memOf x ∧
      Answered 0x04 (if (s.lane x).commandUnreachable then 0x13 else 0x0A) [] h (s.lane x) (t.lane x) ∧
      Touches [.hl, .ts, .cp, .fm] (fields [0x4001] (orderFlds h)) (s.lane x) (t.lane x)) ∧
  (∀ (x : LaneId) (via : FrameVia) (syms : List Sym) (h : OrderHdr) (a b c d : Word) (s : State), Accepted x 0x0A via syms h [a, b, c, d] s → (s.lane x).bit Reg.HL_ELEM_EN = true →
    (s.lane x).hl.relayQ.length < 16 → (s.lane x).full4 h.part = false → (s.lane x).permits .motion = true →
    a.toNat < (s.lane x).targetWords →
    ∃ t, exec (.ordRamp x via syms) s = .next t ∧ OnlyLaneMem x s t ∧ t.memOf x = s.memOf x ∧
      (t.lane x).hl.ramps = (s.lane x).hl.ramps ++ [⟨a.toNat, sgn 32 b.toNat, sgn 32 c.toNat, sgn 32 d.toNat, (s.lane x).rampSailing,
        some (s.lane x).freeOpId, false⟩] ∧ Relayed 0x0A 0 (s.lane x).freeOpId h (s.lane x) (t.lane x) ∧
      Touches [.hl, .ts, .cp, .fm] (fields [0x4001] (Reg.HL_STAT_RELAYQ :: orderFlds h)) (s.lane x) (t.lane x)) ∧
  (∀ (x : LaneId) (via : FrameVia) (syms : List Sym) (h : OrderHdr) (a : Word) (s : State), Accepted x 0x0B via syms h [a] s → (s.lane x).bit Reg.HL_ELEM_EN = true →
    (s.lane x).hl.relayQ.length < 16 → (s.lane x).get Reg.HL_STAT_SELECT ≠ a.toNat →
    a.toNat = 1 ∨ (s.lane x).sxState ((s.lane x).motionHost 0) = 2 → (s.lane x).bit (Reg.FM_REACT_B 163) = false →
    ∃ t, exec (.ordMotionSelect x via syms) s = .next t ∧ OnlyLaneMem x s t ∧ t.memOf x = s.memOf x ∧
      (t.lane x).get Reg.HL_STAT_SELECT = a.toNat ∧ Raised 163 (s.lane x) (t.lane x) ∧
      (∀ r, r ∈ (t.lane x).hl.ramps → r.committed = false) ∧ Relayed 0x0B 0 0xFF h (s.lane x) (t.lane x)) ∧
  (∀ (x : LaneId) (via : FrameVia) (syms : List Sym) (h : OrderHdr) (a : Word) (s : State), Accepted x 0x0B via syms h [a] s → (s.lane x).bit Reg.HL_ELEM_EN = true →
    (s.lane x).hl.relayQ.length < 16 → a.toNat = 0 → (s.lane x).sxState ((s.lane x).motionHost 0) ≠ 2 →
    ∃ t, exec (.ordMotionSelect x via syms) s = .next t ∧ OnlyLaneMem x s t ∧ t.memOf x = s.memOf x ∧
      (t.lane x).get Reg.HL_STAT_SELECT = (s.lane x).get Reg.HL_STAT_SELECT ∧ Relayed 0x0B 0x01 0xFF h (s.lane x) (t.lane x) ∧
      Touches [.hl, .ts, .cp, .fm] (fields [0x4001] (Reg.HL_STAT_RELAYQ :: orderFlds h)) (s.lane x) (t.lane x)) ∧
  (∀ (x : LaneId) (via : FrameVia) (syms : List Sym) (h : OrderHdr) (s : State), Accepted x 0x05 via syms h [] s → h.scope = true → (s.lane x).relayCode [] = 0 →
    (s.lane x).toffCode = 0 →
    ∃ t, exec (.ordToff x via syms) s = .next t ∧ OnlyLaneMem x s t ∧ t.memOf x = s.memOf x ∧ (t.lane x).bit Reg.SM_STAT_TOFF = true ∧
      Relayed 0x05 0 0xFF h (s.lane x) (t.lane x) ∧ Touches deputyParts deputyRegs (s.lane x) (t.lane x)) ∧
  (∀ (x : LaneId) (via : FrameVia) (syms : List Sym) (h : OrderHdr) (s : State), Accepted x 0x06 via syms h [] s → h.scope = true → (s.lane x).relayCode [] = 0 →
    (s.lane x).full4 h.part = false → (s.lane x).stopCode = 0 → (s.lane x).stopping = false →
    ∃ t, exec (.ordStop x via syms) s = .next t ∧ OnlyLaneMem x s t ∧ t.memOf x = s.memOf x ∧ (t.lane x).stopping = true ∧
      (t.lane x).sm.stopOp = some (s.lane x).freeOpId ∧ Relayed 0x06 0 (s.lane x).freeOpId h (s.lane x) (t.lane x) ∧
      Touches deputyParts deputyRegs (s.lane x) (t.lane x)) ∧
  (∀ (x : LaneId) (via : FrameVia) (syms : List Sym) (h : OrderHdr) (s : State), Accepted x 0x07 via syms h [] s → h.scope = true → (s.lane x).relayCode [] = 0 →
    (((s.lane x).noteHeld.takeFrame via syms).acceptTag h 0x07).releaseCode = 0 →
    ∃ t, exec (.ordRelease x via syms) s = .next t ∧ OnlyLaneMem x s t ∧ t.memOf x = s.memOf x ∧ (t.lane x).bit Reg.SM_STAT_TOFF = false ∧
      Relayed 0x07 0 0xFF h (s.lane x) (t.lane x) ∧
      Touches [.hl, .ts, .cp, .fm] (fields [0x4001] (Reg.SM_STAT_TOFF :: Reg.SM_CMD_RESULT :: Reg.HL_STAT_RELAYQ :: orderFlds h)) (s.lane x) (t.lane x)) ∧
  (∀ (x : LaneId) (via : FrameVia) (syms : List Sym) (h : OrderHdr) (a : Word) (s : State), Accepted x 0x08 via syms h [a] s → h.scope = true → (s.lane x).relayCode [a.toNat] = 0 →
    ∃ t, exec (.ordOneway x via syms) s = .next t ∧ OnlyLaneMem x s t ∧ t.memOf x = s.memOf x ∧
      (t.lane x).bit (Reg.SM_ONEWAY_SET (a.toNat / 2)) = bitAt a.toNat 0 ∧ Touches deputyParts deputyRegs (s.lane x) (t.lane x)) ∧
  (∀ (x : LaneId) (via : FrameVia) (syms : List Sym) (h : OrderHdr) (a : Word) (p : Op) (b : Bist) (s : State), Accepted x 0x09 via syms h [a] s → h.scope = true →
    (s.lane x).relayCode [a.toNat] = 0 → (s.lane x).findOp ((s.lane x).ownOpid a.toNat) = some p → p.part = h.part → p.kind = .bist →
    p.committed = false → (s.lane x).st.bist = some b →
    ∃ t, exec (.ordAbort x via syms) s = .next t ∧ OnlyLaneMem x s t ∧ t.memOf x = s.memOf x ∧
      (t.lane x).st = { (s.lane x).st with bist := some { b with abort := true } } ∧ Relayed 0x09 0 0xFF h (s.lane x) (t.lane x) ∧
      Touches [.st, .hl, .ts, .cp, .fm] (fields [0x4001] (Reg.HL_STAT_RELAYQ :: orderFlds h)) (s.lane x) (t.lane x)) ∧
  (∀ (x : LaneId) (k : Nat) (via : FrameVia) (syms : List Sym) (h : OrderHdr) (args : List Word) (s : State), k = 9 ∨ k = 10 ∨ (4 ≤ k ∧ k ≤ 8 ∧ h.scope = true) →
    Accepted x (ordOp k) via syms h args s → (s.lane x).relayCode (args.map (·.toNat)) ≠ 0 →
    ∃ t, exec (ordCmd k x via syms) s = .next t ∧ OnlyLaneMem x s t ∧ t.memOf x = s.memOf x ∧
      Answered (ordOp k) ((s.lane x).relayCode (args.map (·.toNat))) [] h (s.lane x) (t.lane x) ∧
      Touches [.hl, .ts, .cp, .fm] (fields [0x4001] (orderFlds h)) (s.lane x) (t.lane x))

/-- Responses, reports and the links (R584, R590 to R595, R606, R618, R620): the response that is ready leaves its route before a report and frees its tag; on the vehicle ring a frame is added to the lane's SRC 8 element; with none ready the oldest report leaves that its
route can carry; a link that comes up sends LINK_UP and is fresh no longer; the command link's loss of synchronism takes it down and raises source 160; CAN FD's states are shown, and raise sources 164 and 165 on entry. An order relayed whose results stay away is answered
with RELAY_LOST for the lanes that owe one, and a firmware mode request unanswered for 12 ms ends with 0x0A. Frames of every order (R582 to R591, R601, Table 14.11): what a frame orders stands in its header word, and a frame written as its route carries it reads back as written. One that does not reach HL changes nothing, unless it ends in the tick in which the link
loses its sync: then it counts as broken; a broken one is counted and raised as source 160, a whole one out of credit is counted and raised as source 161; one accepted whose order a check refuses is answered with that check's code, BAD_ORDER where its OP is not in Table 14.5, and
nothing is performed. -/
def Obligations.FramesResponsesAndLinks : Prop :=
  (∀ (x : LaneId) (route : Fin 3) (p i : Nat) (e : Response) (s : State), (s.lane x).awake = true →
    (s.lane x).responseReady route = some (p, i, e) →
    ∃ t, exec (.responseSend x route) s = .next t ∧ OnlyLane x s t ∧
      (t.lane x).hl = { (s.lane x).hl with
        resp := spSet [] p ((spGet [] p (s.lane x).hl.resp).eraseIdx i) (s.lane x).hl.resp
        tags := (s.lane x).hl.tags.filter fun k => !(k.part = p && k.tag = bitsOf e.hdr 23 20)
        sent := (s.lane x).hl.sent ++ [(s.lane x).frameOut route (frameWords e.hdr e.args)] } ∧
      Touches [.hl, .vf, .ts, .cp, .fm] (fields [0x4001] [Reg.PM_STAT_STATE, Reg.HL_PART_STAT_OPS p, Reg.HL_PART_STAT_OUT p])
        (s.lane x) (t.lane x)) ∧
  (∀ (x : LaneId) (p i el : Nat) (e : Response) (s : State), (s.lane x).awake = true → (s.lane x).responseReady 1 = some (p, i, e) →
    (s.lane x).hostElem = some el →
    ∃ t, exec (.responseSend x 1) s = .next t ∧ OnlyLane x s t ∧
      ((t.lane x).elem .vehicle el).words = (((s.lane x).hostWords el).length + e.args.length + 2) ::
        ((s.lane x).hostWords el ++ frameWords e.hdr e.args) ∧ ((t.lane x).elem .vehicle el).fresh = true) ∧
  (∀ (x : LaneId) (route : Fin 3) (s : State), (s.lane x).awake = true → (s.lane x).responseReady route = none →
    ∃ t, exec (.responseSend x route) s = .next t ∧ OnlyLane x s t ∧ Touches [.fm] noRegs (s.lane x) (t.lane x)) ∧
  (∀ (x : LaneId) (route : Fin 3) (q : Report) (rest : List Report) (s : State), (s.lane x).awake = true →
    (s.lane x).responseReady route = none → spGet [] route.val (s.lane x).hl.reports = q :: rest →
    (s.lane x).canSend route (q.args.length + 2) = true →
    ∃ t, exec (.reportSend x route) s = .next t ∧ OnlyLane x s t ∧
      (t.lane x).hl = { (s.lane x).hl with
        reports := spSet [] route.val rest (s.lane x).hl.reports
        sent := (s.lane x).hl.sent ++ [(s.lane x).frameOut route (frameWords q.hdr q.args)] } ∧
      Touches [.hl, .vf, .ts, .cp, .fm] (fields [0x4001] [Reg.PM_STAT_STATE]) (s.lane x) (t.lane x)) ∧
  (∀ (x : LaneId) (route : Fin 3) (s : State), (s.lane x).awake = true →
    (s.lane x).responseReady route ≠ none ∨ spGet [] route.val (s.lane x).hl.reports = [] →
    ∃ t, exec (.reportSend x route) s = .next t ∧ OnlyLane x s t ∧ Touches [.fm] noRegs (s.lane x) (t.lane x)) ∧
  (∀ (x : LaneId) (s : State), (s.lane x).awake = true → (s.lane x).bit Reg.HL_STAT_SYNC = false →
    ∃ t, exec (.commandLinkSyncLoss x) s = .next t ∧ OnlyLane x s t ∧ Touches [.fm] noRegs (s.lane x) (t.lane x)) ∧
  (∀ (x : LaneId) (s : State), (s.lane x).awake = true → (s.lane x).bit Reg.HL_STAT_SYNC = true →
    ∃ t, exec (.commandLinkSyncLoss x) s = .next t ∧ OnlyLane x s t ∧ (t.lane x).routeUp 0 = false ∧ Raised 160 (s.lane x) (t.lane x) ∧
      ((s.lane x).bit (Reg.FM_REACT_B 160) = false → (t.lane x).get Reg.HL_STAT_SYNC = 0 ∧ (t.lane x).get Reg.HL_STAT_LINK = 0) ∧
      Touches (raiseParts 160) (raiseAnd 160 [Reg.HL_STAT_SYNC, Reg.HL_STAT_LINK]) (s.lane x) (t.lane x)) ∧
  (∀ (x : LaneId) (s : State), (s.lane x).awake = true →
    ∃ t, exec (.commandLinkInSync x) s = .next t ∧ OnlyLane x s t ∧ (t.lane x).bit Reg.HL_STAT_SYNC = true ∧
      Touches [.fm] (fields [] [Reg.HL_STAT_SYNC]) (s.lane x) (t.lane x)) ∧
  (∀ (x : LaneId) (s : State), (s.lane x).awake = true → (s.lane x).bit Reg.HL_STAT_SYNC = false ∨ (s.lane x).routeUp 0 = true →
    ∃ t, exec (.commandLinkUp x 0) s = .next t ∧ OnlyLane x s t ∧ Touches [.fm] noRegs (s.lane x) (t.lane x)) ∧
  (∀ (x : LaneId) (route : Fin 3) (s : State), (s.lane x).awake = true →
    route ≠ 0 ∨ ((s.lane x).bit Reg.HL_STAT_SYNC = true ∧ (s.lane x).routeUp 0 = false) →
    ∃ t, exec (.commandLinkUp x route) s = .next t ∧ OnlyLane x s t ∧ (t.lane x).routeUp route = true ∧
      (t.lane x).hl.sent = (s.lane x).hl.sent ++ [(s.lane x).frameOut route (frameWords (reportHdr (laneNum (s.lane x).me) 0x06
        ((s.lane x).linkWords route).length (spGet 0 route.val (s.lane x).hl.rseq)) ((s.lane x).linkWords route))] ∧
      bitAt (t.lane x).hl.fresh.toNat route = false ∧ (route = 0 → (t.lane x).bit Reg.HL_STAT_LINK = true) ∧
      Touches [.hl, .vf, .ts, .cp, .fm] (fields [0x4001] [Reg.PM_STAT_STATE, Reg.HL_STAT_LINK]) (s.lane x) (t.lane x)) ∧
  (∀ (x : LaneId) (s : State), (s.lane x).awake = true → (s.lane x).hl.canState ≠ .passive →
    ∃ t, exec (.canFdErrorStateChange x .passive) s = .next t ∧ OnlyLane x s t ∧
      ((s.lane x).bit (Reg.FM_REACT_B 164) = false → (t.lane x).hl.canState = .passive) ∧
      Raised 164 (s.lane x) (t.lane x) ∧ Touches (raiseParts 164) (raiseRegs 164) (s.lane x) (t.lane x)) ∧
  (∀ (x : LaneId) (s : State), (s.lane x).awake = true → (s.lane x).hl.canState ≠ .busOff →
    ∃ t, exec (.canFdErrorStateChange x .busOff) s = .next t ∧ OnlyLane x s t ∧
      ((s.lane x).bit (Reg.FM_REACT_B 165) = false → (t.lane x).hl.canState = .busOff) ∧
      Raised 165 (s.lane x) (t.lane x) ∧ Touches (raiseParts 165) (raiseRegs 165) (s.lane x) (t.lane x)) ∧
  (∀ (x : LaneId) (s : State), (s.lane x).awake = true → (s.lane x).hl.canState ≠ .active →
    ∃ t, exec (.canFdErrorStateChange x .active) s = .next t ∧ OnlyLane x s t ∧
      (t.lane x).hl = { (s.lane x).hl with canState := .active } ∧ Signalled 162 (s.lane x) (t.lane x) ∧
      Touches [.hl, .ts, .cp, .fm] (fields [0x4001] [Reg.PM_STAT_STATE]) (s.lane x) (t.lane x)) ∧
  (∀ (x : LaneId) (s : State), (s.lane x).awake = true →
    ∃ t, exec (.canFdErrorStateChange x (s.lane x).hl.canState) s = .next t ∧ OnlyLane x s t ∧
      Touches [.fm] noRegs (s.lane x) (t.lane x)) ∧
  (∀ (x : LaneId) (a : Await) (k : Tag) (T : Nat) (s : State), (s.lane x).awake = true → (s.lane x).hl.await = [a] → a.script = false →
    (s.lane x).md.fwAt = none → (s.lane x).relayDue = some T → awaitLost ((s.reach x T).lane x).now a = true →
    (s.lane x).hl.tags.find? (fun k => k.part = a.part && k.tag = a.tag) = some k →
    ∃ t, exec (.relayLost x) s = .next t ∧ OnlyLane x (s.reach x T) t ∧ (t.lane x).hl.await = [] ∧
      spGet [] a.part (t.lane x).hl.resp = spGet [] a.part (s.lane x).hl.resp ++
        [⟨k.route, respHdr (laneNum (s.lane x).me) a.op a.tag a.part (awaitAnswer a).1 (awaitAnswer a).2.length, (awaitAnswer a).2⟩] ∧
      Touches [.hl, .ts, .cp, .fm] (fields [0x4001] [Reg.PM_STAT_STATE]) ((s.reach x T).lane x) (t.lane x)) ∧
  (∀ (x : LaneId) (t0 : Nat) (s : State), (s.lane x).awake = true → (s.lane x).hl.await = [] → (s.lane x).md.fwAt = some t0 →
    t0 + 1200000 ≤ ((s.reach x (t0 + 1200000)).lane x).now →
    ∃ t, exec (.relayLost x) s = .next t ∧ OnlyLane x (s.reach x (t0 + 1200000)) t ∧ (t.lane x).md.fwAt = none ∧
      (t.lane x).get Reg.SYS_MODE_REQ_RESULT = 0x0A ∧ (t.lane x).get Reg.SYS_MODE_REQ_GO = 0 ∧
      Touches [.md, .fm] (fields [] [Reg.SYS_MODE_REQ_RESULT, Reg.SYS_MODE_REQ_GO]) ((s.reach x (t0 + 1200000)).lane x) (t.lane x)) ∧
  (∀ (via : FrameVia) (w : Nat) (args : List Word), w < 2 ^ 32 → args.length = w % 64 → args.length ≤ 62 → via.route = 2 → args.length ≤ 14 →
    readFrame via ((State.reset.lane .A).frameOut via.route (frameWords w (args.map (·.toNat)))).syms =
      some ((headerOf via w).1, (headerOf via w).2, args)) ∧
  (∀ (via : FrameVia) (w : Nat) (args : List Word), w < 2 ^ 32 → args.length = w % 64 → args.length ≤ 62 → via.route ≠ 2 →
    readFrame via (if via.route = 0 then .k27_7 :: (wordBytes (frameWords w (args.map (·.toNat)))).map Sym.data ++ [.k29_7]
      else (wordBytes (frameWords w (args.map (·.toNat)))).map Sym.data) = some ((headerOf via w).1, (headerOf via w).2, args)) ∧
  (∀ (x : LaneId) (k : Nat) (via : FrameVia) (syms : List Sym) (s : State), (s.lane x).awake = true → k < 18 →
    (s.lane x).frameReaches via syms = false → (s.lane x).cutFrame via = false →
    ∃ t, exec (ordCmd k x via syms) s = .next t ∧ OnlyLaneMem x s t ∧ t.memOf x = s.memOf x ∧ Touches [.fm] noRegs (s.lane x) (t.lane x)) ∧
  (∀ (x : LaneId) (k : Nat) (via : FrameVia) (syms : List Sym) (s : State), (s.lane x).awake = true → k < 18 →
    (s.lane x).frameReaches via syms = false → (s.lane x).cutFrame via = true →
    ∃ t, exec (ordCmd k x via syms) s = .next t ∧ OnlyLaneMem x s t ∧ t.memOf x = s.memOf x ∧ Raised 160 (s.lane x) (t.lane x) ∧
      (t.lane x).hl.tags = (s.lane x).hl.tags ∧
      Touches (raiseParts 160) (raiseAnd 160 [Reg.HL_CNT_FRAME_COUNT]) (s.lane x) (t.lane x)) ∧
  (∀ (x : LaneId) (k : Nat) (via : FrameVia) (syms : List Sym) (s : State), (s.lane x).awake = true → k < 18 →
    (s.lane x).frameReaches via syms = true → readFrame via syms = none →
    ∃ t, exec (ordCmd k x via syms) s = .next t ∧ OnlyLaneMem x s t ∧ t.memOf x = s.memOf x ∧ Raised 160 (s.lane x) (t.lane x) ∧
      (t.lane x).hl.tags = (s.lane x).hl.tags ∧
      Touches (raiseParts 160) (raiseAnd 160 [Reg.HL_CNT_FRAME_COUNT, Reg.HL_STAT_SYNC, Reg.HL_STAT_LINK]) (s.lane x) (t.lane x)) ∧
  (∀ (x : LaneId) (k op : Nat) (via : FrameVia) (syms : List Sym) (h : OrderHdr) (args : List Word) (s : State), (s.lane x).awake = true →
    k < 18 → (s.lane x).frameReaches via syms = true → readFrame via syms = some (op, h, args) → (s.lane x).refuseReason h ≠ 0 →
    ∃ t, exec (ordCmd k x via syms) s = .next t ∧ OnlyLaneMem x s t ∧ t.memOf x = s.memOf x ∧ Raised 161 (s.lane x) (t.lane x) ∧
      Touches (raiseParts 161) (raiseAnd 161 [Reg.HL_CNT_CREDIT_COUNT]) (s.lane x) (t.lane x)) ∧
  (∀ (x : LaneId) (k op c : Nat) (via : FrameVia) (syms : List Sym) (h : OrderHdr) (args : List Word) (s : State), k < 18 →
    Taken x op via syms h args s → c = (s.lane x).orderCode ((s.lane x).orderOf op h args) → c ≠ 0 → op ≠ 0x04 →
    ∃ t, exec (ordCmd k x via syms) s = .next t ∧ OnlyLaneMem x s t ∧ t.memOf x = s.memOf x ∧
      Answered op c [] h (s.lane x) (t.lane x) ∧ ((hostOrders.any fun o => decide (o.1 = op)) = false → c = 0x10) ∧
      Touches [.hl, .ts, .cp, .fm] (fields [0x4001] (orderFlds h)) (s.lane x) (t.lane x)) ∧
  (∀ (x : LaneId) (k c : Nat) (via : FrameVia) (syms : List Sym) (h : OrderHdr) (args : List Word) (s : State), k < 18 →
    Taken x 0x04 via syms h args s → c = (s.lane x).orderCode ((s.lane x).orderOf 0x04 h args) → c ≠ 0 →
    ∃ t, exec (ordCmd k x via syms) s = .next t ∧ OnlyLaneMem x s t ∧ t.memOf x = s.memOf x ∧
      Answered 0x04 c [] h (s.lane x) (t.lane x) ∧
      (t.lane x).get Reg.SYS_MODE_CNT_REFUSED = min 0xFFFF ((s.lane x).get Reg.SYS_MODE_CNT_REFUSED + b2n (s.lane x).isCommand) ∧
      Touches [.hl, .ts, .cp, .fm] (fields [0x4001] (Reg.SYS_MODE_CNT_REFUSED :: orderFlds h)) (s.lane x) (t.lane x))

/-- The steps of a running script (R622 to R624, Table 14.9). An ORDER step is served and its code kept; one that a check refuses with a code that the SKIP after it tests keeps that code, and with one that no SKIP tests raises source 162 and ends the script. A wait for a time
begins and ends; a wait for an operation begins, and ends with 0x00 where it completed, else with 0x0D, which ends the script where no SKIP tests it. SKIP passes over the steps it names when its code compares as it says; COMMIT passes the commit point; END ends the script.
An ORDER step where none is due changes nothing. -/
def Obligations.ScriptSteps : Prop :=
  (∀ (x : LaneId) (r : ScriptRun) (s : State), (s.lane x).awake = true → (s.lane x).atStep 0 = some r →
    ((s.lane x).stepOrder r).op = 0x01 → (s.lane x).orderCode ((s.lane x).stepOrder r) = 0 →
    ∃ t, exec (.scrOrder x) s = .next t ∧ OnlyLaneMem x s t ∧ t.memOf x = s.memOf x ∧
      (t.lane x).hl = { (s.lane x).hl with run := some { r with pc := r.pc + 2 + ((s.lane x).stepOrder r).narg, code := 0, op := none,
                                                                opDone := none } } ∧
      Touches [.hl, .fm] noRegs (s.lane x) (t.lane x)) ∧
  (∀ (x : LaneId) (r : ScriptRun) (s : State), (s.lane x).awake = true → (s.lane x).atStep 0 = some r →
    ((s.lane x).stepOrder r).op = 0x05 → (s.lane x).orderCode ((s.lane x).stepOrder r) = 0 → ((s.lane x).stepOrder r).scope = false →
    (s.lane x).toffCode = 0 → (s.lane x).stopping = false →
    ∃ t, exec (.scrOrder x) s = .next t ∧ OnlyLaneMem x s t ∧ t.memOf x = s.memOf x ∧ (t.lane x).bit Reg.SM_STAT_TOFF = true ∧
      (t.lane x).hl.run = some { r with pc := r.pc + 2 + ((s.lane x).stepOrder r).narg, code := 0, op := none, opDone := none }) ∧
  (∀ (x : LaneId) (r : ScriptRun) (c w : Nat) (s : State), (s.lane x).awake = true → (s.lane x).atStep 0 = some r →
    c = (s.lane x).orderCode ((s.lane x).stepOrder r) → c ≠ 0 →
    w = (s.lane x).scriptWord r (r.pc + 2 + ((s.lane x).stepOrder r).narg) → bitsOf w 31 28 = 3 → bitsOf w 23 16 = c →
    ∃ t, exec (.scrOrder x) s = .next t ∧ OnlyLaneMem x s t ∧ t.memOf x = s.memOf x ∧
      (t.lane x).hl = { (s.lane x).hl with run := some { r with pc := r.pc + 2 + ((s.lane x).stepOrder r).narg, code := c, op := none,
                                                                opDone := none } } ∧
      Touches [.hl, .fm] noRegs (s.lane x) (t.lane x)) ∧
  (∀ (x : LaneId) (r : ScriptRun) (c w : Nat) (s : State), (s.lane x).awake = true → (s.lane x).atStep 0 = some r →
    c = (s.lane x).orderCode ((s.lane x).stepOrder r) → c ≠ 0 →
    w = (s.lane x).scriptWord r (r.pc + 2 + ((s.lane x).stepOrder r).narg) → bitsOf w 31 28 ≠ 3 ∨ bitsOf w 23 16 ≠ c →
    ∃ t, exec (.scrOrder x) s = .next t ∧ OnlyLaneMem x s t ∧ t.memOf x = s.memOf x ∧ (t.lane x).hl.run = none ∧
      Raised 162 (s.lane x) (t.lane x)) ∧
  (∀ (x : LaneId) (r : ScriptRun) (s : State), (s.lane x).awake = true → (s.lane x).atStep 1 = some r →
    ∃ t, exec (.scrWaitTime x) s = .next t ∧ OnlyLane x s t ∧
      (t.lane x).hl = { (s.lane x).hl with
        run := some { r with waiting := some (false, (s.lane x).now + (s.lane x).scriptWord r r.pc % 2 ^ 20 * 100000) } } ∧
      Touches [.hl, .fm] noRegs (s.lane x) (t.lane x)) ∧
  (∀ (x : LaneId) (r : ScriptRun) (T : Nat) (s : State), (s.lane x).awake = true → (s.lane x).hl.run = some r →
    r.waiting = some (false, T) →
    ∃ t, exec (.scrWaitTimeEnd x) s = .next t ∧ OnlyLane x (s.reach x T) t ∧
      (t.lane x).hl = { (s.lane x).hl with run := some { r with pc := r.pc + 1, waiting := none } } ∧
      Touches [.hl, .fm] noRegs ((s.reach x T).lane x) (t.lane x)) ∧
  (∀ (x : LaneId) (r : ScriptRun) (s : State), (s.lane x).awake = true → (s.lane x).atStep 2 = some r →
    ∃ t, exec (.scrWaitOp x) s = .next t ∧ OnlyLane x s t ∧
      (t.lane x).hl = { (s.lane x).hl with
        run := some { r with waiting := some (true, (s.lane x).now + (s.lane x).scriptWord r r.pc % 2 ^ 20 * 100000) } } ∧
      Touches [.hl, .fm] noRegs (s.lane x) (t.lane x)) ∧
  (∀ (x : LaneId) (r : ScriptRun) (T : Nat) (s : State), (s.lane x).awake = true → (s.lane x).hl.run = some r →
    r.waiting = some (true, T) → r.opDone = some true →
    ∃ t, exec (.scrWaitOpEnd x) s = .next t ∧ OnlyLane x (s.reach x (s.lane x).now) t ∧
      (t.lane x).hl = { (s.lane x).hl with run := some { r with pc := r.pc + 1, waiting := none, code := 0 } } ∧
      Touches [.hl, .fm] noRegs ((s.reach x (s.lane x).now).lane x) (t.lane x)) ∧
  (∀ (x : LaneId) (r : ScriptRun) (T w : Nat) (s : State), (s.lane x).awake = true → (s.lane x).hl.run = some r →
    (s.lane x).opDue = some T → r.opDone ≠ some true → w = (s.lane x).scriptWord r (r.pc + 1) → bitsOf w 31 28 = 3 → bitsOf w 23 16 = 0x0D →
    ∃ t, exec (.scrWaitOpEnd x) s = .next t ∧ OnlyLane x (s.reach x T) t ∧
      (t.lane x).hl = { (s.lane x).hl with run := some { r with pc := r.pc + 1, waiting := none, code := 0x0D } } ∧
      Touches [.hl, .fm] noRegs ((s.reach x T).lane x) (t.lane x)) ∧
  (∀ (x : LaneId) (r : ScriptRun) (T w : Nat) (s : State), (s.lane x).awake = true → (s.lane x).hl.run = some r →
    (s.lane x).opDue = some T → r.opDone ≠ some true → w = (s.lane x).scriptWord r (r.pc + 1) → bitsOf w 31 28 ≠ 3 ∨ bitsOf w 23 16 ≠ 0x0D →
    ∃ t, exec (.scrWaitOpEnd x) s = .next t ∧ OnlyLane x (s.reach x T) t ∧ (t.lane x).hl.run = none ∧
      Raised 162 ((s.reach x T).lane x) (t.lane x)) ∧
  (∀ (x : LaneId) (r : ScriptRun) (w next : Nat) (s : State), (s.lane x).awake = true → (s.lane x).atStep 3 = some r →
    w = (s.lane x).scriptWord r r.pc →
    next = (if r.code = bitsOf w 23 16 ↔ bitAt w 24 = false then (s.lane x).afterSteps r (r.pc + 1) (w % 2 ^ 8) else r.pc + 1) →
    ∃ t, exec (.scrSkip x) s = .next t ∧ OnlyLane x s t ∧
      (t.lane x).hl = { (s.lane x).hl with run := some { r with pc := next } } ∧
      Touches [.hl, .fm] noRegs (s.lane x) (t.lane x)) ∧
  (∀ (x : LaneId) (r : ScriptRun) (s : State), (s.lane x).awake = true → (s.lane x).atStep 4 = some r →
    ∃ t, exec (.scrCommit x) s = .next t ∧ OnlyLane x s t ∧
      (t.lane x).hl = { (s.lane x).hl with
        run := some { r with pc := r.pc + 1, committed := true }
        ops := (s.lane x).hl.ops.map fun o => if o.id = r.opid then { o with committed := true } else o } ∧
      Touches [.hl, .fm] noRegs (s.lane x) (t.lane x)) ∧
  (∀ (x : LaneId) (r : ScriptRun) (s : State), (s.lane x).awake = true → (s.lane x).atStep 5 = some r →
    ∃ t, exec (.scrEnd x) s = .next t ∧ OnlyLane x s t ∧ (t.lane x).hl.run = none ∧ (t.lane x).get Reg.HL_STAT_SCR_RUN = 0 ∧
      (∀ o, o ∈ (t.lane x).hl.ops → o.id ≠ r.opid) ∧
      Touches [.free, .hl, .ts, .cp, .fm] (fields [0x4001, 0x4011] [Reg.PM_STAT_STATE]) (s.lane x) (t.lane x)) ∧
  (∀ (x : LaneId) (s : State), (s.lane x).awake = true → (s.lane x).atStep 0 = none →
    ∃ t, exec (.scrOrder x) s = .next t ∧ OnlyLaneMem x s t ∧ t.memOf x = s.memOf x ∧ Touches [.fm] noRegs (s.lane x) (t.lane x))

/-! ### Power, temperature, self-test, records (15_power_thermal_test.md) and the bus (00_scope.md) -/

/-- Power states (R12, R628 to R639). A request above OFF answers 0x11; SLEEP, DEEP or OFF outside PARK answers 0x0B and raises source 2; RUN or IDLE sets IDLE_EN, and recalls an entry in progress to another state; one for the state being entered joins it;
one for another state is queued; else an entry begins. An abort point is passed where its guards hold, waits where it must, or abandons the entry: AP1 asks the pair for a checkpoint, AP2 waits for it and for the slice under test, AP3 latches the pads and for OFF commits the records, AP4 ends its operations.
The domain switches off after the report or 5 ms, with STATE entered: a pending wake leaves it at once, a deeper queued request goes on from AP2. A wake that acts is noted during an entry and starts the exit from a low-power state; another changes nothing.
An exit from SLEEP goes on in stage 2 of the rejoin, one from DEEP or OFF in BOOT with SRAM 0; a pad release lets the balls go. -/
def Obligations.PowerStates : Prop :=
  (∀ (x : LaneId) (target : Fin 8) (s : State), (s.lane x).up = true → 2 ≤ target.val → target.val ≤ 4 → (s.lane x).mode = 7 →
    (s.lane x).bit Reg.PM_STAT_ENTERING = false → (s.lane x).bit Reg.PM_STAT_EXITING = false →
    ∃ t, exec (.pmReqGo x target) s = .next t ∧ OnlyLane x s t ∧ (t.lane x).get Reg.PM_REQ_RESULT = 0 ∧
      (t.lane x).bit Reg.PM_STAT_ENTERING = true ∧ (t.lane x).get Reg.PM_STAT_TARGET = target ∧
      (t.lane x).pm = { (s.lane x).pm with ops := [], passed := 0, wakes := 0, abort := false, recalledBy := false } ∧
      Touches [.pm, .fm] (fields [] [Reg.PM_REQ_TARGET, Reg.PM_REQ_RESULT, Reg.PM_STAT_TARGET, Reg.PM_STAT_ENTERING])
        (s.lane x) (t.lane x)) ∧
  (∀ (x : LaneId) (target : Fin 8) (s : State), (s.lane x).up = true → 4 < target.val →
    ∃ t, exec (.pmReqGo x target) s = .next t ∧ OnlyLane x s t ∧ (t.lane x).get Reg.PM_REQ_RESULT = 0x11 ∧
      Touches [.fm] (fields [] [Reg.PM_REQ_TARGET, Reg.PM_REQ_RESULT]) (s.lane x) (t.lane x)) ∧
  (∀ (x : LaneId) (target : Fin 8) (s : State), (s.lane x).up = true → 2 ≤ target.val → target.val ≤ 4 → (s.lane x).mode ≠ 7 →
    ∃ t, exec (.pmReqGo x target) s = .next t ∧ OnlyLane x s t ∧ (t.lane x).get Reg.PM_REQ_RESULT = 0x0B ∧
      Raised 2 (s.lane x) (t.lane x) ∧
      Touches (raiseParts 2) (raiseAnd 2 [Reg.PM_REQ_TARGET, Reg.PM_REQ_RESULT]) (s.lane x) (t.lane x)) ∧
  (∀ (x : LaneId) (target : Fin 8) (s : State), (s.lane x).up = true → target.val ≤ 1 → (s.lane x).bit Reg.PM_STAT_ENTERING = false →
    (s.lane x).bit Reg.PM_STAT_EXITING = false ∨ target.val = 0 →
    ∃ t, exec (.pmReqGo x target) s = .next t ∧ OnlyLane x s t ∧ (t.lane x).get Reg.PM_REQ_RESULT = 0 ∧
      (t.lane x).get Reg.PM_CFG_IDLE_EN = target ∧
      Touches [.fm] (fields [] [Reg.PM_REQ_TARGET, Reg.PM_REQ_RESULT, Reg.PM_CFG_IDLE_EN]) (s.lane x) (t.lane x)) ∧
  (∀ (x : LaneId) (target : Fin 8) (s : State), (s.lane x).up = true → target.val ≤ 1 → (s.lane x).bit Reg.PM_STAT_ENTERING = true →
    target.val ≠ (s.lane x).get Reg.PM_STAT_TARGET →
    ∃ t, exec (.pmReqGo x target) s = .next t ∧ OnlyLane x s t ∧ (t.lane x).get Reg.PM_REQ_RESULT = 0 ∧
      (t.lane x).get Reg.PM_CFG_IDLE_EN = target ∧ (t.lane x).pm = { (s.lane x).pm with recalledBy := true } ∧
      Touches [.pm, .fm] (fields [] [Reg.PM_REQ_TARGET, Reg.PM_REQ_RESULT, Reg.PM_CFG_IDLE_EN]) (s.lane x) (t.lane x)) ∧
  (∀ (x : LaneId) (target : Fin 8) (s : State), (s.lane x).up = true → (s.lane x).bit Reg.PM_STAT_ENTERING = true →
    target.val = (s.lane x).get Reg.PM_STAT_TARGET → target.val ≤ 4 → (s.lane x).mode = 7 ∨ target.val ≤ 1 →
    ∃ t, exec (.pmReqGo x target) s = .next t ∧ OnlyLane x s t ∧ (t.lane x).get Reg.PM_REQ_RESULT = 0 ∧
      Touches [.fm] (fields [] [Reg.PM_REQ_TARGET, Reg.PM_REQ_RESULT]) (s.lane x) (t.lane x)) ∧
  (∀ (x : LaneId) (target : Fin 8) (s : State), (s.lane x).up = true → 2 ≤ target.val → target.val ≤ 4 → (s.lane x).mode = 7 →
    ((s.lane x).bit Reg.PM_STAT_ENTERING = true ∧ target.val ≠ (s.lane x).get Reg.PM_STAT_TARGET) ∨
      ((s.lane x).bit Reg.PM_STAT_ENTERING = false ∧ (s.lane x).bit Reg.PM_STAT_EXITING = true) →
    ∃ t, exec (.pmReqGo x target) s = .next t ∧ OnlyLane x s t ∧ (t.lane x).get Reg.PM_REQ_RESULT = 0 ∧
      (t.lane x).bit Reg.PM_STAT_QVALID = true ∧ (t.lane x).get Reg.PM_STAT_QUEUED = target ∧
      (t.lane x).pm = { (s.lane x).pm with qop := none } ∧ (∀ o, o ∈ (t.lane x).hl.ops → some o.id ≠ (s.lane x).pm.qop) ∧
      Touches [.free, .pm, .hl, .ts, .cp, .fm] (fields [0x4001, 0x4011] [Reg.PM_REQ_TARGET, Reg.PM_REQ_RESULT, Reg.PM_STAT_STATE,
        Reg.PM_STAT_QVALID, Reg.PM_STAT_QUEUED]) (s.lane x) (t.lane x)) ∧
  (∀ (x : LaneId) (s : State), (s.lane x).awake = true → (s.lane x).bit Reg.PM_STAT_ENTERING = true → (s.lane x).pm.passed = 0 →
    (s.lane x).recalled = false → (s.lane x).mode = 7 → (∀ b, b < 2 → (s.lane x).get (Reg.FC_BR_STAT_STATE b) = 0) →
    (s.lane x).stopping = false →
    ∃ t, exec (.entryAbortPoint x) s = .next t ∧ OnlyLane x s t ∧ (t.lane x).pm = { (s.lane x).pm with passed := 1 } ∧
      (t.lane x).cp = { (s.lane x).cp with pmReq := true } ∧ Touches [.pm, .cp, .fm] noRegs (s.lane x) (t.lane x)) ∧
  (∀ (x : LaneId) (s : State), (s.lane x).awake = true → (s.lane x).bit Reg.PM_STAT_ENTERING = true → (s.lane x).pm.passed = 1 →
    (s.lane x).recalled = false → (s.lane x).mode = 7 → (s.lane x).st.slice = false →
    (s.lane x).cp.pmReq = false ∨ ((s.lane x).lockstep = false ∨ (s.lane x).cp.wfi = true) →
    ∃ t, exec (.entryAbortPoint x) s = .next t ∧ OnlyLane x s t ∧ (t.lane x).pm = { (s.lane x).pm with passed := 2 } ∧
      (t.lane x).cp = { (s.lane x).cp with pmReq := false } ∧ Touches [.pm, .cp, .fm] noRegs (s.lane x) (t.lane x)) ∧
  (∀ (x : LaneId) (b : Nat) (s : State), (s.lane x).awake = true → (s.lane x).bit Reg.PM_STAT_ENTERING = true →
    (s.lane x).pm.passed = 2 → (s.lane x).recalled = false → (s.lane x).mode = 7 → (s.lane x).get Reg.PM_STAT_TARGET ≠ 4 → b < 2 →
    ∃ t, exec (.entryAbortPoint x) s = .next t ∧ OnlyLane x s t ∧ (t.lane x).get (Reg.FC_BR_STAT_STATE b) = 0 ∧
      (t.lane x).pm = { (s.lane x).pm with passed := 3, pads := (s.lane x).padLevels ((s.lane x).get Reg.PM_STAT_TARGET) } ∧
      (t.lane x).bit Reg.PM_STAT_PADHOLD = true ∧
      Touches (.pm :: .fm :: stopParts) (fields [0x4001] (Reg.PM_STAT_PADHOLD :: stopFlds)) (s.lane x) (t.lane x)) ∧
  (∀ (x : LaneId) (b : Nat) (s : State), (s.lane x).awake = true → (s.lane x).bit Reg.PM_STAT_ENTERING = true →
    (s.lane x).pm.passed = 2 → (s.lane x).recalled = false → (s.lane x).mode = 7 → (s.lane x).get Reg.PM_STAT_TARGET = 4 →
    (s.lane x).nvOpen = true → b < 2 →
    ∃ t, exec (.entryAbortPoint x) s = .next t ∧ OnlyLane x s t ∧ (t.lane x).get (Reg.FC_BR_STAT_STATE b) = 0 ∧
      (t.lane x).pm = { (s.lane x).pm with passed := 3, pads := (s.lane x).padLevels 4 } ∧
      (t.lane x).bit Reg.PM_STAT_PADHOLD = true ∧ (t.lane x).recordBusy 5 = true ∧ (t.lane x).recordBusy 6 = true ∧
      ((s.lane x).bit Reg.TM_SHUT_PEND = true → (t.lane x).recordBusy 4 = true) ∧
      ((s.lane x).rs.writing = none ∧ (s.lane x).rs.pend = [] → (t.lane x).rs.writing.map (·.slot) = some 5 ∧
        (t.lane x).rsPend 6 = some ⟨(s.lane x).recImage 1, none⟩) ∧
      Touches (.rs :: .pm :: .fm :: stopParts) (fields [0x4001, 0x4010] (Reg.PM_STAT_PADHOLD :: stopFlds)) (s.lane x) (t.lane x)) ∧
  (∀ (x : LaneId) (s : State), (s.lane x).awake = true → (s.lane x).bit Reg.PM_STAT_ENTERING = true →
    (s.lane x).recalled = false → (s.lane x).mode = 7 → (s.lane x).get Reg.PM_STAT_TARGET = 4 →
    ((s.lane x).pm.passed = 2 ∧ (s.lane x).nvOpen = false) ∨
      ((s.lane x).pm.passed = 3 ∧ ([4, 5, 6].any (s.lane x).recordBusy) = true) →
    ∃ t, exec (.entryAbortPoint x) s = .next t ∧ OnlyLane x s t ∧ Touches [.fm] noRegs (s.lane x) (t.lane x)) ∧
  (∀ (x : LaneId) (s : State), (s.lane x).awake = true → (s.lane x).bit Reg.PM_STAT_ENTERING = true → (s.lane x).pm.passed = 3 →
    (s.lane x).recalled = false → (s.lane x).mode = 7 →
    (s.lane x).get Reg.PM_STAT_TARGET ≠ 4 ∨ ([4, 5, 6].any (s.lane x).recordBusy) = false →
    ∃ t, exec (.entryAbortPoint x) s = .next t ∧ OnlyLane x s t ∧
      (t.lane x).pm = { (s.lane x).pm with passed := 4, ap4At := (s.lane x).now } ∧
      (∀ o, o ∈ (t.lane x).hl.ops → o.id ∉ (s.lane x).pm.ops) ∧
      Touches [.free, .pm, .hl, .ts, .cp, .fm] (fields [0x4001, 0x4011] [Reg.PM_STAT_STATE]) (s.lane x) (t.lane x)) ∧
  (∀ (x : LaneId) (s : State), (s.lane x).awake = true → (s.lane x).bit Reg.PM_STAT_ENTERING = true → (s.lane x).pm.passed < 4 →
    (s.lane x).get Reg.PM_STAT_TARGET ≠ 4 ∨ (s.lane x).pm.passed ≠ 3 → (s.lane x).recalled = true ∨ (s.lane x).mode ≠ 7 ∨
      ((s.lane x).pm.passed = 0 ∧ ((s.lane x).stopping = true ∨ ((s.lane x).get (Reg.FC_BR_STAT_STATE 0) ≠ 0 ∨
        (s.lane x).get (Reg.FC_BR_STAT_STATE 1) ≠ 0))) →
    ∃ t, exec (.entryAbortPoint x) s = .next t ∧ OnlyLane x s t ∧ (t.lane x).get Reg.PM_STAT_ABANDON = (s.lane x).pm.passed + 1 ∧
      (t.lane x).get Reg.PM_STAT_WAKE = (s.lane x).pm.wakes % 2 ^ 6 ∧ (∀ o, o ∈ (t.lane x).hl.ops → o.id ∉ (s.lane x).pm.ops) ∧
      (t.lane x).pm.pads = (if (s.lane x).pm.passed = 3 then [] else (s.lane x).pm.pads) ∧
      ((s.lane x).bit Reg.PM_STAT_QVALID = false → (t.lane x).bit Reg.PM_STAT_ENTERING = false ∧ (t.lane x).pm.passed = 0) ∧
      Touches [.free, .pm, .hl, .ts, .cp, .fm] (fields [0x4001, 0x4011] [Reg.PM_STAT_STATE, Reg.PM_STAT_TARGET, Reg.PM_STAT_ENTERING,
        Reg.PM_STAT_EXITING, Reg.PM_STAT_QVALID, Reg.PM_STAT_QUEUED, Reg.PM_STAT_ABANDON, Reg.PM_STAT_WAKE, Reg.PM_STAT_PADHOLD,
        Reg.PM_CFG_IDLE_EN]) (s.lane x) (t.lane x)) ∧
  (∀ (x : LaneId) (s : State), (s.lane x).awake = true → (s.lane x).bit Reg.PM_STAT_ENTERING = true → (s.lane x).pm.passed = 3 →
    (s.lane x).get Reg.PM_STAT_TARGET = 4 → (s.lane x).recalled = true ∨ (s.lane x).mode ≠ 7 → (s.lane x).nvOpen = true →
    ∃ t, exec (.entryAbortPoint x) s = .next t ∧ OnlyLane x s t ∧ (t.lane x).get Reg.PM_STAT_ABANDON = 4 ∧
      (t.lane x).pm.pads = [] ∧ (t.lane x).recordBusy 5 = true ∧ (t.lane x).recordBusy 6 = true ∧
      ((s.lane x).bit Reg.PM_STAT_QVALID = false → (t.lane x).bit Reg.PM_STAT_ENTERING = false ∧ (t.lane x).pm.passed = 0) ∧
      Touches [.free, .pm, .rs, .hl, .ts, .cp, .fm] (fields [0x4001, 0x4010, 0x4011] [Reg.PM_STAT_STATE, Reg.PM_STAT_TARGET,
        Reg.PM_STAT_ENTERING, Reg.PM_STAT_EXITING, Reg.PM_STAT_QVALID, Reg.PM_STAT_QUEUED, Reg.PM_STAT_ABANDON, Reg.PM_STAT_WAKE,
        Reg.PM_STAT_PADHOLD, Reg.PM_CFG_IDLE_EN]) (s.lane x) (t.lane x)) ∧
  (∀ (x : LaneId) (s : State), (s.lane x).awake = true → (s.lane x).bit Reg.PM_STAT_ENTERING = false ∨ 4 ≤ (s.lane x).pm.passed →
    ∃ t, exec (.entryAbortPoint x) s = .next t ∧ OnlyLane x s t ∧ Touches [.fm] noRegs (s.lane x) (t.lane x)) ∧
  (∀ (x : LaneId) (target T : Nat) (s : State), (s.lane x).awake = true → (s.lane x).bit Reg.PM_STAT_ENTERING = true →
    (s.lane x).pm.passed = 4 → target = (s.lane x).get Reg.PM_STAT_TARGET → 2 ≤ target → target ≤ 4 →
    T = (if (s.lane x).pm.ops.any (s.lane x).reportQueued then (s.lane x).pm.ap4At + 500000 else (s.lane x).now) →
    ((s.lane x).pm.wakes ≠ 0 ∨ (s.lane x).pm.recalledBy = true) ∨ (target ≠ 2 ∨ (s.lane x).get Reg.PM_STAT_QUEUED ≤ 2) →
    ∃ t, exec (.domainSwitchOff x) s = .next t ∧ OnlyLane x (s.reach x T) t ∧ (t.lane x).get Reg.PM_STAT_STATE = target ∧
      (t.lane x).bit Reg.PM_STAT_ENTERING = false ∧ (t.lane x).get Reg.PM_STAT_TARGET = 0 ∧
      (t.lane x).run = (if target = 2 then .sleep else if target = 3 then .deep else .off) ∧
      (t.lane x).pm = { (s.lane x).pm with ops := [], passed := 0, enteredAt := (t.lane x).now, recalledBy := false } ∧
      ((s.lane x).bit Reg.PM_STAT_EXITING = false → ((t.lane x).bit Reg.PM_STAT_EXITING = true ↔
        ((s.lane x).pm.wakes ≠ 0 ∨ (s.lane x).pm.recalledBy = true))) ∧
      Touches [.run, .pm, .fm] (fields [] [Reg.PM_STAT_STATE, Reg.PM_STAT_ENTERING, Reg.PM_STAT_TARGET, Reg.PM_STAT_EXITING])
        ((s.reach x T).lane x) (t.lane x)) ∧
  (∀ (x : LaneId) (T : Nat) (s : State), (s.lane x).awake = true → (s.lane x).bit Reg.PM_STAT_ENTERING = true →
    (s.lane x).pm.passed = 4 → (s.lane x).get Reg.PM_STAT_TARGET = 2 → (s.lane x).pm.wakes = 0 → (s.lane x).pm.recalledBy = false →
    (s.lane x).bit Reg.PM_STAT_QVALID = true → 2 < (s.lane x).get Reg.PM_STAT_QUEUED →
    T = (if (s.lane x).pm.ops.any (s.lane x).reportQueued then (s.lane x).pm.ap4At + 500000 else (s.lane x).now) →
    ∃ t, exec (.domainSwitchOff x) s = .next t ∧ OnlyLane x (s.reach x T) t ∧ (t.lane x).get Reg.PM_STAT_STATE = 2 ∧
      (t.lane x).run = .sleep ∧ (t.lane x).bit Reg.PM_STAT_ENTERING = true ∧
      (t.lane x).get Reg.PM_STAT_TARGET = (s.lane x).get Reg.PM_STAT_QUEUED ∧ (t.lane x).pm.passed = 2 ∧
      (t.lane x).pm.ops = (s.lane x).pm.qop.toList ∧ (t.lane x).bit Reg.PM_STAT_QVALID = false ∧
      Touches [.run, .pm, .fm] (fields [] [Reg.PM_STAT_STATE, Reg.PM_STAT_ENTERING, Reg.PM_STAT_TARGET, Reg.PM_STAT_QVALID,
        Reg.PM_STAT_QUEUED]) ((s.reach x T).lane x) (t.lane x)) ∧
  (∀ (x : LaneId) (s : State), (s.lane x).awake = true → (s.lane x).bit Reg.PM_STAT_ENTERING = false ∨ (s.lane x).pm.passed ≠ 4 →
    ∃ t, exec (.domainSwitchOff x) s = .next t ∧ t = s) ∧
  (∀ (x : LaneId) (src : Fin 6) (k : Nat) (s : State), (s.lane x).lowState = some k → (s.lane x).wakeActs k src = true →
    (s.lane x).bit Reg.PM_STAT_ENTERING = false → (s.lane x).bit Reg.PM_STAT_EXITING = false →
    ∃ t, exec (.wake x src) s = .next t ∧ OnlyLane x s t ∧ (t.lane x).bit Reg.PM_STAT_EXITING = true ∧
      (t.lane x).pm = { (s.lane x).pm with wakes := setBit (s.lane x).pm.wakes src } ∧
      Touches [.pm, .fm] (fields [] [Reg.PM_STAT_EXITING, Reg.PM_STAT_TARGET]) (s.lane x) (t.lane x)) ∧
  (∀ (x : LaneId) (src : Fin 6) (s : State), (s.lane x).awake = true → (s.lane x).bit Reg.PM_STAT_ENTERING = true →
    ∃ t, exec (.wake x src) s = .next t ∧ OnlyLane x s t ∧
      (t.lane x).pm = (if (s.lane x).wakeActs ((s.lane x).get Reg.PM_STAT_TARGET) src then
        { (s.lane x).pm with wakes := setBit (s.lane x).pm.wakes src } else (s.lane x).pm) ∧
      Touches [.pm, .fm] noRegs (s.lane x) (t.lane x)) ∧
  (∀ (x : LaneId) (src : Fin 6) (s : State), (s.lane x).awake = false ∨ (s.lane x).bit Reg.PM_STAT_ENTERING = false →
    (s.lane x).bit Reg.PM_STAT_EXITING = true ∨ ((s.lane x).lowState.all fun k => !(s.lane x).wakeActs k src) = true →
    ∃ t, exec (.wake x src) s = .next t ∧ OnlyLane x s t ∧ Touches [.fm] noRegs (s.lane x) (t.lane x)) ∧
  (∀ (x : LaneId) (k T : Nat) (s : State), (s.lane x).lowState = some k → (s.lane x).wakeActs k 3 = true →
    (s.lane x).bit Reg.PM_STAT_ENTERING = false → (s.lane x).bit Reg.PM_STAT_EXITING = false →
    (s.lane x).get Reg.PM_WAKE_TIME_MS ≠ 0 → T = (s.lane x).pm.enteredAt + (s.lane x).get Reg.PM_WAKE_TIME_MS * 100000 →
    ∃ t, exec (.wakeTimer x) s = .next t ∧ OnlyLane x (s.reach x T) t ∧ (t.lane x).bit Reg.PM_STAT_EXITING = true ∧
      (t.lane x).pm = { (s.lane x).pm with wakes := setBit (s.lane x).pm.wakes 3 } ∧
      Touches [.pm, .fm] (fields [] [Reg.PM_STAT_EXITING, Reg.PM_STAT_TARGET]) ((s.reach x T).lane x) (t.lane x)) ∧
  (∀ (x : LaneId) (s : State), (s.lane x).lowState = none ∨ (s.lane x).get Reg.PM_WAKE_TIME_MS = 0 →
    ∃ t, exec (.wakeTimer x) s = .next t ∧ t = s) ∧
  (∀ (x : LaneId) (s : State), (s.lane x).bit Reg.PM_STAT_EXITING = true → (s.lane x).run = .sleep →
    ∃ t, exec (.exitComplete x) s = .next t ∧ OnlyLane x s t ∧ (t.lane x).run = .on ∧ (t.lane x).get Reg.PM_STAT_STATE = 0 ∧
      (t.lane x).bit Reg.PM_STAT_EXITING = false ∧ (t.lane x).get Reg.PM_STAT_WAKE = (s.lane x).pm.wakes % 2 ^ 6 ∧
      (t.lane x).pm.wakes = 0 ∧ (t.lane x).get Reg.XF_REJOIN_STAGE = 2 ∧ (t.lane x).mode = (s.lane x).mode ∧
      (t.lane x).bit Reg.XF_VSTAT_IN_STEP = false ∧ (t.lane x).bit Reg.XF_VSTAT_SELF_CMD = false ∧
      Touches [.run, .free, .md, .cp, .ts, .xf, .vf, .tb, .pm, .hl, .fm] (fields [0x4001, 0x4008, 0x4009, 0x400A, 0x4011]
        [Reg.PM_STAT_STATE, Reg.PM_STAT_TARGET, Reg.PM_STAT_ENTERING, Reg.PM_STAT_EXITING, Reg.PM_STAT_QVALID, Reg.PM_STAT_QUEUED,
         Reg.PM_STAT_WAKE, Reg.PM_CFG_IDLE_EN, Reg.SYS_MODE_PENDING, Reg.SYS_MODE_PEND_TARGET]) (s.lane x) (t.lane x)) ∧
  (∀ (x : LaneId) (s : State), (s.lane x).bit Reg.PM_STAT_EXITING = true → (s.lane x).run = .deep ∨ (s.lane x).run = .off →
    ∃ t, exec (.exitComplete x) s = .next t ∧ OnlyLaneMem x s t ∧ (t.lane x).mode = 0 ∧
      (t.lane x).get Reg.PM_STAT_WAKE = (s.lane x).pm.wakes % 2 ^ 6 ∧
      ((s.lane x).run = .off → (t.lane x).pm.pads = (s.lane x).pm.pads ∧
        (t.lane x).get Reg.PM_STAT_PADHOLD = (s.lane x).get Reg.PM_STAT_PADHOLD) ∧
      ∀ a, 0x20000000 ≤ a → a ≤ 0x207FFFFF → (t.memOf x).byte a = 0) ∧
  (∀ (x : LaneId) (s : State), (s.lane x).bit Reg.PM_STAT_EXITING = false →
    ∃ t, exec (.exitComplete x) s = .next t ∧ t = s) ∧
  (∀ (x : LaneId) (s : State), (s.lane x).up = true →
    ∃ t, exec (.padRelease x) s = .next t ∧ OnlyLane x s t ∧ (t.lane x).get Reg.PM_STAT_PADHOLD = 0 ∧
      (t.lane x).pm = { (s.lane x).pm with pads := [] } ∧ Touches [.pm, .fm] (fields [] [Reg.PM_STAT_PADHOLD]) (s.lane x) (t.lane x)) ∧
  (∀ (x : LaneId) (s : State), (s.lane x).awake = true → (s.lane x).bit Reg.PM_STAT_ENTERING = true → (s.lane x).pm.passed = 1 →
    (s.lane x).recalled = false → (s.lane x).mode = 7 →
    (s.lane x).st.slice = true ∨ ((s.lane x).cp.pmReq = true ∧ ((s.lane x).lockstep = true ∧ (s.lane x).cp.wfi = false)) →
    ∃ t, exec (.entryAbortPoint x) s = .next t ∧ OnlyLane x s t ∧ Touches [.fm] noRegs (s.lane x) (t.lane x))

/-- Temperature and records (R642 to R645, R649 to R651, R659 to R664). A sample shows each sensor's reading: a lane that must shut down is held in lane reset, one so held starts BOOT at or below 140 °C, and in DEEP or held nothing else follows. The NV window opens once its conditions
have held for 100 ms; a throttle pause ends. A record write refused changes nothing but RS_CMD; accepted it begins where the window is open and RS is free, and else waits, with source 146 where the window is closed. An abort ends the write that waits or runs with its operation, or answers 0x0C.
A read-back that passes commits the record to its bank and ends its operation; the first failure repeats the write, the second ends it and raises source 156. -/
def Obligations.TemperatureAndRecords : Prop :=
  (∀ (x : LaneId) (codes : List (BitVec 12)) (i T : Nat) (M : Lane) (s : State), (s.lane x).run = .on ∨ (s.lane x).run = .sleep →
    (s.lane x).tmDue = some T → i < 8 → codes.length = 8 →
    M = (((s.reach x T).lane x).noteHeld.sample codes).thermalWarning.thermalLevel.thermalCutoff.raiseCore →
    M.mustShut = false →
    ∃ t, exec (.tmSample x codes) s = .next t ∧ OnlyLane x (s.reach x T) t ∧ (t.lane x).get (Reg.TM_SENS_TEMP i) = (codes.getD i 0).toNat ∧
      (t.lane x).bit (Reg.TM_SENS_VALID i) = true ∧ (t.lane x).tm.sampledAt = some ((s.reach x T).lane x).now ∧
      (t.lane x).bit Reg.TM_STAT_WARN = decide (1080 ≤ (t.lane x).tm.tj) ∧
      Touches (.tm :: .pm :: .rs :: raiseParts 142) (fun k => raiseRegs 142 k || fields [0x400E, 0x4010] [] k)
        ((s.reach x T).lane x) (t.lane x)) ∧
  (∀ (x : LaneId) (codes : List (BitVec 12)) (T : Nat) (M : Lane) (s : State), (s.lane x).run = .on ∨ (s.lane x).run = .sleep →
    (s.lane x).tmDue = some T →
    M = (((s.reach x T).lane x).noteHeld.sample codes).thermalWarning.thermalLevel.thermalCutoff.raiseCore → M.mustShut = true →
    ∃ t, exec (.tmSample x codes) s = .next t ∧ OnlyLaneMem x (s.reach x T) t ∧ (t.lane x).run = .held ∧ (t.lane x).mode = 0 ∧
      (t.lane x).tm.hold = true ∧ (t.lane x).bit Reg.TM_SHUT_PEND = true) ∧
  (∀ (x : LaneId) (codes : List (BitVec 12)) (T : Nat) (M : Lane) (s : State), (s.lane x).run = .held → (s.lane x).tmDue = some T →
    M = ((s.reach x T).lane x).noteHeld.sample codes → M.tm.hold = true → M.tm.tj ≤ 1120 → M.pins.crystal = true →
    ∃ t, exec (.tmSample x codes) s = .next t ∧ OnlyLaneMem x (s.reach x T) t ∧ (t.lane x).run = .on ∧ (t.lane x).mode = 0 ∧
      (t.lane x).tm.hold = false) ∧
  (∀ (x : LaneId) (codes : List (BitVec 12)) (i T : Nat) (M : Lane) (s : State), (s.lane x).run = .deep ∨ (s.lane x).run = .held →
    (s.lane x).tmDue = some T → i < 8 → codes.length = 8 → M = ((s.reach x T).lane x).noteHeld.sample codes →
    (s.lane x).run = .deep ∨ (M.tm.hold = false ∨ (1120 < M.tm.tj ∨ M.pins.crystal = false)) →
    ∃ t, exec (.tmSample x codes) s = .next t ∧ OnlyLane x (s.reach x T) t ∧ (t.lane x).get (Reg.TM_SENS_TEMP i) = (codes.getD i 0).toNat ∧
      (t.lane x).bit (Reg.TM_SENS_VALID i) = true ∧ (t.lane x).tm.sampledAt = some ((s.reach x T).lane x).now ∧
      Touches [.tm, .ts, .cp, .fm] (fields [0x4001, 0x400E] [Reg.PM_STAT_STATE]) ((s.reach x T).lane x) (t.lane x)) ∧
  (∀ (x : LaneId) (codes : List (BitVec 12)) (s : State), (s.lane x).run = .off ∨ (s.lane x).run = .unpowered →
    ∃ t, exec (.tmSample x codes) s = .next t ∧ t = s) ∧
  (∀ (x : LaneId) (t0 : Nat) (s : State), (s.lane x).awake = true → (s.lane x).nvOpen = false → (s.lane x).tm.nvSince = some t0 →
    ∃ t, exec (.nvWindowOpen x) s = .next t ∧ OnlyLane x (s.reach x (t0 + 10000000)) t ∧ (t.lane x).nvOpen = true ∧
      Touches [.rs, .ts, .cp, .fm] (fields [0x4001, 0x4010] [Reg.PM_STAT_STATE, Reg.TM_STAT_NVOPEN])
        ((s.reach x (t0 + 10000000)).lane x) (t.lane x)) ∧
  (∀ (x : LaneId) (s : State), (s.lane x).nvOpen = true ∨ (s.lane x).tm.nvSince = none →
    ∃ t, exec (.nvWindowOpen x) s = .next t ∧ t = s) ∧
  (∀ (x : LaneId) (t0 T : Nat) (s : State), (s.lane x).up = true → (s.lane x).ix.throttleEnd = false → (s.lane x).ix.renewed = some t0 →
    T = t0 + (s.lane x).get Reg.TM_STAT_LEVEL * 100 →
    ∃ t, exec (.throttlePauseEnd x) s = .next t ∧ OnlyLane x (s.reach x T) t ∧
      (t.lane x).ix = { (s.lane x).ix with throttleEnd := true } ∧ (∀ k, (t.lane x).throttled k = false) ∧
      Touches [.ix, .fm] noRegs ((s.reach x T).lane x) (t.lane x)) ∧
  (∀ (x : LaneId) (s : State), (s.lane x).ix.throttleEnd = true ∨ (s.lane x).ix.renewed = none →
    ∃ t, exec (.throttlePauseEnd x) s = .next t ∧ t = s) ∧
  (∀ (x : LaneId) (slot : Fin 64) (c : Nat) (s : State), (s.lane x).up = true →
    c = (s.lane x).recordCode slot ((s.memOf x).word (s.lane x).stageAddr) ((s.memOf x).word ((s.lane x).stageAddr + 8)) → c ≠ 0 →
    ∃ t, exec (.recordWriteRequest x slot) s = .next t ∧ OnlyLane x s t ∧ (t.lane x).get Reg.RS_CMD_RESULT = c ∧
      (t.lane x).get Reg.RS_CMD_SLOT = slot ∧
      Touches [.fm] (fields [] [Reg.RS_CMD_SLOT, Reg.RS_CMD_RESULT]) (s.lane x) (t.lane x)) ∧
  (∀ (x : LaneId) (slot : Fin 64) (s : State), (s.lane x).up = true →
    (s.lane x).recordCode slot ((s.memOf x).word (s.lane x).stageAddr) ((s.memOf x).word ((s.lane x).stageAddr + 8)) = 0 →
    (s.lane x).nvOpen = true →
    ∃ t, exec (.recordWriteRequest x slot) s = .next t ∧ OnlyLane x s t ∧ (t.lane x).recordBusy slot = true ∧
      (t.lane x).get Reg.RS_CMD_SLOT = slot ∧ (t.lane x).get Reg.RS_CMD_RESULT = 0 ∧
      ((s.lane x).rs.writing = none ∧ (s.lane x).rs.pend = [] → (t.lane x).rs.writing.map (·.slot) = some slot.val ∧
        (t.lane x).bit Reg.RS_STAT_BUSY = true) ∧
      Touches [.rs, .fm] (fields [0x4010] []) (s.lane x) (t.lane x)) ∧
  (∀ (x : LaneId) (slot : Fin 64) (s : State), (s.lane x).up = true →
    (s.lane x).recordCode slot ((s.memOf x).word (s.lane x).stageAddr) ((s.memOf x).word ((s.lane x).stageAddr + 8)) = 0 →
    (s.lane x).nvOpen = false →
    ∃ t, exec (.recordWriteRequest x slot) s = .next t ∧ OnlyLane x s t ∧ (t.lane x).get Reg.RS_CMD_SLOT = slot ∧
      (t.lane x).get Reg.RS_CMD_RESULT = 0 ∧ Raised 146 (s.lane x) (t.lane x) ∧
      ((s.lane x).bit (Reg.FM_REACT_B 146) = false →
        (t.lane x).rsPend slot = some ⟨stagedImage (s.memOf x) (s.lane x).stageAddr, none⟩) ∧
      Touches (.rs :: raiseParts 146) (raiseRegs 146) (s.lane x) (t.lane x)) ∧
  (∀ (x : LaneId) (slot : Fin 64) (p : RsPend) (s : State), (s.lane x).up = true → (s.lane x).rsPend slot = some p →
    ∃ t, exec (.recordWriteAbort x slot) s = .next t ∧ OnlyLane x s t ∧ (t.lane x).rsPend slot = none ∧
      (t.lane x).get Reg.RS_CMD_SLOT = slot ∧ (t.lane x).get Reg.RS_CMD_RESULT = 0 ∧
      (∀ o, o ∈ (t.lane x).hl.ops → some o.id ≠ p.op) ∧
      Touches [.free, .rs, .hl, .ts, .cp, .fm] (fields [0x4001, 0x4010, 0x4011] [Reg.PM_STAT_STATE]) (s.lane x) (t.lane x)) ∧
  (∀ (x : LaneId) (slot : Fin 64) (w : RsWrite) (s : State), (s.lane x).up = true → (s.lane x).rsPend slot = none →
    (s.lane x).rs.writing = some w → w.slot = slot →
    ∃ t, exec (.recordWriteAbort x slot) s = .next t ∧ OnlyLane x s t ∧ (t.lane x).recordBusy slot = false ∧
      (t.lane x).get Reg.RS_CMD_SLOT = slot ∧ (t.lane x).get Reg.RS_CMD_RESULT = 0 ∧
      (∀ o, o ∈ (t.lane x).hl.ops → some o.id ≠ w.op) ∧
      Touches [.free, .rs, .hl, .ts, .cp, .fm] (fields [0x4001, 0x4010, 0x4011] [Reg.PM_STAT_STATE]) (s.lane x) (t.lane x)) ∧
  (∀ (x : LaneId) (slot : Fin 64) (s : State), (s.lane x).up = true → (s.lane x).recordBusy slot = false →
    ∃ t, exec (.recordWriteAbort x slot) s = .next t ∧ OnlyLane x s t ∧ (t.lane x).get Reg.RS_CMD_SLOT = slot ∧
      (t.lane x).get Reg.RS_CMD_RESULT = 0x0C ∧
      Touches [.fm] (fields [] [Reg.RS_CMD_SLOT, Reg.RS_CMD_RESULT]) (s.lane x) (t.lane x)) ∧
  (∀ (x : LaneId) (w : RsWrite) (i : Nat) (s : State), (s.lane x).awake = true → (s.lane x).rs.writing = some w → i < w.image.length →
    ∃ t, exec (.recordWriteCommit x true) s = .next t ∧ OnlyLane x s t ∧ (∀ o, o ∈ (t.lane x).hl.ops → some o.id ≠ w.op) ∧
      (t.lane x).get Reg.TM_SHUT_PEND = (if w.slot = 4 then 0 else (s.lane x).get Reg.TM_SHUT_PEND) ∧
      ((s.lane x).rs.pend = [] → (t.lane x).bankWord w.slot w.bank i = nth w.image i ∧ (t.lane x).rs.writing = none ∧
        (t.lane x).bit Reg.RS_STAT_BUSY = false) ∧
      Touches [.free, .rs, .hl, .ts, .cp, .fm] (fields [0x4001, 0x4010, 0x4011] [Reg.PM_STAT_STATE, Reg.TM_SHUT_PEND])
        (s.lane x) (t.lane x)) ∧
  (∀ (x : LaneId) (w : RsWrite) (s : State), (s.lane x).awake = true → (s.lane x).rs.writing = some w → w.repeated = false →
    ∃ t, exec (.recordWriteCommit x false) s = .next t ∧ OnlyLane x s t ∧
      (t.lane x).rs = { (s.lane x).rs with writing := some { w with repeated := true } } ∧
      Touches [.rs, .fm] noRegs (s.lane x) (t.lane x)) ∧
  (∀ (x : LaneId) (w : RsWrite) (s : State), (s.lane x).awake = true → (s.lane x).rs.writing = some w → w.repeated = true →
    ∃ t, exec (.recordWriteCommit x false) s = .next t ∧ OnlyLane x s t ∧ Raised 156 (s.lane x) (t.lane x) ∧
      (∀ o, o ∈ (t.lane x).hl.ops → some o.id ≠ w.op) ∧ ((s.lane x).rs.pend = [] → (t.lane x).rs.writing = none) ∧
      Touches (.free :: .rs :: raiseParts 156) (fun k => raiseRegs 156 k || fields [0x4011] [] k) (s.lane x) (t.lane x)) ∧
  (∀ (x : LaneId) (ok : Bool) (s : State), (s.lane x).awake = true → (s.lane x).rs.writing = none →
    ∃ t, exec (.recordWriteCommit x ok) s = .next t ∧ OnlyLane x s t ∧ Touches [.fm] noRegs (s.lane x) (t.lane x))

/-- Self-test and repair (R654 to R658). A canary slice due starts, and ends passed or failed (source 154, its address in the repair map); a slice of a BIST order ends in its place, and the order itself with its last slice or an abort. The logic self-test of the follower is
requested, refused by the mode (source 2) or without effect, and ends with the follower at CP_ENTRY. A fuse burn is refused by the mode (0x0B, source 2) or its conditions (0x03), started, or without effect while one runs; ended, its entries leave the repair map.
The commands change nothing where no such test runs. -/
def Obligations.SelfTestAndRepair : Prop :=
  (∀ (x : LaneId) (T : Nat) (s : State), (s.lane x).up = true → (s.lane x).canaryDue = some T →
    ∃ t, exec (.canarySlice x) s = .next t ∧ OnlyLane x (s.reach x T) t ∧
      (t.lane x).st = { (s.lane x).st with slice := true, sliceAt := some (t.lane x).now } ∧ (t.lane x).bit Reg.ST_STAT_BUSY = true ∧
      Touches [.st, .fm] (fields [] [Reg.ST_STAT_BUSY, Reg.ST_STAT_SLICE]) ((s.reach x T).lane x) (t.lane x)) ∧
  (∀ (x : LaneId) (s : State), (s.lane x).canaryDue = none → ∃ t, exec (.canarySlice x) s = .next t ∧ t = s) ∧
  (∀ (x : LaneId) (s : State), (s.lane x).up = true → (s.lane x).st.slice = true →
    ∃ t, exec (.canarySliceEnd x none) s = .next t ∧ OnlyLane x s t ∧ (t.lane x).st.slice = false ∧
      (t.lane x).st.next = ((s.lane x).st.next + 1) % 2048 ∧ (t.lane x).bit Reg.ST_STAT_BUSY = (s.lane x).st.bist.isSome ∧
      (t.lane x).get Reg.ST_CNT_SLICE_COUNT = min ((s.lane x).get Reg.ST_CNT_SLICE_COUNT + 1) (2 ^ 32 - 1) ∧
      ((s.lane x).st.next = 2047 → (t.lane x).bit Reg.ST_STAT_PASS_OK = !(s.lane x).st.passFail) ∧
      Touches [.st, .ts, .cp, .fm] (fields [0x4001] [Reg.PM_STAT_STATE, Reg.ST_STAT_BUSY, Reg.ST_STAT_SLICE, Reg.ST_STAT_PASS_OK,
        Reg.ST_CNT_SLICE_COUNT]) (s.lane x) (t.lane x)) ∧
  (∀ (x : LaneId) (a : Word) (s : State), (s.lane x).up = true → (s.lane x).st.slice = true →
    ∃ t, exec (.canarySliceEnd x (some a)) s = .next t ∧ OnlyLane x s t ∧ a.toNat ∈ (t.lane x).st.repair ∧
      ((s.lane x).nvOpen = true → Raised 154 (s.lane x) (t.lane x)) ∧ (t.lane x).st.slice = false ∧
      Touches (.st :: .rs :: raiseParts 154) (fun k => raiseRegs 154 k || fields [0x4010] [] k) (s.lane x) (t.lane x)) ∧
  (∀ (x : LaneId) (b : Bist) (s : State), (s.lane x).up = true → (s.lane x).st.slice = false → (s.lane x).st.bist = some b →
    b.slices ≠ [] →
    ∃ t, exec (.canarySliceEnd x none) s = .next t ∧ OnlyLane x s t ∧
      (t.lane x).st = { (s.lane x).st with bist := some { b with slices := if b.abort then [] else b.slices.drop 1 } } ∧
      (t.lane x).get Reg.ST_CNT_SLICE_COUNT = min ((s.lane x).get Reg.ST_CNT_SLICE_COUNT + 1) (2 ^ 32 - 1) ∧
      (b.abort = false → b.slices.length = 1 → ∀ o, o ∈ (t.lane x).hl.ops → some o.id = b.opid → o.committed = true) ∧
      Touches [.st, .hl, .fm] (fields [] [Reg.ST_STAT_BUSY, Reg.ST_STAT_SLICE, Reg.ST_CNT_SLICE_COUNT]) (s.lane x) (t.lane x)) ∧
  (∀ (x : LaneId) (b : Bist) (a : Word) (s : State), (s.lane x).up = true → (s.lane x).st.slice = false → (s.lane x).st.bist = some b →
    b.slices ≠ [] →
    ∃ t, exec (.canarySliceEnd x (some a)) s = .next t ∧ OnlyLane x s t ∧ a.toNat ∈ (t.lane x).st.repair ∧
      ((s.lane x).nvOpen = true → Raised 154 (s.lane x) (t.lane x)) ∧
      (t.lane x).st.bist = some { b with slices := if b.abort then [] else b.slices.drop 1, fails := b.fails + 1 } ∧
      Touches (.st :: .rs :: raiseParts 154) (fun k => raiseRegs 154 k || fields [0x4010] [] k) (s.lane x) (t.lane x)) ∧
  (∀ (x : LaneId) (e : Option Word) (s : State), (s.lane x).up = true → (s.lane x).st.slice = false →
    ((s.lane x).st.bist.all fun b => b.slices.isEmpty) = true →
    ∃ t, exec (.canarySliceEnd x e) s = .next t ∧ OnlyLane x s t ∧ Touches [.fm] noRegs (s.lane x) (t.lane x)) ∧
  (∀ (x : LaneId) (b : Bist) (s : State), (s.lane x).up = true → (s.lane x).st.bist = some b → b.slices = [] → (s.lane x).st.slice = false →
    ∃ t, exec (.bistEnd x) s = .next t ∧ OnlyLane x s t ∧ (t.lane x).st = { (s.lane x).st with bist := none } ∧
      (t.lane x).bit Reg.ST_STAT_BUSY = false ∧ (∀ o, o ∈ (t.lane x).hl.ops → some o.id ≠ b.opid) ∧
      Touches [.free, .st, .hl, .ts, .cp, .fm] (fields [0x4001, 0x4011] [Reg.PM_STAT_STATE, Reg.ST_STAT_BUSY, Reg.ST_STAT_SLICE])
        (s.lane x) (t.lane x)) ∧
  (∀ (x : LaneId) (s : State), (s.lane x).up = true →
    (s.lane x).st.slice = true ∨ ((s.lane x).st.bist.all fun b => !b.slices.isEmpty) = true →
    ∃ t, exec (.bistEnd x) s = .next t ∧ OnlyLane x s t ∧ Touches [.fm] noRegs (s.lane x) (t.lane x)) ∧
  (∀ (x : LaneId) (s : State), (s.lane x).up = true → (s.lane x).permits .logicTest = true → (s.lane x).get Reg.CP_STAT_STATE = 3 →
    (s.lane x).st.lbist = none →
    ∃ t, exec (.lbistRequest x) s = .next t ∧ OnlyLane x s t ∧
      (t.lane x).st = { (s.lane x).st with lbist := some (1 - (s.lane x).get Reg.CP_STAT_LEAD) } ∧
      (t.lane x).bit Reg.ST_STAT_LBIST_BUSY = true ∧ Touches [.st, .fm] (fields [] [Reg.ST_STAT_LBIST_BUSY]) (s.lane x) (t.lane x)) ∧
  (∀ (x : LaneId) (s : State), (s.lane x).up = true → (s.lane x).permits .logicTest = false →
    ∃ t, exec (.lbistRequest x) s = .next t ∧ OnlyLane x s t ∧ Raised 2 (s.lane x) (t.lane x) ∧
      Touches (raiseParts 2) (raiseRegs 2) (s.lane x) (t.lane x)) ∧
  (∀ (x : LaneId) (s : State), (s.lane x).up = true → (s.lane x).permits .logicTest = true →
    (s.lane x).get Reg.CP_STAT_STATE ≠ 3 ∨ (s.lane x).st.lbist ≠ none →
    ∃ t, exec (.lbistRequest x) s = .next t ∧ OnlyLane x s t ∧ Touches [.fm] noRegs (s.lane x) (t.lane x)) ∧
  (∀ (x : LaneId) (core : Nat) (s : State), (s.lane x).up = true → (s.lane x).st.lbist = some core →
    ∃ t, exec (.lbistEnd x) s = .next t ∧ OnlyLane x s t ∧ (t.lane x).st = { (s.lane x).st with lbist := none } ∧
      (t.lane x).get Reg.ST_STAT_LBIST_BUSY = 0 ∧ (t.lane x).cp.snap.get core = (s.lane x).entryRegs ∧
      (t.lane x).cp.regs.get core = (s.lane x).entryRegs ∧ (t.lane x).cp.machine.get core = true ∧
      Touches [.free, .st, .ts, .cp, .fm] (fields [0x4001] [Reg.PM_STAT_STATE, Reg.ST_SIG_SIG, Reg.ST_LBIST_MATCH,
        Reg.ST_STAT_LBIST_BUSY]) (s.lane x) (t.lane x)) ∧
  (∀ (x : LaneId) (s : State), (s.lane x).up = true → (s.lane x).st.lbist = none →
    ∃ t, exec (.lbistEnd x) s = .next t ∧ OnlyLane x s t ∧ Touches [.fm] noRegs (s.lane x) (t.lane x)) ∧
  (∀ (x : LaneId) (s : State), (s.lane x).up = true → (s.lane x).st.burn = none → (s.lane x).permits .fuseRepair = true →
    (s.lane x).burnFit = true →
    ∃ t, exec (.fuseBurn x) s = .next t ∧ OnlyLane x s t ∧ (t.lane x).st = { (s.lane x).st with burn := some (s.lane x).st.repair } ∧
      (t.lane x).bit Reg.ST_FUSE_GO = true ∧ Touches [.st, .fm] (fields [] [Reg.ST_FUSE_GO]) (s.lane x) (t.lane x)) ∧
  (∀ (x : LaneId) (s : State), (s.lane x).up = true → (s.lane x).st.burn = none → (s.lane x).permits .fuseRepair = true →
    (s.lane x).burnFit = false →
    ∃ t, exec (.fuseBurn x) s = .next t ∧ OnlyLane x s t ∧ (t.lane x).get Reg.ST_FUSE_RESULT = 0x03 ∧
      Touches [.fm] (fields [] [Reg.ST_FUSE_RESULT]) (s.lane x) (t.lane x)) ∧
  (∀ (x : LaneId) (s : State), (s.lane x).up = true → (s.lane x).st.burn = none → (s.lane x).permits .fuseRepair = false →
    ∃ t, exec (.fuseBurn x) s = .next t ∧ OnlyLane x s t ∧ (t.lane x).get Reg.ST_FUSE_RESULT = 0x0B ∧ Raised 2 (s.lane x) (t.lane x) ∧
      Touches (raiseParts 2) (raiseAnd 2 [Reg.ST_FUSE_RESULT]) (s.lane x) (t.lane x)) ∧
  (∀ (x : LaneId) (s : State), (s.lane x).up = true → (s.lane x).st.burn ≠ none →
    ∃ t, exec (.fuseBurn x) s = .next t ∧ OnlyLane x s t ∧ Touches [.fm] noRegs (s.lane x) (t.lane x)) ∧
  (∀ (x : LaneId) (es : List Nat) (s : State), (s.lane x).up = true → (s.lane x).st.burn = some es → (s.lane x).nvOpen = true →
    ∃ t, exec (.fuseBurnEnd x) s = .next t ∧ OnlyLane x s t ∧
      (t.lane x).st = { (s.lane x).st with burn := none, repair := (s.lane x).st.repair.filter fun a => !es.contains a } ∧
      (t.lane x).get Reg.ST_FUSE_GO = 0 ∧ (t.lane x).get Reg.ST_FUSE_RESULT = 0 ∧
      Touches [.st, .rs, .fm] (fields [0x400F, 0x4010] []) (s.lane x) (t.lane x)) ∧
  (∀ (x : LaneId) (es : List Nat) (s : State), (s.lane x).up = true → (s.lane x).st.burn = some es → (s.lane x).nvOpen = false →
    ∃ t, exec (.fuseBurnEnd x) s = .next t ∧ OnlyLane x s t ∧
      (t.lane x).st = { (s.lane x).st with burn := none, repair := (s.lane x).st.repair.filter fun a => !es.contains a } ∧
      (t.lane x).get Reg.ST_FUSE_GO = 0 ∧ (t.lane x).get Reg.ST_FUSE_RESULT = 0 ∧ Raised 146 (s.lane x) (t.lane x) ∧
      Touches (.st :: .rs :: raiseParts 146) (fun k => raiseRegs 146 k || fields [0x400F] [] k) (s.lane x) (t.lane x)) ∧
  (∀ (x : LaneId) (s : State), (s.lane x).up = true → (s.lane x).st.burn = none →
    ∃ t, exec (.fuseBurnEnd x) s = .next t ∧ OnlyLane x s t ∧ Touches [.fm] noRegs (s.lane x) (t.lane x))

/-- Fault collection (R557, R561, R564 to R567). A write of force bits counts one event of each source that exists and sets its status while FENABLE is set, and is refused with FREFUSED while it is not; a status bit clears only when its cause is not held; the trap's
acknowledgement clears its set and, with bits left, raises the trap again; PREL releases the primary error ball from events before it, and 100 µs after the last event the ball rises; a source's quiet period ends with its status cleared and counted.
The commands change nothing where there is nothing to acknowledge, release or clear. -/
def Obligations.FaultCollection : Prop :=
  (∀ (x : LaneId) (g : Fin 6) (v : Word) (i : Nat) (s : State), (s.lane x).awake = true → (s.lane x).bit Reg.FM_CTRL_FENABLE = true →
    i < 32 → v.toNat = 2 ^ i → sourceExists (32 * g.val + i) = true →
    ∃ t, exec (.fmForce x g v) s = .next t ∧ OnlyLane x s t ∧ (t.lane x).status (32 * g.val + i) = true ∧
      (∀ k, k < 192 → (t.lane x).get (Reg.FM_TALLY_TALLY k) =
        if k = 32 * g.val + i then ((s.lane x).get (Reg.FM_TALLY_TALLY k) + 1) % 2 ^ 32 else (s.lane x).get (Reg.FM_TALLY_TALLY k)) ∧
      Touches (raiseParts (32 * g.val + i)) (raiseRegs (32 * g.val + i)) (s.lane x) (t.lane x)) ∧
  (∀ (x : LaneId) (g : Fin 6) (v : Word) (i : Nat) (s : State), (s.lane x).awake = true → (s.lane x).bit Reg.FM_CTRL_FENABLE = true →
    v ≠ 0 → i < 32 →
    ∃ t, exec (.fmForce x g v) s = .next t ∧ OnlyLane x s t ∧
      (t.lane x).get (Reg.FM_TALLY_TALLY (32 * g.val + i)) = (if bitAt v.toNat i && sourceExists (32 * g.val + i) then
        ((s.lane x).get (Reg.FM_TALLY_TALLY (32 * g.val + i)) + 1) % 2 ^ 32 else (s.lane x).get (Reg.FM_TALLY_TALLY (32 * g.val + i))) ∧
      (t.lane x).status (32 * g.val + i) = ((s.lane x).status (32 * g.val + i) || (bitAt v.toNat i && sourceExists (32 * g.val + i))) ∧
      Touches [.free, .md, .fc, .gd, .cp, .ts, .sm, .fm, .hl, .vf, .tb, .xf, .sx, .rs, .st]
        (fields [0x4001, 0x4009, 0x400A, 0x400C, 0x400F, 0x4010, 0x4011, 0x4012, 0x4013] refugeFlds) (s.lane x) (t.lane x)) ∧
  (∀ (x : LaneId) (g : Fin 6) (v : Word) (s : State), (s.lane x).awake = true → (s.lane x).bit Reg.FM_CTRL_FENABLE = false → v ≠ 0 →
    ∃ t, exec (.fmForce x g v) s = .next t ∧ OnlyLane x s t ∧ (t.lane x).bit Reg.FM_STAT_FREFUSED = true ∧
      Touches [.fm] (fields [] [Reg.FM_STAT_FREFUSED]) (s.lane x) (t.lane x)) ∧
  (∀ (x : LaneId) (g : Fin 6) (s : State), (s.lane x).awake = true →
    ∃ t, exec (.fmForce x g 0) s = .next t ∧ OnlyLane x s t ∧ Touches [.fm] noRegs (s.lane x) (t.lane x)) ∧
  (∀ (x : LaneId) (g : Fin 6) (v : Word) (i : Nat) (s : State), (s.lane x).awake = true → i < 32 →
    ∃ t, exec (.fmStatusClear x g v) s = .next t ∧ OnlyLane x s t ∧
      (t.lane x).status (32 * g.val + i) = ((s.lane x).status (32 * g.val + i) &&
        !(bitAt v.toNat i && !(s.lane x).noteHeld.held554 (32 * g.val + i))) ∧
      Touches [.fm] (fields [] [Reg.FM_STATUS_STATUS g]) (s.lane x) (t.lane x)) ∧
  (∀ (x : LaneId) (l : List Nat) (s : State), (s.lane x).awake = true → (s.lane x).fm.trapSet = some l →
    ∃ t, exec (.fmNmtAck x) s = .next t ∧ OnlyLane x s t ∧ (t.lane x).fm.trapSet = none ∧
      (t.lane x).fm.trapBits = ((s.lane x).fm.trapBits.filter fun k => !l.contains k) ∧ (t.lane x).get Reg.FM_NMT_SRC = 0 ∧
      (t.lane x).cp.trap = ((s.lane x).cp.trap || !(t.lane x).fm.trapBits.isEmpty) ∧
      Touches [.cp, .fm] (fields [] [Reg.FM_NMT_SRC, Reg.PM_STAT_STATE]) (s.lane x) (t.lane x)) ∧
  (∀ (x : LaneId) (s : State), (s.lane x).awake = true → (s.lane x).fm.trapSet = none →
    ∃ t, exec (.fmNmtAck x) s = .next t ∧ OnlyLane x s t ∧ (t.lane x).fm.trapBits = (s.lane x).fm.trapBits ∧
      Touches [.fm] noRegs (s.lane x) (t.lane x)) ∧
  (∀ (x : LaneId) (t0 : Nat) (s : State), (s.lane x).awake = true → (s.lane x).fm.lastE = some t0 → t0 < (s.lane x).now →
    ∃ t, exec (.fmBallPrel x) s = .next t ∧ OnlyLane x s t ∧
      (t.lane x).fm.prel = decide ((s.lane x).now < t0 + 10000) ∧
      (t.lane x).fm.lastE = (if (s.lane x).now < t0 + 10000 then some t0 else none) ∧
      (t.lane x).errpLow = decide ((s.lane x).now < t0 + 10000) ∧ Touches [.fm] noRegs (s.lane x) (t.lane x)) ∧
  (∀ (x : LaneId) (s : State), (s.lane x).awake = true → ((s.lane x).fm.lastE.all fun t0 => decide ((s.lane x).now ≤ t0)) = true →
    ∃ t, exec (.fmBallPrel x) s = .next t ∧ OnlyLane x s t ∧ (t.lane x).fm.lastE = (s.lane x).fm.lastE ∧
      (t.lane x).fm.prel = (s.lane x).fm.prel ∧ Touches [.fm] noRegs (s.lane x) (t.lane x)) ∧
  (∀ (x : LaneId) (t0 : Nat) (s : State), (s.lane x).awake = true → (s.lane x).fm.lastE = some t0 →
    ((s.reach x (t0 + 10000)).lane x).errpLow = false →
    ∃ t, exec (.errpHoldExpiry x) s = .next t ∧ OnlyLane x (s.reach x (t0 + 10000)) t ∧ (t.lane x).fm.lastE = none ∧
      (t.lane x).fm.prel = false ∧ Touches [.fm] noRegs ((s.reach x (t0 + 10000)).lane x) (t.lane x)) ∧
  (∀ (x : LaneId) (t0 : Nat) (s : State), (s.lane x).awake = true → (s.lane x).fm.lastE = some t0 →
    ((s.reach x (t0 + 10000)).lane x).errpLow = true →
    ∃ t, exec (.errpHoldExpiry x) s = .next t ∧ OnlyLane x (s.reach x (t0 + 10000)) t ∧ (t.lane x).fm.lastE = some t0 ∧
      (t.lane x).errpLow = true ∧ Touches [.fm] noRegs ((s.reach x (t0 + 10000)).lane x) (t.lane x)) ∧
  (∀ (x : LaneId) (s : State), (s.lane x).fm.lastE = none → ∃ t, exec (.errpHoldExpiry x) s = .next t ∧ t = s) ∧
  (∀ (x : LaneId) (n : Fin 192) (T : Nat) (s : State), (s.lane x).awake = true → (s.lane x).quietDue n = some T →
    ∃ t, exec (.quietPeriodEnd x n) s = .next t ∧ OnlyLane x (s.reach x T) t ∧ (t.lane x).status n = false ∧
      (t.lane x).get (Reg.FM_REC_REC n) = min ((s.lane x).get (Reg.FM_REC_REC n) + 1) (2 ^ (Reg.FM_REC_REC n).width - 1) ∧
      (t.lane x).fm.recChanged = true ∧
      Touches [.fm] (fields [] [Reg.FM_STATUS_STATUS (n.val / 32), Reg.FM_REC_REC n]) ((s.reach x T).lane x) (t.lane x)) ∧
  (∀ (x : LaneId) (n : Fin 192) (s : State), (s.lane x).quietDue n = none → ∃ t, exec (.quietPeriodEnd x n) s = .next t ∧ t = s)

/-- A write by the cores (R9, R10, R22, R704): one to MRAM, SRAM or retention SRAM stores its word; one to the boot ROM changes nothing; one outside Table 0.4 or to the record-store window is a bus error that raises source 27, and changes nothing else; one to a reserved offset, or to a block without
registers, changes nothing. To SYS (but for SYS_MODE_REQ and CP_SPLIT), TM, and IX but for its weights, a write sets every field by its access type, or, where a locked field would change, none: SYS then raises source 2. One to any other register is a next state of that block's rules, with memory as it was. -/
def Obligations.WritesOnTheBus : Prop :=
  (∀ (x : LaneId) (addr v : Word) (s : State), (s.lane x).up = true →
    (placeOf addr.toNat = .mram ∨ placeOf addr.toNat = .sram ∨ placeOf addr.toNat = .retention) →
    ∃ t, exec (.registerWrite x addr v) s = .next t ∧ OnlyLaneMem x s t ∧
      t.memOf x = (s.memOf x).setMasked (addr.toNat / 4 * 4) 15 v.toNat ∧ Touches [.fm] noRegs (s.lane x) (t.lane x)) ∧
  (∀ (x : LaneId) (addr v : Word) (s : State), (s.lane x).up = true → placeOf addr.toNat = .nothing ∨ placeOf addr.toNat = .records →
    ∃ t, exec (.registerWrite x addr v) s = .next t ∧ OnlyLane x s t ∧ Raised 27 (s.lane x) (t.lane x) ∧
      Touches (raiseParts 27) (raiseRegs 27) (s.lane x) (t.lane x)) ∧
  (∀ (x : LaneId) (addr v : Word) (s : State), (s.lane x).up = true → placeOf addr.toNat = .rom ∨
    (addr.toNat / 0x10000 = 0x4012 ∨ (addr.toNat / 0x10000 = 0x4014 ∨
      (regFields x (addr.toNat / 4 * 4) = none ∧ (addr.toNat / 0x10000 = 0x400E ∨ addr.toNat / 0x10000 = 0x4002)))) →
    ∃ t, exec (.registerWrite x addr v) s = .next t ∧ OnlyLane x s t ∧ Touches [.fm] noRegs (s.lane x) (t.lane x)) ∧
  (∀ (x : LaneId) (addr v : Word) (fs : List Fld) (s : State), (s.lane x).up = true → regFields (s.lane x).me (addr.toNat / 4 * 4) = some fs →
    (addr.toNat / 0x10000 = 0x400E ∧ ((s.lane x).bit Reg.TM_CFG_LOCK && (s.lane x).changesLocked fs v.toNat) = false) ∨
      ((addr.toNat / 0x10000 = 0x4000 ∧ (addr.toNat / 4 * 4 ≠ 0x40000108 ∧ (addr.toNat / 4 * 4 ≠ 0x40008004 ∧
        ((s.lane x).bit Reg.SYS_MODE_CFG_LOCK && (s.lane x).changesLocked fs v.toNat) = false))) ∨
       (addr.toNat / 0x10000 = 0x4002 ∧ (addr.toNat % 0x10000 < 0x10 ∨ 0x3C ≤ addr.toNat % 0x10000))) →
    ∃ t, exec (.registerWrite x addr v) s = .next t ∧ OnlyLane x s t ∧
      (∀ f, f ∈ fs → (t.lane x).get f = (s.lane x).written v.toNat f % 2 ^ f.width) ∧
      Touches [.fm] (fun k => fs.any fun f => decide (k = f.key)) (s.lane x) (t.lane x)) ∧
  (∀ (x : LaneId) (addr v : Word) (fs : List Fld) (s : State), (s.lane x).up = true → regFields (s.lane x).me (addr.toNat / 4 * 4) = some fs →
    addr.toNat / 0x10000 = 0x400E → (s.lane x).bit Reg.TM_CFG_LOCK = true → (s.lane x).changesLocked fs v.toNat = true →
    ∃ t, exec (.registerWrite x addr v) s = .next t ∧ OnlyLane x s t ∧ Touches [.fm] noRegs (s.lane x) (t.lane x)) ∧
  (∀ (x : LaneId) (addr v : Word) (fs : List Fld) (s : State), (s.lane x).up = true → regFields (s.lane x).me (addr.toNat / 4 * 4) = some fs →
    addr.toNat / 0x10000 = 0x4000 → addr.toNat / 4 * 4 ≠ 0x40000108 → addr.toNat / 4 * 4 ≠ 0x40008004 →
    (s.lane x).bit Reg.SYS_MODE_CFG_LOCK = true → (s.lane x).changesLocked fs v.toNat = true →
    ∃ t, exec (.registerWrite x addr v) s = .next t ∧ OnlyLane x s t ∧ Raised 2 (s.lane x) (t.lane x) ∧
      Touches (raiseParts 2) (raiseRegs 2) (s.lane x) (t.lane x)) ∧
  (∀ (x : LaneId) (addr v : Word) (s : State), (s.lane x).up = true → placeOf addr.toNat = .registers →
    ∃ t, exec (.registerWrite x addr v) s = .next t ∧ OnlyLane x s t)
end

