-- ==== Sys2Proof/Laws/Tables.lean ====
section
/-! SUPPORT. Laws of the tables in canonical form: reading what was written, leaving every other key alone, and keeping
the canonical form. -/

namespace Sys2Proof.Machine

variable {α : Type}

/-- Every key of a table is above `n`. -/
def spAbove (n : Nat) : Sparse α → Prop
  | [] => True
  | (j, _) :: t => n < j ∧ spAbove n t

theorem spAbove_mono {m n : Nat} (h : m ≤ n) : ∀ {l : Sparse α}, spAbove n l → spAbove m l
  | [], _ => trivial
  | _ :: _, ⟨a, b⟩ => ⟨Nat.lt_of_le_of_lt h a, spAbove_mono h b⟩

theorem spGet_del (d : α) (k j : Nat) : ∀ l : Sparse α, spGet d j (spDel k l) = if j = k then d else spGet d j l
  | [] => by simp [spDel, spGet]
  | (i, v) :: t => by
    by_cases h : k = i
    · subst h; rw [show spDel k ((k, v) :: t) = spDel k t by simp [spDel], spGet_del d k j t]
      by_cases hj : j = k <;> simp [spGet, hj]
    · rw [show spDel k ((i, v) :: t) = (i, v) :: spDel k t by simp [spDel, h]]
      by_cases hj : j = i
      · subst hj; simp [spGet, Ne.symm h]
      · simp [spGet, hj, spGet_del d k j t]

theorem spGet_ins (d v : α) (k j : Nat) : ∀ l : Sparse α, spGet d j (spIns k v l) = if j = k then v else spGet d j l
  | [] => by simp [spIns, spGet]
  | (i, w) :: t => by
    by_cases h1 : k < i
    · by_cases hj : j = k <;> simp [spIns, spGet, h1, hj]
    · by_cases h2 : k = i
      · subst h2; by_cases hj : j = k <;> simp [spIns, spGet, hj]
      · rw [show spIns k v ((i, w) :: t) = (i, w) :: spIns k v t by simp [spIns, h1, h2]]
        by_cases hj : j = i
        · subst hj; simp [spGet, Ne.symm h2]
        · simp [spGet, hj, spGet_ins d v k j t]

/-- What a table reads after a write. -/
theorem spGet_set [DecidableEq α] (d v : α) (k j : Nat) (l : Sparse α) :
    spGet d j (spSet d k v l) = if j = k then v else spGet d j l := by
  unfold spSet
  split
  · next h => rw [spGet_del]; simp [h]
  · exact spGet_ins d v k j l

@[simp] theorem spGet_set_same [DecidableEq α] (d v : α) (k : Nat) (l : Sparse α) : spGet d k (spSet d k v l) = v := by
  rw [spGet_set]; simp

theorem spGet_set_other [DecidableEq α] (d e v : α) {k j : Nat} (h : j ≠ k) (l : Sparse α) :
    spGet e j (spSet d k v l) = spGet e j l := by
  unfold spSet
  split
  · rw [spGet_del]; simp [h]
  · rw [spGet_ins]; simp [h]

theorem spWf_cons [DecidableEq α] (d : α) (j : Nat) (v : α) (l : Sparse α) :
    spWf d ((j, v) :: l) = true ↔ v ≠ d ∧ spAbove j l ∧ spWf d l = true := by
  induction l generalizing j v with
  | nil => simp [spWf, spAbove]
  | cons e t ih =>
    obtain ⟨k, w⟩ := e
    simp only [spWf, Bool.and_eq_true, decide_eq_true_eq, spAbove]
    constructor
    · rintro ⟨⟨h1, h2⟩, h3⟩
      exact ⟨h2, ⟨h1, spAbove_mono (Nat.le_of_lt h1) ((ih k w).mp h3).2.1⟩, h3⟩
    · rintro ⟨h2, ⟨h1, _⟩, h3⟩
      exact ⟨⟨h1, h2⟩, h3⟩

theorem spAbove_del {n : Nat} (k : Nat) : ∀ {l : Sparse α}, spAbove n l → spAbove n (spDel k l)
  | [], _ => trivial
  | (j, v) :: t, ⟨a, b⟩ => by
    by_cases h : k = j
    · rw [show spDel k ((j, v) :: t) = spDel k t by simp [spDel, h]]; exact spAbove_del k b
    · rw [show spDel k ((j, v) :: t) = (j, v) :: spDel k t by simp [spDel, h]]; exact ⟨a, spAbove_del k b⟩

theorem spAbove_ins {n k : Nat} (v : α) (h : n < k) : ∀ {l : Sparse α}, spAbove n l → spAbove n (spIns k v l)
  | [], _ => ⟨h, trivial⟩
  | (j, w) :: t, ⟨a, b⟩ => by
    simp only [spIns]
    split
    · exact ⟨h, a, b⟩
    · split
      · exact ⟨h, b⟩
      · exact ⟨a, spAbove_ins v h b⟩

theorem spWf_del [DecidableEq α] (d : α) (k : Nat) : ∀ {l : Sparse α}, spWf d l = true → spWf d (spDel k l) = true
  | [], h => h
  | (j, v) :: t, h => by
    obtain ⟨hv, ha, ht⟩ := (spWf_cons d j v t).mp h
    by_cases hk : k = j
    · rw [show spDel k ((j, v) :: t) = spDel k t by simp [spDel, hk]]; exact spWf_del d k ht
    · rw [show spDel k ((j, v) :: t) = (j, v) :: spDel k t by simp [spDel, hk], spWf_cons]
      exact ⟨hv, spAbove_del k ha, spWf_del d k ht⟩

theorem spWf_ins [DecidableEq α] (d : α) (k : Nat) {v : α} (hv : v ≠ d) :
    ∀ {l : Sparse α}, spWf d l = true → spWf d (spIns k v l) = true
  | [], _ => by simp [spIns, spWf, hv]
  | (j, w) :: t, h => by
    obtain ⟨hw, ha, ht⟩ := (spWf_cons d j w t).mp h
    simp only [spIns]
    split
    · next hk => rw [spWf_cons]; exact ⟨hv, ⟨hk, spAbove_mono (Nat.le_of_lt hk) ha⟩, h⟩
    · split
      · next hk => subst hk; rw [spWf_cons]; exact ⟨hv, ha, ht⟩
      · next h1 h2 => rw [spWf_cons]; exact ⟨hw, spAbove_ins v (by omega) ha, spWf_ins d k hv ht⟩

/-- A write keeps the canonical form. -/
theorem spWf_set [DecidableEq α] (d : α) (k : Nat) (v : α) {l : Sparse α} (h : spWf d l = true) :
    spWf d (spSet d k v l) = true := by
  unfold spSet
  split
  · exact spWf_del d k h
  · next hv => exact spWf_ins d k hv h

end Sys2Proof.Machine
end

