-- ==== Sys2Proof/Laws/Memory.lean ====
section
/-! SUPPORT. Laws of a lane's memory: reading after writing, and that every memory operation keeps the canonical form. -/

namespace Sys2Proof.Machine

@[simp] theorem Mem.byte_setByte_same (m : Mem) (a : Nat) (v : Byte) : (m.setByte a v).byte a = v := by
  simp [Mem.byte, Mem.setByte]

theorem Mem.byte_setByte_other (m : Mem) {a b : Nat} (v : Byte) (h : b ≠ a) : (m.setByte a v).byte b = m.byte b := by
  simp [Mem.byte, Mem.setByte, spGet_set, h]

theorem Mem.byte_store_outside : ∀ (l : List Byte) (m : Mem) (a b : Nat), b < a ∨ a + l.length ≤ b →
    (m.store a l).byte b = m.byte b
  | [], _, _, _, _ => rfl
  | v :: t, m, a, b, h => by
    rw [Mem.store, Mem.byte_store_outside t _ _ _ (by simp at h; omega), Mem.byte_setByte_other _ _ (by simp at h; omega)]

theorem Mem.byte_store_inside : ∀ (l : List Byte) (m : Mem) (a i : Nat) (h : i < l.length), (m.store a l).byte (a + i) = l[i]
  | [], _, _, _, h => absurd h (by simp)
  | v :: t, m, a, 0, _ => by
    rw [Mem.store, Mem.byte_store_outside t _ _ _ (by omega)]; simp
  | v :: t, m, a, i + 1, h => by
    rw [Mem.store, show a + (i + 1) = (a + 1) + i by omega, Mem.byte_store_inside t _ _ i (by simpa using h)]; simp

theorem Memory.wf_setByte {m : Mem} (a : Nat) (v : Byte) (h : Memory.wf m = true) : Memory.wf (m.setByte a v) = true :=
  spWf_set 0 a v h

theorem Memory.wf_store : ∀ (l : List Byte) {m : Mem} (a : Nat), Memory.wf m = true → Memory.wf (m.store a l) = true
  | [], _, _, h => h
  | v :: t, _, a, h => Memory.wf_store t (a + 1) (Memory.wf_setByte a v h)

theorem Memory.wf_setMasked {m : Mem} (a mask v : Nat) (h : Memory.wf m = true) : Memory.wf (m.setMasked a mask v) = true := by
  have put : ∀ (i : Nat) {m : Mem}, Memory.wf m = true →
      Memory.wf (if bitAt mask i then m.setByte (a + i) (BitVec.ofNat 8 (v / 2 ^ (8 * i))) else m) = true := by
    intro i m h; split
    · exact Memory.wf_setByte _ _ h
    · exact h
  exact put 3 (put 2 (put 1 (put 0 h)))

theorem Mem.byte_setMasked_outside (m : Mem) (a mask v b : Nat) (h : b < a ∨ a + 4 ≤ b) :
    (m.setMasked a mask v).byte b = m.byte b := by
  have put : ∀ (i : Nat), i < 4 → ∀ m : Mem,
      (if bitAt mask i then m.setByte (a + i) (BitVec.ofNat 8 (v / 2 ^ (8 * i))) else m).byte b = m.byte b := by
    intro i hi m; split
    · exact Mem.byte_setByte_other _ _ (by omega)
    · rfl
  exact (put 3 (by omega) _).trans ((put 2 (by omega) _).trans ((put 1 (by omega) _).trans (put 0 (by omega) m)))

theorem spAbove_filter {α : Type} (p : Nat × α → Bool) {n : Nat} : ∀ {l : Sparse α}, spAbove n l → spAbove n (l.filter p)
  | [], _ => trivial
  | e :: t, ⟨a, b⟩ => by
    rw [List.filter_cons]; split
    · exact ⟨a, spAbove_filter p b⟩
    · exact spAbove_filter p b

theorem Memory.wf_filter (p : Nat × Byte → Bool) : ∀ {m : Mem}, Memory.wf m = true → Memory.wf (List.filter p m) = true
  | [], h => h
  | (j, v) :: t, h => by
    obtain ⟨hv, ha, ht⟩ := (spWf_cons (0 : Byte) j v t).mp h
    rw [List.filter_cons]; split
    · exact (spWf_cons (0 : Byte) j v _).mpr ⟨hv, spAbove_filter p ha, Memory.wf_filter p ht⟩
    · exact Memory.wf_filter p ht

theorem Memory.wf_clear {m : Mem} (lo hi : Nat) (h : Memory.wf m = true) : Memory.wf (m.clear lo hi) = true :=
  Memory.wf_filter _ h

theorem Memory.wf_unwind : ∀ (j : List (Nat × BitVec 4 × Word)) {m : Mem}, Memory.wf m = true → Memory.wf (unwind m j) = true
  | [], _, h => h
  | (a, k, w) :: t, _, h => Memory.wf_unwind t (Memory.wf_setMasked a k.toNat w.toNat h)

theorem Memory.wf_ringStore (base size : Nat) : ∀ (l : List Byte) (i : Nat) {m : Mem}, Memory.wf m = true →
    Memory.wf (ringStore m base size i l) = true
  | [], _, _, h => h
  | v :: t, i, _, h => Memory.wf_ringStore base size t (i + 1) (by split <;> first | exact Memory.wf_setByte _ v h | exact h)

theorem Memory.wf_busWrite (r a mask v : Nat) (L : Lane) {m : Mem} (h : Memory.wf m = true) :
    Memory.wf (busWrite r a mask v L m).1.2 = true := by
  unfold busWrite
  cases placeOf a <;> first | exact Memory.wf_setMasked _ _ _ h | exact h | (dsimp only; repeat' split) <;> exact h

theorem Memory.wf_deliver (L : Lane) (p : Nat) (bs : List Byte) {m : Mem} (h : Memory.wf m = true) :
    Memory.wf (L.deliver m p bs).2 = true := by
  unfold Lane.deliver
  dsimp only
  split
  · exact Memory.wf_ringStore _ _ _ _ h
  · exact h

theorem Memory.wf_writeWords : ∀ (l : List Nat) (L : Lane) {m : Mem} (a : Nat), Memory.wf m = true →
    Memory.wf (L.writeWords m a l).1.2 = true
  | [], _, _, _, h => h
  | w :: t, L, m, a, h => by
    have hb := Memory.wf_busWrite 7 a 15 w L h
    unfold Lane.writeWords
    dsimp only
    split
    · exact hb
    · exact Memory.wf_writeWords t _ _ hb

end Sys2Proof.Machine
end

