-- ==== Sys2Proof/Laws/PerInstr.lean ====
section
/-! SUPPORT. Statements made of every command as syntax, one lemma per constructor: no word spells a command, since the opcode
table gives no row bits. -/

namespace Sys2Proof.Laws.Unspelled

/-- No word of any length spells the command. -/
def Statement (i : Instr) : Prop := ∀ nbits w : Nat, decodeTableWord nbits w ≠ some i

/-- The decoder answers none on every word. -/
theorem noWord (i : Instr) : Statement i := by intro _ _ h; simp [decodeTableWord] at h

theorem powerOnResetRelease (x : LaneId) (strap : BitVec 2) : Statement (.powerOnResetRelease x strap) := noWord _
theorem supplyLoss (x : LaneId) : Statement (.supplyLoss x) := noWord _
theorem resetPin (x : LaneId) (lowNs : Nat) (strap : BitVec 2) : Statement (.resetPin x lowNs strap) := noWord _
theorem supplyThresholdCrossing (x : LaneId) (mv : Nat) : Statement (.supplyThresholdCrossing x mv) := noWord _
theorem crystalFailure (x : LaneId) : Statement (.crystalFailure x) := noWord _
theorem crystalRecovery (x : LaneId) : Statement (.crystalRecovery x) := noWord _
theorem bootComplete (x : LaneId) : Statement (.bootComplete x) := noWord _
theorem bootFailure (x : LaneId) (cause : BootCause) : Statement (.bootFailure x cause) := noWord _
theorem watchStart (x : LaneId) (crackOpen deputyFault : Bool) : Statement (.watchStart x crackOpen deputyFault) := noWord _
theorem watchOverrun (x : LaneId) : Statement (.watchOverrun x) := noWord _
theorem outerTick (x : LaneId) : Statement (.outerTick x) := noWord _
theorem formationPublish (x : LaneId) : Statement (.formationPublish x) := noWord _
theorem unresolvedTimeout (x : LaneId) : Statement (.unresolvedTimeout x) := noWord _
theorem startTestPendingReport (x : LaneId) : Statement (.startTestPendingReport x) := noWord _
theorem boostUpdate (x : LaneId) : Statement (.boostUpdate x) := noWord _
theorem aliveLineEdge (x y : LaneId) : Statement (.aliveLineEdge x y) := noWord _
theorem aliveLineTimeout (x y : LaneId) : Statement (.aliveLineTimeout x y) := noWord _
theorem sailingDeparture (x : LaneId) : Statement (.sailingDeparture x) := noWord _
theorem latchPoint (x : LaneId) : Statement (.latchPoint x) := noWord _
theorem sailingJudgement (x : LaneId) : Statement (.sailingJudgement x) := noWord _
theorem landing (x : LaneId) : Statement (.landing x) := noWord _
theorem relayLost (x : LaneId) : Statement (.relayLost x) := noWord _
theorem frameHeadArrival (x : LaneId) (path : Fin 2) (head : FrameHead) (err : Int) : Statement (.frameHeadArrival x path head err) := noWord _
theorem berthPassage (x owner : LaneId) (path : Fin 2) (frame : FrameId) (flips : List (Nat × Byte)) : Statement (.berthPassage x owner path frame flips) := noWord _
theorem tailSend (x : LaneId) : Statement (.tailSend x) := noWord _
theorem reliefInstant (x : LaneId) : Statement (.reliefInstant x) := noWord _
theorem ferryLinkDown (x y : LaneId) : Statement (.ferryLinkDown x y) := noWord _
theorem ferryLinkUp (x y : LaneId) : Statement (.ferryLinkUp x y) := noWord _
theorem launchTimeout (x : LaneId) (ferry : Ferry) : Statement (.launchTimeout x ferry) := noWord _
theorem launchFrameReceived (x : LaneId) (ferry : Ferry) (launch : LaunchFrame) : Statement (.launchFrameReceived x ferry launch) := noWord _
theorem xfCommit (x : LaneId) (v : Word) : Statement (.xfCommit x v) := noWord _
theorem vfCommit (x : LaneId) (v : Word) : Statement (.vfCommit x v) := noWord _
theorem xfEnable (x : LaneId) (v : Word) : Statement (.xfEnable x v) := noWord _
theorem vfEnable (x : LaneId) (v : Word) : Statement (.vfEnable x v) := noWord _
theorem vehicleDeparture (x : LaneId) : Statement (.vehicleDeparture x) := noWord _
theorem vehiclePassArrival (x : LaneId) (frame : VFrame) (err : Int) : Statement (.vehiclePassArrival x frame err) := noWord _
theorem loadingPassReturn (x : LaneId) (frame : VFrame) : Statement (.loadingPassReturn x frame) := noWord _
theorem nonFerryFrame (x : LaneId) (port : Fin 2) (etherType : Nat) (da : Nat) (frame : VFrame) : Statement (.nonFerryFrame x port etherType da frame) := noWord _
theorem frameSendRequest (x : LaneId) (port : Fin 2) (v : Word) : Statement (.frameSendRequest x port v) := noWord _
theorem heldFrameSend (x : LaneId) (port : Fin 2) : Statement (.heldFrameSend x port) := noWord _
theorem ferryPassDelayed (x : LaneId) (port : Fin 2) : Statement (.ferryPassDelayed x port) := noWord _
theorem portLinkChange (x : LaneId) (port : Fin 2) (link fullDuplex : Bool) (mbit : Nat) : Statement (.portLinkChange x port link fullDuplex mbit) := noWord _
theorem samplingInstant (x : LaneId) (peak : Bool) (c0 c1 : List (BitVec 12)) : Statement (.samplingInstant x peak c0 c1) := noWord _
theorem sampleSetReady (x : LaneId) (b : Fin 2) : Statement (.sampleSetReady x b) := noWord _
theorem triggerFiring (x : LaneId) (n : Fin 8) : Statement (.triggerFiring x n) := noWord _
theorem leNop (x : LaneId) (ecc : Ecc) : Statement (.leNop x ecc) := noWord _
theorem leClr (x : LaneId) (ecc : Ecc) : Statement (.leClr x ecc) := noWord _
theorem leLda (x : LaneId) (ecc : Ecc) : Statement (.leLda x ecc) := noWord _
theorem leMac (x : LaneId) (ecc : Ecc) : Statement (.leMac x ecc) := noWord _
theorem leMacr (x : LaneId) (ecc : Ecc) : Statement (.leMacr x ecc) := noWord _
theorem leSta (x : LaneId) (ecc : Ecc) : Statement (.leSta x ecc) := noWord _
theorem leMov (x : LaneId) (ecc : Ecc) : Statement (.leMov x ecc) := noWord _
theorem leLdc (x : LaneId) (ecc : Ecc) : Statement (.leLdc x ecc) := noWord _
theorem leAdd (x : LaneId) (ecc : Ecc) : Statement (.leAdd x ecc) := noWord _
theorem leMul (x : LaneId) (ecc : Ecc) : Statement (.leMul x ecc) := noWord _
theorem leSat (x : LaneId) (ecc : Ecc) : Statement (.leSat x ecc) := noWord _
theorem leSel (x : LaneId) (ecc : Ecc) : Statement (.leSel x ecc) := noWord _
theorem leSkp (x : LaneId) (ecc : Ecc) : Statement (.leSkp x ecc) := noWord _
theorem leC22 (x : LaneId) (ecc : Ecc) : Statement (.leC22 x ecc) := noWord _
theorem leC33 (x : LaneId) (ecc : Ecc) : Statement (.leC33 x ecc) := noWord _
theorem leNtc (x : LaneId) (ecc : Ecc) : Statement (.leNtc x ecc) := noWord _
theorem leClk (x : LaneId) (ecc : Ecc) : Statement (.leClk x ecc) := noWord _
theorem lePrk (x : LaneId) (ecc : Ecc) : Statement (.lePrk x ecc) := noWord _
theorem leIpk (x : LaneId) (ecc : Ecc) : Statement (.leIpk x ecc) := noWord _
theorem leScs (x : LaneId) (ecc : Ecc) : Statement (.leScs x ecc) := noWord _
theorem leSvm (x : LaneId) (ecc : Ecc) : Statement (.leSvm x ecc) := noWord _
theorem leRcp (x : LaneId) (ecc : Ecc) : Statement (.leRcp x ecc) := noWord _
theorem leSqr (x : LaneId) (ecc : Ecc) : Statement (.leSqr x ecc) := noWord _
theorem leOut (x : LaneId) (ecc : Ecc) : Statement (.leOut x ecc) := noWord _
theorem leWait (x : LaneId) (ecc : Ecc) : Statement (.leWait x ecc) := noWord _
theorem waitEventComplete (x : LaneId) : Statement (.waitEventComplete x) := noWord _
theorem waitTimeout (x : LaneId) : Statement (.waitTimeout x) := noWord _
theorem leEnd (x : LaneId) (ecc : Ecc) : Statement (.leEnd x ecc) := noWord _
theorem deadlineMiss (x : LaneId) (n : Fin 8) : Statement (.deadlineMiss x n) := noWord _
theorem paceMeasurement (x : LaneId) (pace : Nat) : Statement (.paceMeasurement x pace) := noWord _
theorem leFireFire (x : LaneId) (mask : BitVec 8) : Statement (.leFireFire x mask) := noWord _
theorem leFireEvt (x : LaneId) : Statement (.leFireEvt x) := noWord _
theorem triggerEnable (x : LaneId) (n : Fin 8) (v : Word) : Statement (.triggerEnable x n v) := noWord _
theorem scanEnd (x : LaneId) (n : Fin 8) : Statement (.scanEnd x n) := noWord _
theorem programSwap (x : LaneId) (v : Word) : Statement (.programSwap x v) := noWord _
theorem programWordWrite (x : LaneId) (i : Fin 4096) (high : Bool) (v : Word) : Statement (.programWordWrite x i high v) := noWord _
theorem signalWordWrite (x : LaneId) (i : Fin 4096) (v : Word) : Statement (.signalWordWrite x i v) := noWord _
theorem coeffWordWrite (x : LaneId) (k : Fin 1024) (v : Word) : Statement (.coeffWordWrite x k v) := noWord _
theorem cswapRequest (x : LaneId) (v : Word) : Statement (.cswapRequest x v) := noWord _
theorem cswapIdleApply (x : LaneId) : Statement (.cswapIdleApply x) := noWord _
theorem cswapAtRequest (x : LaneId) (v : Word) : Statement (.cswapAtRequest x v) := noWord _
theorem swapCopyEnd (x : LaneId) : Statement (.swapCopyEnd x) := noWord _
theorem holdSchedule (x : LaneId) (v : Word) : Statement (.holdSchedule x v) := noWord _
theorem carrierWrite (x : LaneId) (v : Word) : Statement (.carrierWrite x v) := noWord _
theorem brReqOff (x : LaneId) (b : Fin 2) : Statement (.brReqOff x b) := noWord _
theorem brReqCatch (x : LaneId) (b : Fin 2) : Statement (.brReqCatch x b) := noWord _
theorem brReqDirect (x : LaneId) (b : Fin 2) : Statement (.brReqDirect x b) := noWord _
theorem catchTimeout (x : LaneId) (b : Fin 2) : Statement (.catchTimeout x b) := noWord _
theorem zeroEnd (x : LaneId) (b : Fin 2) : Statement (.zeroEnd x b) := noWord _
theorem lockedRotor (x : LaneId) (b : Fin 2) : Statement (.lockedRotor x b) := noWord _
theorem amCal (x : LaneId) : Statement (.amCal x) := noWord _
theorem amCalEnd (x : LaneId) : Statement (.amCalEnd x) := noWord _
theorem hallEdge (x : LaneId) (b : Fin 2) (lines : HallLines) : Statement (.hallEdge x b lines) := noWord _
theorem observerLoss (x : LaneId) (b : Fin 2) : Statement (.observerLoss x b) := noWord _
theorem standstill (x : LaneId) (b : Fin 2) : Statement (.standstill x b) := noWord _
theorem hallSetLost (x : LaneId) (b : Fin 2) : Statement (.hallSetLost x b) := noWord _
theorem encoderStep (x : LaneId) (b : Fin 2) : Statement (.encoderStep x b) := noWord _
theorem encoderEnable (x : LaneId) (b : Fin 2) (v : Word) : Statement (.encoderEnable x b v) := noWord _
theorem encoderDisable (x : LaneId) (b : Fin 2) (v : Word) : Statement (.encoderDisable x b v) := noWord _
theorem encoderDrained (x : LaneId) (b : Fin 2) : Statement (.encoderDrained x b) := noWord _
theorem sentFrame (x : LaneId) (s : Fin 2) (frame : SentFrame) : Statement (.sentFrame x s frame) := noWord _
theorem sentTimeout (x : LaneId) (s : Fin 2) : Statement (.sentTimeout x s) := noWord _
theorem analogConversion (x : LaneId) (a : Fin 4) (code : BitVec 12) : Statement (.analogConversion x a code) := noWord _
theorem switchInputEdge (x : LaneId) (b : Fin 2) (ph : Fin 3) (high on : Bool) : Statement (.switchInputEdge x b ph high on) := noWord _
theorem deadTimeEnd (x : LaneId) (b : Fin 2) (ph : Fin 3) (high : Bool) : Statement (.deadTimeEnd x b ph high) := noWord _
theorem profilePhaseEnd (x : LaneId) (b : Fin 2) (ph : Fin 3) (high : Bool) : Statement (.profilePhaseEnd x b ph high) := noWord _
theorem dieLinkLoss (x : LaneId) : Statement (.dieLinkLoss x) := noWord _
theorem bootstrapUndervoltage (x : LaneId) (b : Fin 2) (ph : Fin 3) : Statement (.bootstrapUndervoltage x b ph) := noWord _
theorem gateSupplyUndervoltage (x : LaneId) : Statement (.gateSupplyUndervoltage x) := noWord _
theorem gateSupplyRecovery (x : LaneId) : Statement (.gateSupplyRecovery x) := noWord _
theorem desatDetection (x : LaneId) (b : Fin 2) (high low : BitVec 3) : Statement (.desatDetection x b high low) := noWord _
theorem hardShortDetection (x : LaneId) (b : Fin 2) (phases : BitVec 3) : Statement (.hardShortDetection x b phases) := noWord _
theorem shortSequenceStage (x : LaneId) (b : Fin 2) : Statement (.shortSequenceStage x b) := noWord _
theorem shortSequenceEnd (x : LaneId) (b : Fin 2) : Statement (.shortSequenceEnd x b) := noWord _
theorem enLow (x : LaneId) (ns : Nat) : Statement (.enLow x ns) := noWord _
theorem enRise (x : LaneId) : Statement (.enRise x) := noWord _
theorem torqueOffLine (x : LaneId) : Statement (.torqueOffLine x) := noWord _
theorem profileWrite (x : LaneId) (b e : Fin 2) (v : Word) : Statement (.profileWrite x b e v) := noWord _
theorem directWrite (x : LaneId) (b : Fin 2) (v : Word) : Statement (.directWrite x b v) := noWord _
theorem commitGateTransaction (x : LaneId) (t0 t1 : CoreTxn) : Statement (.commitGateTransaction x t0 t1) := noWord _
theorem partnerTimeout (x : LaneId) (late : Fin 2) (addr : Word) : Statement (.partnerTimeout x late addr) := noWord _
theorem pairRestartEnd (x : LaneId) : Statement (.pairRestartEnd x) := noWord _
theorem coreInternalFault (x : LaneId) (core : Fin 2) : Statement (.coreInternalFault x core) := noWord _
theorem wfi (x : LaneId) : Statement (.wfi x) := noWord _
theorem splitRequest (x : LaneId) (lead : Fin 2) : Statement (.splitRequest x lead) := noWord _
theorem rejoinRequest (x : LaneId) : Statement (.rejoinRequest x) := noWord _
theorem drainTimeout (x : LaneId) : Statement (.drainTimeout x) := noWord _
theorem debugHalt (x : LaneId) (core : Fin 2) : Statement (.debugHalt x core) := noWord _
theorem debugResume (x : LaneId) (core : Fin 2) : Statement (.debugResume x core) := noWord _
theorem debugSingleStep (x : LaneId) (core : Fin 2) : Statement (.debugSingleStep x core) := noWord _
theorem tsEvent (x : LaneId) (s : Fin 256) : Statement (.tsEvent x s) := noWord _
theorem signal (x : LaneId) (task : Fin 256) (flag : Fin 32) : Statement (.signal x task flag) := noWord _
theorem flagClear (x : LaneId) (task : Fin 256) (v : Word) : Statement (.flagClear x task v) := noWord _
theorem dispatchRead (x : LaneId) (target : Fin 2) : Statement (.dispatchRead x target) := noWord _
theorem dispatchAck (x : LaneId) (target : Fin 2) : Statement (.dispatchAck x target) := noWord _
theorem tsYield (x : LaneId) (target : Fin 2) : Statement (.tsYield x target) := noWord _
theorem tsYieldEnd (x : LaneId) (target : Fin 2) : Statement (.tsYieldEnd x target) := noWord _
theorem taskEnable (x : LaneId) (task : Fin 256) : Statement (.taskEnable x task) := noWord _
theorem taskDisable (x : LaneId) (task : Fin 256) : Statement (.taskDisable x task) := noWord _
theorem taskRestart (x : LaneId) (task : Fin 256) : Statement (.taskRestart x task) := noWord _
theorem queuePush (x : LaneId) (q : Fin 64) (data : BitVec 31) (core : Bool) : Statement (.queuePush x q data core) := noWord _
theorem queuePushTimeout (x : LaneId) (q : Fin 64) : Statement (.queuePushTimeout x q) := noWord _
theorem queueSpacePush (x : LaneId) (q : Fin 64) : Statement (.queueSpacePush x q) := noWord _
theorem queuePop (x : LaneId) (q : Fin 64) : Statement (.queuePop x q) := noWord _
theorem flowAdmit (x : LaneId) (f : Fin 32) (task : Fin 256) : Statement (.flowAdmit x f task) := noWord _
theorem flowDone (x : LaneId) (f : Fin 32) (v : Word) : Statement (.flowDone x f v) := noWord _
theorem flowRelease (x : LaneId) (f : Fin 32) : Statement (.flowRelease x f) := noWord _
theorem ixRenewal (x : LaneId) (throughout : List (Nat × Nat)) : Statement (.ixRenewal x throughout) := noWord _
theorem ixGrant (x : LaneId) (reqs : List IxReq) : Statement (.ixGrant x reqs) := noWord _
theorem weightWrite (x : LaneId) (r : Fin 11) (v : Word) : Statement (.weightWrite x r v) := noWord _
theorem syncReceived (x : LaneId) (d port : Fin 2) (msg : SyncMsg) : Statement (.syncReceived x d port msg) := noWord _
theorem followUpReceived (x : LaneId) (d : Fin 2) (msg : SyncMsg) : Statement (.followUpReceived x d msg) := noWord _
theorem followUpTimeout (x : LaneId) (d : Fin 2) : Statement (.followUpTimeout x d) := noWord _
theorem announceReceived (x : LaneId) (d port : Fin 2) (gm : BitVec 64) (msg : AnnounceMsg) : Statement (.announceReceived x d port gm msg) := noWord _
theorem pdelayMessage (x : LaneId) (port : Fin 2) (msg : PdelayMsg) : Statement (.pdelayMessage x port msg) := noWord _
theorem pdelayReqTimer (x : LaneId) (port : Fin 2) : Statement (.pdelayReqTimer x port) := noWord _
theorem syncDeparture (x : LaneId) (d port : Fin 2) (tTx : Nat) : Statement (.syncDeparture x d port tTx) := noWord _
theorem receiptTimeout (x : LaneId) (d : Fin 2) : Statement (.receiptTimeout x d) := noWord _
theorem slewComplete (x : LaneId) : Statement (.slewComplete x) := noWord _
theorem revertQualified (x : LaneId) : Statement (.revertQualified x) := noWord _
theorem comparatorFire (x : LaneId) (c : Fin 16) : Statement (.comparatorFire x c) := noWord _
theorem snapshot (x : LaneId) : Statement (.snapshot x) := noWord _
theorem timeLoRead (x : LaneId) (requester : Fin 11) (base : Fin 8) : Statement (.timeLoRead x requester base) := noWord _
theorem resync (x : LaneId) : Statement (.resync x) := noWord _
theorem deputyHallEdge (x : LaneId) (b : Fin 2) (lines : HallLines) : Statement (.deputyHallEdge x b lines) := noWord _
theorem deputySpeedTimeout (x : LaneId) (b : Fin 2) : Statement (.deputySpeedTimeout x b) := noWord _
theorem smCmdStop (x : LaneId) : Statement (.smCmdStop x) := noWord _
theorem smCmdToff (x : LaneId) : Statement (.smCmdToff x) := noWord _
theorem smCmdRelease (x : LaneId) : Statement (.smCmdRelease x) := noWord _
theorem smCmdAbort (x : LaneId) : Statement (.smCmdAbort x) := noWord _
theorem stopGraceExpiry (x : LaneId) : Statement (.stopGraceExpiry x) := noWord _
theorem stopHoldExpiry (x : LaneId) : Statement (.stopHoldExpiry x) := noWord _
theorem siSample (x : LaneId) (levels : BitVec 8) : Statement (.siSample x levels) := noWord _
theorem siFilterChange (x : LaneId) (i : Fin 8) : Statement (.siFilterChange x i) := noWord _
theorem testPulseStart (x : LaneId) (n : Fin 4) : Statement (.testPulseStart x n) := noWord _
theorem testPulseEnd (x : LaneId) (n : Fin 4) : Statement (.testPulseEnd x n) := noWord _
theorem siFaultClear (x : LaneId) (mask : BitVec 8) : Statement (.siFaultClear x mask) := noWord _
theorem sxSend (x : LaneId) (v : Word) : Statement (.sxSend x v) := noWord _
theorem sxUnitReceived (x : LaneId) (route : Fin 3) (unit : List Byte) : Statement (.sxUnitReceived x route unit) := noWord _
theorem sxExpiry (x : LaneId) (c : Fin 64) : Statement (.sxExpiry x c) := noWord _
theorem fmForce (x : LaneId) (g : Fin 6) (v : Word) : Statement (.fmForce x g v) := noWord _
theorem fmStatusClear (x : LaneId) (g : Fin 6) (v : Word) : Statement (.fmStatusClear x g v) := noWord _
theorem fmNmtAck (x : LaneId) : Statement (.fmNmtAck x) := noWord _
theorem fmBallPrel (x : LaneId) : Statement (.fmBallPrel x) := noWord _
theorem errpHoldExpiry (x : LaneId) : Statement (.errpHoldExpiry x) := noWord _
theorem quietPeriodEnd (x : LaneId) (s : Fin 192) : Statement (.quietPeriodEnd x s) := noWord _
theorem laneResetReaction (x : LaneId) : Statement (.laneResetReaction x) := noWord _
theorem modeRequest (x : LaneId) (target : Fin 8) : Statement (.modeRequest x target) := noWord _
theorem precedenceWrite (x : LaneId) (v : Word) : Statement (.precedenceWrite x v) := noWord _
theorem importWrite (x : LaneId) (i : Fin 8) (v : Word) : Statement (.importWrite x i v) := noWord _
theorem commandLinkSyncLoss (x : LaneId) : Statement (.commandLinkSyncLoss x) := noWord _
theorem commandLinkUp (x : LaneId) (route : Fin 3) : Statement (.commandLinkUp x route) := noWord _
theorem ordPing (x : LaneId) (via : FrameVia) (syms : List Sym) : Statement (.ordPing x via syms) := noWord _
theorem ordRead (x : LaneId) (via : FrameVia) (syms : List Sym) : Statement (.ordRead x via syms) := noWord _
theorem ordWrite (x : LaneId) (via : FrameVia) (syms : List Sym) : Statement (.ordWrite x via syms) := noWord _
theorem ordMode (x : LaneId) (via : FrameVia) (syms : List Sym) : Statement (.ordMode x via syms) := noWord _
theorem ordToff (x : LaneId) (via : FrameVia) (syms : List Sym) : Statement (.ordToff x via syms) := noWord _
theorem ordStop (x : LaneId) (via : FrameVia) (syms : List Sym) : Statement (.ordStop x via syms) := noWord _
theorem ordRelease (x : LaneId) (via : FrameVia) (syms : List Sym) : Statement (.ordRelease x via syms) := noWord _
theorem ordOneway (x : LaneId) (via : FrameVia) (syms : List Sym) : Statement (.ordOneway x via syms) := noWord _
theorem ordAbort (x : LaneId) (via : FrameVia) (syms : List Sym) : Statement (.ordAbort x via syms) := noWord _
theorem ordRamp (x : LaneId) (via : FrameVia) (syms : List Sym) : Statement (.ordRamp x via syms) := noWord _
theorem ordMotionSelect (x : LaneId) (via : FrameVia) (syms : List Sym) : Statement (.ordMotionSelect x via syms) := noWord _
theorem ordSubscribe (x : LaneId) (via : FrameVia) (syms : List Sym) : Statement (.ordSubscribe x via syms) := noWord _
theorem ordFaultClear (x : LaneId) (via : FrameVia) (syms : List Sym) : Statement (.ordFaultClear x via syms) := noWord _
theorem ordPower (x : LaneId) (via : FrameVia) (syms : List Sym) : Statement (.ordPower x via syms) := noWord _
theorem ordScriptLoad (x : LaneId) (via : FrameVia) (syms : List Sym) : Statement (.ordScriptLoad x via syms) := noWord _
theorem ordScriptRun (x : LaneId) (via : FrameVia) (syms : List Sym) : Statement (.ordScriptRun x via syms) := noWord _
theorem ordRecord (x : LaneId) (via : FrameVia) (syms : List Sym) : Statement (.ordRecord x via syms) := noWord _
theorem ordBist (x : LaneId) (via : FrameVia) (syms : List Sym) : Statement (.ordBist x via syms) := noWord _
theorem responseSend (x : LaneId) (route : Fin 3) : Statement (.responseSend x route) := noWord _
theorem reportSend (x : LaneId) (route : Fin 3) : Statement (.reportSend x route) := noWord _
theorem scrOrder (x : LaneId) : Statement (.scrOrder x) := noWord _
theorem scrWaitTime (x : LaneId) : Statement (.scrWaitTime x) := noWord _
theorem scrWaitTimeEnd (x : LaneId) : Statement (.scrWaitTimeEnd x) := noWord _
theorem scrWaitOp (x : LaneId) : Statement (.scrWaitOp x) := noWord _
theorem scrWaitOpEnd (x : LaneId) : Statement (.scrWaitOpEnd x) := noWord _
theorem scrSkip (x : LaneId) : Statement (.scrSkip x) := noWord _
theorem scrCommit (x : LaneId) : Statement (.scrCommit x) := noWord _
theorem scrEnd (x : LaneId) : Statement (.scrEnd x) := noWord _
theorem pmReqGo (x : LaneId) (target : Fin 8) : Statement (.pmReqGo x target) := noWord _
theorem entryAbortPoint (x : LaneId) : Statement (.entryAbortPoint x) := noWord _
theorem domainSwitchOff (x : LaneId) : Statement (.domainSwitchOff x) := noWord _
theorem wake (x : LaneId) (src : Fin 6) : Statement (.wake x src) := noWord _
theorem wakeTimer (x : LaneId) : Statement (.wakeTimer x) := noWord _
theorem exitComplete (x : LaneId) : Statement (.exitComplete x) := noWord _
theorem padRelease (x : LaneId) : Statement (.padRelease x) := noWord _
theorem tmSample (x : LaneId) (codes : List (BitVec 12)) : Statement (.tmSample x codes) := noWord _
theorem nvWindowOpen (x : LaneId) : Statement (.nvWindowOpen x) := noWord _
theorem recordWriteRequest (x : LaneId) (slot : Fin 64) : Statement (.recordWriteRequest x slot) := noWord _
theorem recordWriteAbort (x : LaneId) (slot : Fin 64) : Statement (.recordWriteAbort x slot) := noWord _
theorem recordWriteCommit (x : LaneId) (ok : Bool) : Statement (.recordWriteCommit x ok) := noWord _
theorem canarySlice (x : LaneId) : Statement (.canarySlice x) := noWord _
theorem canarySliceEnd (x : LaneId) (fail : Option Word) : Statement (.canarySliceEnd x fail) := noWord _
theorem bistEnd (x : LaneId) : Statement (.bistEnd x) := noWord _
theorem lbistRequest (x : LaneId) : Statement (.lbistRequest x) := noWord _
theorem lbistEnd (x : LaneId) : Statement (.lbistEnd x) := noWord _
theorem fuseBurn (x : LaneId) : Statement (.fuseBurn x) := noWord _
theorem fuseBurnEnd (x : LaneId) : Statement (.fuseBurnEnd x) := noWord _
theorem registerWrite (x : LaneId) (addr : Word) (v : Word) : Statement (.registerWrite x addr v) := noWord _
theorem bootstrapRecovery (x : LaneId) (b : Fin 2) (ph : Fin 3) : Statement (.bootstrapRecovery x b ph) := noWord _
theorem commandLinkInSync (x : LaneId) : Statement (.commandLinkInSync x) := noWord _
theorem canFdErrorStateChange (x : LaneId) (st : CanState) : Statement (.canFdErrorStateChange x st) := noWord _
theorem throttlePauseEnd (x : LaneId) : Statement (.throttlePauseEnd x) := noWord _
theorem limitedRateRelease (x : LaneId) (b : Fin 2) : Statement (.limitedRateRelease x b) := noWord _
theorem phyResetRelease (x : LaneId) : Statement (.phyResetRelease x) := noWord _
theorem debugSessionChange (x : LaneId) (isOpen : Bool) : Statement (.debugSessionChange x isOpen) := noWord _

end Sys2Proof.Laws.Unspelled
end

