-- ==== Sys2Proof/Laws/State.lean ====
section
/-! SUPPORT. The small laws of the state: what each update of a lane, of a memory and of the machine leaves as it was, and what a
register field reads after a write. -/

namespace Sys2Proof.Machine

@[simp] theorem Lane.set_me (L : Lane) (f : Fld) (v : Nat) : (L.set f v).me = L.me := rfl
@[simp] theorem Lane.set_run (L : Lane) (f : Fld) (v : Nat) : (L.set f v).run = L.run := rfl
@[simp] theorem Lane.set_free (L : Lane) (f : Fld) (v : Nat) : (L.set f v).free = L.free := rfl
@[simp] theorem Lane.set_md (L : Lane) (f : Fld) (v : Nat) : (L.set f v).md = L.md := rfl
@[simp] theorem Lane.set_le (L : Lane) (f : Fld) (v : Nat) : (L.set f v).le = L.le := rfl
@[simp] theorem Lane.set_fc (L : Lane) (f : Fld) (v : Nat) : (L.set f v).fc = L.fc := rfl
@[simp] theorem Lane.set_af (L : Lane) (f : Fld) (v : Nat) : (L.set f v).af = L.af := rfl
@[simp] theorem Lane.set_gd (L : Lane) (f : Fld) (v : Nat) : (L.set f v).gd = L.gd := rfl
@[simp] theorem Lane.set_cp (L : Lane) (f : Fld) (v : Nat) : (L.set f v).cp = L.cp := rfl
@[simp] theorem Lane.set_ts (L : Lane) (f : Fld) (v : Nat) : (L.set f v).ts = L.ts := rfl
@[simp] theorem Lane.set_ix (L : Lane) (f : Fld) (v : Nat) : (L.set f v).ix = L.ix := rfl
@[simp] theorem Lane.set_xf (L : Lane) (f : Fld) (v : Nat) : (L.set f v).xf = L.xf := rfl
@[simp] theorem Lane.set_vf (L : Lane) (f : Fld) (v : Nat) : (L.set f v).vf = L.vf := rfl
@[simp] theorem Lane.set_tb (L : Lane) (f : Fld) (v : Nat) : (L.set f v).tb = L.tb := rfl
@[simp] theorem Lane.set_sm (L : Lane) (f : Fld) (v : Nat) : (L.set f v).sm = L.sm := rfl
@[simp] theorem Lane.set_sx (L : Lane) (f : Fld) (v : Nat) : (L.set f v).sx = L.sx := rfl
@[simp] theorem Lane.set_fm (L : Lane) (f : Fld) (v : Nat) : (L.set f v).fm = L.fm := rfl
@[simp] theorem Lane.set_hl (L : Lane) (f : Fld) (v : Nat) : (L.set f v).hl = L.hl := rfl
@[simp] theorem Lane.set_pm (L : Lane) (f : Fld) (v : Nat) : (L.set f v).pm = L.pm := rfl
@[simp] theorem Lane.set_tm (L : Lane) (f : Fld) (v : Nat) : (L.set f v).tm = L.tm := rfl
@[simp] theorem Lane.set_st (L : Lane) (f : Fld) (v : Nat) : (L.set f v).st = L.st := rfl
@[simp] theorem Lane.set_rs (L : Lane) (f : Fld) (v : Nat) : (L.set f v).rs = L.rs := rfl
@[simp] theorem Lane.set_pins (L : Lane) (f : Fld) (v : Nat) : (L.set f v).pins = L.pins := rfl

@[simp] theorem Lane.get_set_same (L : Lane) (f : Fld) (v : Nat) : (L.set f v).get f = v % 2 ^ f.width := by
  simp [Lane.get, Lane.set]

theorem Lane.get_set_other (L : Lane) {f g : Fld} (v : Nat) (h : g.key ≠ f.key) : (L.set f v).get g = L.get g := by
  simp [Lane.get, Lane.set, spGet_set_other _ _ _ h]

theorem Lane.get_of_regs {L M : Lane} (h : M.regs = L.regs) (f : Fld) : M.get f = L.get f := by simp [Lane.get, h]

@[simp] theorem Lane.setTask_me (L : Lane) (n : Nat) (t : TaskX) : (L.setTask n t).me = L.me := rfl
@[simp] theorem Lane.setTask_regs (L : Lane) (n : Nat) (t : TaskX) : (L.setTask n t).regs = L.regs := rfl
@[simp] theorem Lane.setTask_run (L : Lane) (n : Nat) (t : TaskX) : (L.setTask n t).run = L.run := rfl
@[simp] theorem Lane.setTask_free (L : Lane) (n : Nat) (t : TaskX) : (L.setTask n t).free = L.free := rfl
@[simp] theorem Lane.setTask_md (L : Lane) (n : Nat) (t : TaskX) : (L.setTask n t).md = L.md := rfl
@[simp] theorem Lane.setTask_le (L : Lane) (n : Nat) (t : TaskX) : (L.setTask n t).le = L.le := rfl
@[simp] theorem Lane.setTask_fc (L : Lane) (n : Nat) (t : TaskX) : (L.setTask n t).fc = L.fc := rfl
@[simp] theorem Lane.setTask_af (L : Lane) (n : Nat) (t : TaskX) : (L.setTask n t).af = L.af := rfl
@[simp] theorem Lane.setTask_gd (L : Lane) (n : Nat) (t : TaskX) : (L.setTask n t).gd = L.gd := rfl
@[simp] theorem Lane.setTask_cp (L : Lane) (n : Nat) (t : TaskX) : (L.setTask n t).cp = L.cp := rfl
@[simp] theorem Lane.setTask_ix (L : Lane) (n : Nat) (t : TaskX) : (L.setTask n t).ix = L.ix := rfl
@[simp] theorem Lane.setTask_xf (L : Lane) (n : Nat) (t : TaskX) : (L.setTask n t).xf = L.xf := rfl
@[simp] theorem Lane.setTask_vf (L : Lane) (n : Nat) (t : TaskX) : (L.setTask n t).vf = L.vf := rfl
@[simp] theorem Lane.setTask_tb (L : Lane) (n : Nat) (t : TaskX) : (L.setTask n t).tb = L.tb := rfl
@[simp] theorem Lane.setTask_sm (L : Lane) (n : Nat) (t : TaskX) : (L.setTask n t).sm = L.sm := rfl
@[simp] theorem Lane.setTask_sx (L : Lane) (n : Nat) (t : TaskX) : (L.setTask n t).sx = L.sx := rfl
@[simp] theorem Lane.setTask_fm (L : Lane) (n : Nat) (t : TaskX) : (L.setTask n t).fm = L.fm := rfl
@[simp] theorem Lane.setTask_hl (L : Lane) (n : Nat) (t : TaskX) : (L.setTask n t).hl = L.hl := rfl
@[simp] theorem Lane.setTask_pm (L : Lane) (n : Nat) (t : TaskX) : (L.setTask n t).pm = L.pm := rfl
@[simp] theorem Lane.setTask_tm (L : Lane) (n : Nat) (t : TaskX) : (L.setTask n t).tm = L.tm := rfl
@[simp] theorem Lane.setTask_st (L : Lane) (n : Nat) (t : TaskX) : (L.setTask n t).st = L.st := rfl
@[simp] theorem Lane.setTask_rs (L : Lane) (n : Nat) (t : TaskX) : (L.setTask n t).rs = L.rs := rfl
@[simp] theorem Lane.setTask_pins (L : Lane) (n : Nat) (t : TaskX) : (L.setTask n t).pins = L.pins := rfl
@[simp] theorem Lane.setTarget_me (L : Lane) (n : Nat) (g : Target) : (L.setTarget n g).me = L.me := rfl
@[simp] theorem Lane.setTarget_regs (L : Lane) (n : Nat) (g : Target) : (L.setTarget n g).regs = L.regs := rfl
@[simp] theorem Lane.setTarget_run (L : Lane) (n : Nat) (g : Target) : (L.setTarget n g).run = L.run := rfl
@[simp] theorem Lane.setTarget_free (L : Lane) (n : Nat) (g : Target) : (L.setTarget n g).free = L.free := rfl
@[simp] theorem Lane.setTarget_md (L : Lane) (n : Nat) (g : Target) : (L.setTarget n g).md = L.md := rfl
@[simp] theorem Lane.setTarget_le (L : Lane) (n : Nat) (g : Target) : (L.setTarget n g).le = L.le := rfl
@[simp] theorem Lane.setTarget_fc (L : Lane) (n : Nat) (g : Target) : (L.setTarget n g).fc = L.fc := rfl
@[simp] theorem Lane.setTarget_af (L : Lane) (n : Nat) (g : Target) : (L.setTarget n g).af = L.af := rfl
@[simp] theorem Lane.setTarget_gd (L : Lane) (n : Nat) (g : Target) : (L.setTarget n g).gd = L.gd := rfl
@[simp] theorem Lane.setTarget_cp (L : Lane) (n : Nat) (g : Target) : (L.setTarget n g).cp = L.cp := rfl
@[simp] theorem Lane.setTarget_ix (L : Lane) (n : Nat) (g : Target) : (L.setTarget n g).ix = L.ix := rfl
@[simp] theorem Lane.setTarget_xf (L : Lane) (n : Nat) (g : Target) : (L.setTarget n g).xf = L.xf := rfl
@[simp] theorem Lane.setTarget_vf (L : Lane) (n : Nat) (g : Target) : (L.setTarget n g).vf = L.vf := rfl
@[simp] theorem Lane.setTarget_tb (L : Lane) (n : Nat) (g : Target) : (L.setTarget n g).tb = L.tb := rfl
@[simp] theorem Lane.setTarget_sm (L : Lane) (n : Nat) (g : Target) : (L.setTarget n g).sm = L.sm := rfl
@[simp] theorem Lane.setTarget_sx (L : Lane) (n : Nat) (g : Target) : (L.setTarget n g).sx = L.sx := rfl
@[simp] theorem Lane.setTarget_fm (L : Lane) (n : Nat) (g : Target) : (L.setTarget n g).fm = L.fm := rfl
@[simp] theorem Lane.setTarget_hl (L : Lane) (n : Nat) (g : Target) : (L.setTarget n g).hl = L.hl := rfl
@[simp] theorem Lane.setTarget_pm (L : Lane) (n : Nat) (g : Target) : (L.setTarget n g).pm = L.pm := rfl
@[simp] theorem Lane.setTarget_tm (L : Lane) (n : Nat) (g : Target) : (L.setTarget n g).tm = L.tm := rfl
@[simp] theorem Lane.setTarget_st (L : Lane) (n : Nat) (g : Target) : (L.setTarget n g).st = L.st := rfl
@[simp] theorem Lane.setTarget_rs (L : Lane) (n : Nat) (g : Target) : (L.setTarget n g).rs = L.rs := rfl
@[simp] theorem Lane.setTarget_pins (L : Lane) (n : Nat) (g : Target) : (L.setTarget n g).pins = L.pins := rfl
@[simp] theorem Lane.setSw_me (L : Lane) (k : Nat) (w : Sw) : (L.setSw k w).me = L.me := rfl
@[simp] theorem Lane.setSw_regs (L : Lane) (k : Nat) (w : Sw) : (L.setSw k w).regs = L.regs := rfl
@[simp] theorem Lane.setSw_run (L : Lane) (k : Nat) (w : Sw) : (L.setSw k w).run = L.run := rfl
@[simp] theorem Lane.setSw_free (L : Lane) (k : Nat) (w : Sw) : (L.setSw k w).free = L.free := rfl
@[simp] theorem Lane.setSw_md (L : Lane) (k : Nat) (w : Sw) : (L.setSw k w).md = L.md := rfl
@[simp] theorem Lane.setSw_le (L : Lane) (k : Nat) (w : Sw) : (L.setSw k w).le = L.le := rfl
@[simp] theorem Lane.setSw_fc (L : Lane) (k : Nat) (w : Sw) : (L.setSw k w).fc = L.fc := rfl
@[simp] theorem Lane.setSw_af (L : Lane) (k : Nat) (w : Sw) : (L.setSw k w).af = L.af := rfl
@[simp] theorem Lane.setSw_cp (L : Lane) (k : Nat) (w : Sw) : (L.setSw k w).cp = L.cp := rfl
@[simp] theorem Lane.setSw_ts (L : Lane) (k : Nat) (w : Sw) : (L.setSw k w).ts = L.ts := rfl
@[simp] theorem Lane.setSw_ix (L : Lane) (k : Nat) (w : Sw) : (L.setSw k w).ix = L.ix := rfl
@[simp] theorem Lane.setSw_xf (L : Lane) (k : Nat) (w : Sw) : (L.setSw k w).xf = L.xf := rfl
@[simp] theorem Lane.setSw_vf (L : Lane) (k : Nat) (w : Sw) : (L.setSw k w).vf = L.vf := rfl
@[simp] theorem Lane.setSw_tb (L : Lane) (k : Nat) (w : Sw) : (L.setSw k w).tb = L.tb := rfl
@[simp] theorem Lane.setSw_sm (L : Lane) (k : Nat) (w : Sw) : (L.setSw k w).sm = L.sm := rfl
@[simp] theorem Lane.setSw_sx (L : Lane) (k : Nat) (w : Sw) : (L.setSw k w).sx = L.sx := rfl
@[simp] theorem Lane.setSw_fm (L : Lane) (k : Nat) (w : Sw) : (L.setSw k w).fm = L.fm := rfl
@[simp] theorem Lane.setSw_hl (L : Lane) (k : Nat) (w : Sw) : (L.setSw k w).hl = L.hl := rfl
@[simp] theorem Lane.setSw_pm (L : Lane) (k : Nat) (w : Sw) : (L.setSw k w).pm = L.pm := rfl
@[simp] theorem Lane.setSw_tm (L : Lane) (k : Nat) (w : Sw) : (L.setSw k w).tm = L.tm := rfl
@[simp] theorem Lane.setSw_st (L : Lane) (k : Nat) (w : Sw) : (L.setSw k w).st = L.st := rfl
@[simp] theorem Lane.setSw_rs (L : Lane) (k : Nat) (w : Sw) : (L.setSw k w).rs = L.rs := rfl
@[simp] theorem Lane.setSw_pins (L : Lane) (k : Nat) (w : Sw) : (L.setSw k w).pins = L.pins := rfl
@[simp] theorem Lane.setBr_me (L : Lane) (b : Nat) (r : FcBr) : (L.setBr b r).me = L.me := rfl
@[simp] theorem Lane.setBr_regs (L : Lane) (b : Nat) (r : FcBr) : (L.setBr b r).regs = L.regs := rfl
@[simp] theorem Lane.setBr_run (L : Lane) (b : Nat) (r : FcBr) : (L.setBr b r).run = L.run := rfl
@[simp] theorem Lane.setBr_free (L : Lane) (b : Nat) (r : FcBr) : (L.setBr b r).free = L.free := rfl
@[simp] theorem Lane.setBr_md (L : Lane) (b : Nat) (r : FcBr) : (L.setBr b r).md = L.md := rfl
@[simp] theorem Lane.setBr_le (L : Lane) (b : Nat) (r : FcBr) : (L.setBr b r).le = L.le := rfl
@[simp] theorem Lane.setBr_af (L : Lane) (b : Nat) (r : FcBr) : (L.setBr b r).af = L.af := rfl
@[simp] theorem Lane.setBr_gd (L : Lane) (b : Nat) (r : FcBr) : (L.setBr b r).gd = L.gd := rfl
@[simp] theorem Lane.setBr_cp (L : Lane) (b : Nat) (r : FcBr) : (L.setBr b r).cp = L.cp := rfl
@[simp] theorem Lane.setBr_ts (L : Lane) (b : Nat) (r : FcBr) : (L.setBr b r).ts = L.ts := rfl
@[simp] theorem Lane.setBr_ix (L : Lane) (b : Nat) (r : FcBr) : (L.setBr b r).ix = L.ix := rfl
@[simp] theorem Lane.setBr_xf (L : Lane) (b : Nat) (r : FcBr) : (L.setBr b r).xf = L.xf := rfl
@[simp] theorem Lane.setBr_vf (L : Lane) (b : Nat) (r : FcBr) : (L.setBr b r).vf = L.vf := rfl
@[simp] theorem Lane.setBr_tb (L : Lane) (b : Nat) (r : FcBr) : (L.setBr b r).tb = L.tb := rfl
@[simp] theorem Lane.setBr_sm (L : Lane) (b : Nat) (r : FcBr) : (L.setBr b r).sm = L.sm := rfl
@[simp] theorem Lane.setBr_sx (L : Lane) (b : Nat) (r : FcBr) : (L.setBr b r).sx = L.sx := rfl
@[simp] theorem Lane.setBr_fm (L : Lane) (b : Nat) (r : FcBr) : (L.setBr b r).fm = L.fm := rfl
@[simp] theorem Lane.setBr_hl (L : Lane) (b : Nat) (r : FcBr) : (L.setBr b r).hl = L.hl := rfl
@[simp] theorem Lane.setBr_pm (L : Lane) (b : Nat) (r : FcBr) : (L.setBr b r).pm = L.pm := rfl
@[simp] theorem Lane.setBr_tm (L : Lane) (b : Nat) (r : FcBr) : (L.setBr b r).tm = L.tm := rfl
@[simp] theorem Lane.setBr_st (L : Lane) (b : Nat) (r : FcBr) : (L.setBr b r).st = L.st := rfl
@[simp] theorem Lane.setBr_rs (L : Lane) (b : Nat) (r : FcBr) : (L.setBr b r).rs = L.rs := rfl
@[simp] theorem Lane.setBr_pins (L : Lane) (b : Nat) (r : FcBr) : (L.setBr b r).pins = L.pins := rfl
@[simp] theorem Lane.noteHeld_me (L : Lane) : L.noteHeld.me = L.me := rfl
@[simp] theorem Lane.noteHeld_regs (L : Lane) : L.noteHeld.regs = L.regs := rfl
@[simp] theorem Lane.noteHeld_run (L : Lane) : L.noteHeld.run = L.run := rfl
@[simp] theorem Lane.noteHeld_free (L : Lane) : L.noteHeld.free = L.free := rfl
@[simp] theorem Lane.noteHeld_md (L : Lane) : L.noteHeld.md = L.md := rfl
@[simp] theorem Lane.noteHeld_le (L : Lane) : L.noteHeld.le = L.le := rfl
@[simp] theorem Lane.noteHeld_fc (L : Lane) : L.noteHeld.fc = L.fc := rfl
@[simp] theorem Lane.noteHeld_af (L : Lane) : L.noteHeld.af = L.af := rfl
@[simp] theorem Lane.noteHeld_gd (L : Lane) : L.noteHeld.gd = L.gd := rfl
@[simp] theorem Lane.noteHeld_cp (L : Lane) : L.noteHeld.cp = L.cp := rfl
@[simp] theorem Lane.noteHeld_ts (L : Lane) : L.noteHeld.ts = L.ts := rfl
@[simp] theorem Lane.noteHeld_ix (L : Lane) : L.noteHeld.ix = L.ix := rfl
@[simp] theorem Lane.noteHeld_xf (L : Lane) : L.noteHeld.xf = L.xf := rfl
@[simp] theorem Lane.noteHeld_vf (L : Lane) : L.noteHeld.vf = L.vf := rfl
@[simp] theorem Lane.noteHeld_tb (L : Lane) : L.noteHeld.tb = L.tb := rfl
@[simp] theorem Lane.noteHeld_sm (L : Lane) : L.noteHeld.sm = L.sm := rfl
@[simp] theorem Lane.noteHeld_sx (L : Lane) : L.noteHeld.sx = L.sx := rfl
@[simp] theorem Lane.noteHeld_hl (L : Lane) : L.noteHeld.hl = L.hl := rfl
@[simp] theorem Lane.noteHeld_pm (L : Lane) : L.noteHeld.pm = L.pm := rfl
@[simp] theorem Lane.noteHeld_tm (L : Lane) : L.noteHeld.tm = L.tm := rfl
@[simp] theorem Lane.noteHeld_st (L : Lane) : L.noteHeld.st = L.st := rfl
@[simp] theorem Lane.noteHeld_rs (L : Lane) : L.noteHeld.rs = L.rs := rfl
@[simp] theorem Lane.noteHeld_pins (L : Lane) : L.noteHeld.pins = L.pins := rfl
@[simp] theorem Lane.noteHeld_get (L : Lane) (f : Fld) : L.noteHeld.get f = L.get f := rfl

/-! ### The machine -/

@[simp] theorem State.setLane_pending (s : State) (x : LaneId) (L : Lane) : (s.setLane x L).pending = s.pending := rfl
@[simp] theorem State.setLane_mem (s : State) (x : LaneId) (L : Lane) : (s.setLane x L).mem = s.mem := rfl
@[simp] theorem State.setLane_net (s : State) (x : LaneId) (L : Lane) : (s.setLane x L).net = s.net := rfl
@[simp] theorem State.setLane_memOf (s : State) (x y : LaneId) (L : Lane) : (s.setLane x L).memOf y = s.memOf y := rfl
@[simp] theorem State.setMem_pending (s : State) (x : LaneId) (m : Mem) : (s.setMem x m).pending = s.pending := rfl
@[simp] theorem State.setMem_lanes (s : State) (x : LaneId) (m : Mem) : (s.setMem x m).lanes = s.lanes := rfl
@[simp] theorem State.setMem_lane (s : State) (x y : LaneId) (m : Mem) : (s.setMem x m).lane y = s.lane y := rfl
@[simp] theorem State.setMem_net (s : State) (x : LaneId) (m : Mem) : (s.setMem x m).net = s.net := rfl
@[simp] theorem State.advance_pending (n : Nat) (s : State) : (s.advance n).pending = s.pending := rfl
@[simp] theorem State.advance_mem (n : Nat) (s : State) : (s.advance n).mem = s.mem := rfl
@[simp] theorem State.advance_net (n : Nat) (s : State) : (s.advance n).net = s.net := rfl

@[simp] theorem Tri.get_set_same {α : Type} (p : Tri α) (x : LaneId) (v : α) : (p.set x v).get x = v := by cases x <;> rfl

theorem Tri.get_set_other {α : Type} (p : Tri α) {x y : LaneId} (v : α) (h : y ≠ x) : (p.set x v).get y = p.get y := by
  cases x <;> cases y <;> first | rfl | exact absurd rfl h

@[simp] theorem Two.get_set_same {α : Type} (p : Two α) (i : Nat) (v : α) : (p.set i v).get i = v := by
  unfold Two.get Two.set; by_cases h : i = 0 <;> simp [h]

@[simp] theorem State.lane_setLane_same (s : State) (x : LaneId) (L : Lane) : (s.setLane x L).lane x = L := by
  simp [State.lane, State.setLane]

theorem State.lane_setLane_other (s : State) {x y : LaneId} (L : Lane) (h : y ≠ x) : (s.setLane x L).lane y = s.lane y := by
  simp [State.lane, State.setLane, Tri.get_set_other _ _ h]

@[simp] theorem State.memOf_setMem_same (s : State) (x : LaneId) (m : Mem) : (s.setMem x m).memOf x = m := by
  simp [State.memOf, State.setMem]

theorem State.memOf_setMem_other (s : State) {x y : LaneId} (m : Mem) (h : y ≠ x) : (s.setMem x m).memOf y = s.memOf y := by
  simp [State.memOf, State.setMem, Tri.get_set_other _ _ h]

@[simp] theorem State.lane_advance (n : Nat) (s : State) (x : LaneId) : (s.advance n).lane x = (s.lane x).advance n := by
  cases x <;> rfl

theorem OnlyLane.setLane (s : State) (x : LaneId) (L : Lane) : OnlyLane x s (s.setLane x L) :=
  ⟨rfl, rfl, rfl, fun _ h => State.lane_setLane_other s L h⟩

theorem OnlyLane.refl (x : LaneId) (s : State) : OnlyLane x s s := ⟨rfl, rfl, rfl, fun _ _ => rfl⟩

theorem OnlyLane.trans {x : LaneId} {s t u : State} (h : OnlyLane x s t) (k : OnlyLane x t u) : OnlyLane x s u :=
  ⟨k.pending.trans h.pending, k.mem.trans h.mem, k.net.trans h.net, fun y hy => (k.other y hy).trans (h.other y hy)⟩

theorem OnlyLaneMem.set (s : State) (x : LaneId) (L : Lane) (m : Mem) : OnlyLaneMem x s ((s.setLane x L).setMem x m) :=
  ⟨rfl, fun _ h => State.memOf_setMem_other _ m h, rfl, fun _ h => State.lane_setLane_other s L h⟩

end Sys2Proof.Machine
end

