-- ==== Sys2Proof/Laws/Touches.lean ====
section
/-! SUPPORT. What each shared operation can change in a lane, said once per operation: the parts and the register windows it
touches. -/

namespace Sys2Proof.Machine

theorem Touches.refl (P : List Part) (w : Nat → Bool) (L : Lane) : Touches P w L L where
  me := rfl
  run := .inr rfl
  free := .inr rfl
  md := .inr rfl
  le := .inr rfl
  fc := .inr rfl
  af := .inr rfl
  gd := .inr rfl
  cp := .inr rfl
  ts := .inr rfl
  ix := .inr rfl
  xf := .inr rfl
  vf := .inr rfl
  tb := .inr rfl
  sm := .inr rfl
  sx := .inr rfl
  fm := .inr rfl
  hl := .inr rfl
  pm := .inr rfl
  tm := .inr rfl
  st := .inr rfl
  rs := .inr rfl
  pins := .inr rfl
  regs _ _ := rfl

theorem Touches.trans {P : List Part} {w : Nat → Bool} {L M N : Lane} (h : Touches P w L M) (k : Touches P w M N) : Touches P w L N where
  me := k.me.trans h.me
  run := h.run.elim .inl fun a => k.run.elim .inl fun b => .inr (b.trans a)
  free := h.free.elim .inl fun a => k.free.elim .inl fun b => .inr (b.trans a)
  md := h.md.elim .inl fun a => k.md.elim .inl fun b => .inr (b.trans a)
  le := h.le.elim .inl fun a => k.le.elim .inl fun b => .inr (b.trans a)
  fc := h.fc.elim .inl fun a => k.fc.elim .inl fun b => .inr (b.trans a)
  af := h.af.elim .inl fun a => k.af.elim .inl fun b => .inr (b.trans a)
  gd := h.gd.elim .inl fun a => k.gd.elim .inl fun b => .inr (b.trans a)
  cp := h.cp.elim .inl fun a => k.cp.elim .inl fun b => .inr (b.trans a)
  ts := h.ts.elim .inl fun a => k.ts.elim .inl fun b => .inr (b.trans a)
  ix := h.ix.elim .inl fun a => k.ix.elim .inl fun b => .inr (b.trans a)
  xf := h.xf.elim .inl fun a => k.xf.elim .inl fun b => .inr (b.trans a)
  vf := h.vf.elim .inl fun a => k.vf.elim .inl fun b => .inr (b.trans a)
  tb := h.tb.elim .inl fun a => k.tb.elim .inl fun b => .inr (b.trans a)
  sm := h.sm.elim .inl fun a => k.sm.elim .inl fun b => .inr (b.trans a)
  sx := h.sx.elim .inl fun a => k.sx.elim .inl fun b => .inr (b.trans a)
  fm := h.fm.elim .inl fun a => k.fm.elim .inl fun b => .inr (b.trans a)
  hl := h.hl.elim .inl fun a => k.hl.elim .inl fun b => .inr (b.trans a)
  pm := h.pm.elim .inl fun a => k.pm.elim .inl fun b => .inr (b.trans a)
  tm := h.tm.elim .inl fun a => k.tm.elim .inl fun b => .inr (b.trans a)
  st := h.st.elim .inl fun a => k.st.elim .inl fun b => .inr (b.trans a)
  rs := h.rs.elim .inl fun a => k.rs.elim .inl fun b => .inr (b.trans a)
  pins := h.pins.elim .inl fun a => k.pins.elim .inl fun b => .inr (b.trans a)
  regs f hw := (k.regs f hw).trans (h.regs f hw)

theorem Touches.mono {P Q : List Part} {v w : Nat → Bool} {L M : Lane} (h : Touches P v L M) (hp : P ⊆ Q)
    (hw : ∀ a, w a = false → v a = false) : Touches Q w L M where
  me := h.me
  run := h.run.imp_left (@hp _)
  free := h.free.imp_left (@hp _)
  md := h.md.imp_left (@hp _)
  le := h.le.imp_left (@hp _)
  fc := h.fc.imp_left (@hp _)
  af := h.af.imp_left (@hp _)
  gd := h.gd.imp_left (@hp _)
  cp := h.cp.imp_left (@hp _)
  ts := h.ts.imp_left (@hp _)
  ix := h.ix.imp_left (@hp _)
  xf := h.xf.imp_left (@hp _)
  vf := h.vf.imp_left (@hp _)
  tb := h.tb.imp_left (@hp _)
  sm := h.sm.imp_left (@hp _)
  sx := h.sx.imp_left (@hp _)
  fm := h.fm.imp_left (@hp _)
  hl := h.hl.imp_left (@hp _)
  pm := h.pm.imp_left (@hp _)
  tm := h.tm.imp_left (@hp _)
  st := h.st.imp_left (@hp _)
  rs := h.rs.imp_left (@hp _)
  pins := h.pins.imp_left (@hp _)
  regs f hf := h.regs f (hw _ hf)

/-- A register field set. -/
theorem Touches.set {P : List Part} {w : Nat → Bool} {L : Lane} {f : Fld} (v : Nat) (hw : w f.key = true) : Touches P w L (L.set f v) :=
  { Touches.refl P w L with
    regs := fun _ h => Lane.get_set_other L v fun e => by rw [e, hw] at h; exact Bool.noConfusion h }

/-- The part run replaced. -/
theorem Touches.of_run {P : List Part} {w : Nat → Bool} {L : Lane} (hp : Part.run ∈ P) (v) : Touches P w L { L with run := v } :=
  { Touches.refl P w L with run := .inl hp, regs := fun _ _ => rfl }
/-- The part free replaced. -/
theorem Touches.of_free {P : List Part} {w : Nat → Bool} {L : Lane} (hp : Part.free ∈ P) (v) : Touches P w L { L with free := v } :=
  { Touches.refl P w L with free := .inl hp, regs := fun _ _ => rfl }
/-- The part md replaced. -/
theorem Touches.of_md {P : List Part} {w : Nat → Bool} {L : Lane} (hp : Part.md ∈ P) (v) : Touches P w L { L with md := v } :=
  { Touches.refl P w L with md := .inl hp, regs := fun _ _ => rfl }
/-- The part le replaced. -/
theorem Touches.of_le {P : List Part} {w : Nat → Bool} {L : Lane} (hp : Part.le ∈ P) (v) : Touches P w L { L with le := v } :=
  { Touches.refl P w L with le := .inl hp, regs := fun _ _ => rfl }
/-- The part fc replaced. -/
theorem Touches.of_fc {P : List Part} {w : Nat → Bool} {L : Lane} (hp : Part.fc ∈ P) (v) : Touches P w L { L with fc := v } :=
  { Touches.refl P w L with fc := .inl hp, regs := fun _ _ => rfl }
/-- The part af replaced. -/
theorem Touches.of_af {P : List Part} {w : Nat → Bool} {L : Lane} (hp : Part.af ∈ P) (v) : Touches P w L { L with af := v } :=
  { Touches.refl P w L with af := .inl hp, regs := fun _ _ => rfl }
/-- The part gd replaced. -/
theorem Touches.of_gd {P : List Part} {w : Nat → Bool} {L : Lane} (hp : Part.gd ∈ P) (v) : Touches P w L { L with gd := v } :=
  { Touches.refl P w L with gd := .inl hp, regs := fun _ _ => rfl }
/-- The part cp replaced. -/
theorem Touches.of_cp {P : List Part} {w : Nat → Bool} {L : Lane} (hp : Part.cp ∈ P) (v) : Touches P w L { L with cp := v } :=
  { Touches.refl P w L with cp := .inl hp, regs := fun _ _ => rfl }
/-- The part ts replaced. -/
theorem Touches.of_ts {P : List Part} {w : Nat → Bool} {L : Lane} (hp : Part.ts ∈ P) (v) : Touches P w L { L with ts := v } :=
  { Touches.refl P w L with ts := .inl hp, regs := fun _ _ => rfl }
/-- The part ix replaced. -/
theorem Touches.of_ix {P : List Part} {w : Nat → Bool} {L : Lane} (hp : Part.ix ∈ P) (v) : Touches P w L { L with ix := v } :=
  { Touches.refl P w L with ix := .inl hp, regs := fun _ _ => rfl }
/-- The part xf replaced. -/
theorem Touches.of_xf {P : List Part} {w : Nat → Bool} {L : Lane} (hp : Part.xf ∈ P) (v) : Touches P w L { L with xf := v } :=
  { Touches.refl P w L with xf := .inl hp, regs := fun _ _ => rfl }
/-- The part vf replaced. -/
theorem Touches.of_vf {P : List Part} {w : Nat → Bool} {L : Lane} (hp : Part.vf ∈ P) (v) : Touches P w L { L with vf := v } :=
  { Touches.refl P w L with vf := .inl hp, regs := fun _ _ => rfl }
/-- The part tb replaced. -/
theorem Touches.of_tb {P : List Part} {w : Nat → Bool} {L : Lane} (hp : Part.tb ∈ P) (v) : Touches P w L { L with tb := v } :=
  { Touches.refl P w L with tb := .inl hp, regs := fun _ _ => rfl }
/-- The part sm replaced. -/
theorem Touches.of_sm {P : List Part} {w : Nat → Bool} {L : Lane} (hp : Part.sm ∈ P) (v) : Touches P w L { L with sm := v } :=
  { Touches.refl P w L with sm := .inl hp, regs := fun _ _ => rfl }
/-- The part sx replaced. -/
theorem Touches.of_sx {P : List Part} {w : Nat → Bool} {L : Lane} (hp : Part.sx ∈ P) (v) : Touches P w L { L with sx := v } :=
  { Touches.refl P w L with sx := .inl hp, regs := fun _ _ => rfl }
/-- The part fm replaced. -/
theorem Touches.of_fm {P : List Part} {w : Nat → Bool} {L : Lane} (hp : Part.fm ∈ P) (v) : Touches P w L { L with fm := v } :=
  { Touches.refl P w L with fm := .inl hp, regs := fun _ _ => rfl }
/-- The part hl replaced. -/
theorem Touches.of_hl {P : List Part} {w : Nat → Bool} {L : Lane} (hp : Part.hl ∈ P) (v) : Touches P w L { L with hl := v } :=
  { Touches.refl P w L with hl := .inl hp, regs := fun _ _ => rfl }
/-- The part pm replaced. -/
theorem Touches.of_pm {P : List Part} {w : Nat → Bool} {L : Lane} (hp : Part.pm ∈ P) (v) : Touches P w L { L with pm := v } :=
  { Touches.refl P w L with pm := .inl hp, regs := fun _ _ => rfl }
/-- The part tm replaced. -/
theorem Touches.of_tm {P : List Part} {w : Nat → Bool} {L : Lane} (hp : Part.tm ∈ P) (v) : Touches P w L { L with tm := v } :=
  { Touches.refl P w L with tm := .inl hp, regs := fun _ _ => rfl }
/-- The part st replaced. -/
theorem Touches.of_st {P : List Part} {w : Nat → Bool} {L : Lane} (hp : Part.st ∈ P) (v) : Touches P w L { L with st := v } :=
  { Touches.refl P w L with st := .inl hp, regs := fun _ _ => rfl }
/-- The part rs replaced. -/
theorem Touches.of_rs {P : List Part} {w : Nat → Bool} {L : Lane} (hp : Part.rs ∈ P) (v) : Touches P w L { L with rs := v } :=
  { Touches.refl P w L with rs := .inl hp, regs := fun _ _ => rfl }
/-- The part pins replaced. -/
theorem Touches.of_pins {P : List Part} {w : Nat → Bool} {L : Lane} (hp : Part.pins ∈ P) (v) : Touches P w L { L with pins := v } :=
  { Touches.refl P w L with pins := .inl hp, regs := fun _ _ => rfl }

theorem Touches.when {P : List Part} {w : Nat → Bool} {L : Lane} {c : Bool} {f : Lane → Lane} (h : Touches P w L (f L)) :
    Touches P w L (L.when c f) := by
  unfold Lane.when; split
  · exact h
  · exact Touches.refl ..

theorem Touches.forEach {α : Type} {P : List Part} {w : Nat → Bool} {f : α → Lane → Lane} (h : ∀ a M, Touches P w M (f a M)) :
    ∀ (l : List α) (L : Lane), Touches P w L (L.forEach l f)
  | [], _ => Touches.refl ..
  | a :: t, L => (h a L).trans (Touches.forEach h t (f a L))

theorem fields_win {wins : List Nat} {flds : List Fld} {k : Nat} (b : Nat) (hb : wins.contains b = true) (h : k / 0x200000 = b) :
    fields wins flds k = true := by
  unfold fields; rw [h, hb]; rfl

theorem fields_mono {v w : List Nat} {f g : List Fld} (hw : v ⊆ w) (hf : f ⊆ g) (k : Nat) (h : fields w g k = false) : fields v f k = false := by
  simp only [fields, Bool.or_eq_false_iff, List.any_eq_false, List.contains_eq_mem, decide_eq_false_iff_not, decide_eq_true_eq] at h ⊢
  exact ⟨fun e => h.1 (hw e), fun a ha => h.2 a (hf ha)⟩

theorem fields_none {l : List Fld} {k : Nat} (h : ∀ f ∈ l, k ≠ f.key) : fields [] l k = false := by
  simp only [fields, List.contains_nil, Bool.false_or, List.any_eq_false, decide_eq_true_eq]
  exact h

theorem Lane.get_lt (L : Lane) (f : Fld) : L.get f < 2 ^ f.width := Nat.mod_lt _ (Nat.two_pow_pos _)

theorem Touches.noteHeld (P : List Part) (w : Nat → Bool) (hp : Part.fm ∈ P) (L : Lane) : Touches P w L L.noteHeld := Touches.of_fm hp _

end Sys2Proof.Machine
end

