-- ==== Sys2Proof/Laws/Shared.lean ====
section
/-! SUPPORT. The shared operations of Events.lean: what each can change. -/

namespace Sys2Proof.Machine

/-! ### TS events -/

theorem Lane.setTask_touches (L : Lane) (n : Nat) (t : TaskX) : Touches [.ts, .cp] tsRegs L (L.setTask n t) :=
  Touches.of_ts (by decide) _

theorem Lane.setTarget_touches (L : Lane) (n : Nat) (g : Target) : Touches [.ts, .cp] tsRegs L (L.setTarget n g) :=
  Touches.of_ts (by decide) _

theorem Lane.wakeCores_touches (L : Lane) : Touches [.ts, .cp] tsRegs L L.wakeCores := by
  have h : Touches [.ts, .cp] tsRegs L (L.when (L.get Reg.PM_STAT_STATE = 1) fun L => L.set Reg.PM_STAT_STATE 0) :=
    Touches.when (Touches.set 0 (by decide))
  exact h.trans (Touches.of_cp (by decide) _)

theorem Lane.considerTarget_touches (L : Lane) (t : Nat) : Touches [.ts, .cp] tsRegs L (L.considerTarget t) := by
  unfold Lane.considerTarget
  dsimp only
  repeat' split
  all_goals first
    | exact Touches.refl ..
    | exact (Lane.setTarget_touches ..).trans (Lane.wakeCores_touches _)

theorem Lane.consider_touches (L : Lane) : Touches [.ts, .cp] tsRegs L L.consider := by
  unfold Lane.consider
  split
  · exact L.considerTarget_touches 0
  · exact (L.considerTarget_touches 0).trans (Lane.considerTarget_touches _ 1)

/-- A TS register of a task below 256, set. -/
theorem Touches.setTs {L : Lane} {f : Fld} (v : Nat) (hw : f.key / 0x200000 = 0x4001) : Touches [.ts, .cp] tsRegs L (L.set f v) :=
  Touches.set v (fields_win 0x4001 (by decide) hw)

theorem Lane.makeReady_touches (L : Lane) {n : Nat} (h : n < 256) (tail : Nat := 0) :
    Touches [.ts, .cp] tsRegs L (L.makeReady n tail) :=
  (L.setTask_touches n _).trans (Touches.setTs (f := Reg.TS_TASK_STAT_STATE n) 2 (by simp [Reg.TS_TASK_STAT_STATE, Fld.key]; omega))

theorem Lane.settleTask_touches (L : Lane) {n : Nat} (h : n < 256) : Touches [.ts, .cp] tsRegs L (L.settleTask n) := by
  unfold Lane.settleTask
  dsimp only
  repeat' split
  · exact (L.makeReady_touches h).trans (Lane.consider_touches _)
  · exact Touches.setTs _ (by simp [Reg.TS_TASK_STAT_STATE, Fld.key]; omega)
  · exact Touches.refl ..

theorem Lane.noteSet_touches (L : Lane) (n fl : Nat) : Touches [.ts, .cp] tsRegs L (L.noteSet n fl) := Touches.of_ts (by decide) _

theorem Lane.setFlag_touches (L : Lane) {n : Nat} (fl : Nat) (h : n < 256) : Touches [.ts, .cp] tsRegs L (L.setFlag n fl) :=
  (Touches.setTs _ (by simp [Reg.TS_TASK_FLAGS_FLAGS, Fld.key]; omega)).trans
    (Lane.settleTask_touches _ h)

/-- A TS event changes TS, the wait of the cores, and the power state IDLE alone. -/
theorem Lane.event_touches (L : Lane) (e : Nat) : Touches [.ts, .cp] tsRegs L (L.event e) := by
  unfold Lane.event
  split
  · exact (L.noteSet_touches _ _).trans (Lane.setFlag_touches _ _ (L.get_lt (Reg.TS_ROUTE_TASK e)))
  · exact Touches.refl ..

/-! ### Reports -/

abbrev reportRegs : Nat → Bool := fields [0x4001] [Reg.PM_STAT_STATE, Reg.HL_CNT_RLOST_COUNT]

theorem Touches.ts_le {P : List Part} {w : Nat → Bool} {L M : Lane} (h : Touches [.ts, .cp] tsRegs L M)
    (hp : [Part.ts, Part.cp] ⊆ P) (hw : ∀ a, w a = false → tsRegs a = false) : Touches P w L M := h.mono hp hw

theorem Lane.reportOn_touches (L : Lane) (r rid : Nat) (args : List Nat) (k : Bool) :
    Touches [.hl, .ts, .cp] reportRegs L (L.reportOn r rid args k) := by
  unfold Lane.reportOn
  dsimp only
  split
  · refine Touches.trans ?_ ((Lane.event_touches _ 130).mono (by decide) (fields_mono (by decide) (by decide)))
    unfold Lane.count
    split <;> exact (Touches.of_hl (by decide) _).trans (Touches.set _ (by decide))
  · exact Touches.of_hl (by decide) _

theorem Lane.reportAll_touches (L : Lane) (rid : Nat) (args : List Nat) :
    Touches [.hl, .ts, .cp] reportRegs L (L.reportAll rid args) :=
  Touches.forEach (fun _ M => M.reportOn_touches ..) _ L

theorem Lane.reportSubscribed_touches (L : Lane) (sub : Nat → Fld) (rid : Nat) (args : List Nat) :
    Touches [.hl, .ts, .cp] reportRegs L (L.reportSubscribed sub rid args) :=
  Touches.forEach (fun _ M => M.reportOn_touches ..) _ L

/-! ### Bridges and refuge -/

theorem Lane.swOff_touches (L : Lane) (k : Nat) : Touches stopParts stopRegs L (L.swOff k) := by
  unfold Lane.swOff
  dsimp only
  split <;> exact Touches.of_gd (by decide) _

theorem Lane.bridgeOff_touches (L : Lane) (b : Nat) : Touches stopParts stopRegs L (L.bridgeOff b) := by
  unfold Lane.bridgeOff
  split
  · split
    · exact Touches.refl ..
    · exact Touches.forEach (fun _ M => M.swOff_touches _) _ L
  · exact Touches.forEach (fun _ M => M.swOff_touches _) _ L

theorem Lane.dropInputs_touches (L : Lane) (b : Nat) : Touches stopParts stopRegs L (L.dropInputs b) :=
  Touches.forEach (fun _ _ => Touches.of_gd (by decide) _) _ L

theorem Lane.event_stop (L : Lane) (e : Nat) : Touches stopParts stopRegs L (L.event e) :=
  (L.event_touches e).mono (by decide) (fields_mono (by decide) (by decide))

theorem Lane.setBrState_touches (L : Lane) {b : Nat} (st : Nat) (h : b < 2) : Touches stopParts stopRegs L (L.setBrState b st) := by
  unfold Lane.setBrState
  split
  · exact Touches.refl ..
  · have hb : b = 0 ∨ b = 1 := by omega
    rcases hb with rfl | rfl <;> exact (Touches.set _ (by decide)).trans (Lane.event_stop _ _)

theorem Lane.toOff_touches (L : Lane) {b : Nat} (h : b < 2) : Touches stopParts stopRegs L (L.toOff b) := by
  unfold Lane.toOff
  dsimp only
  refine Touches.trans ?_ (Lane.bridgeOff_touches _ b)
  refine Touches.trans ?_ (Lane.dropInputs_touches _ b)
  refine Touches.trans ?_ (Lane.setBrState_touches _ 0 h)
  refine Touches.trans ?_ (Touches.of_fc (by decide) _)
  have hb : b = 0 ∨ b = 1 := by omega
  rcases hb with rfl | rfl <;>
  exact (((((Touches.set _ (by decide)).trans (Touches.set _ (by decide))).trans
    (Touches.set _ (by decide))).trans (Touches.set _ (by decide))).trans
    (Touches.set _ (by decide))).trans (Touches.set _ (by decide))

theorem Lane.allOff_touches (L : Lane) : Touches stopParts stopRegs L L.allOff :=
  (L.toOff_touches (by decide)).trans (Lane.toOff_touches _ (by decide))

abbrev refugeParts : List Part := [.md, .fc, .gd, .ts, .cp, .sm]

theorem Lane.allOff_refuge (L : Lane) : Touches refugeParts refugeRegs L L.allOff :=
  L.allOff_touches.mono (by decide) (fields_mono (by decide) (by decide))

theorem Lane.count_touches {P : List Part} {w : Nat → Bool} (L : Lane) {f : Fld} (hw : w f.key = true) : Touches P w L (L.count f) := by
  unfold Lane.count; split <;> exact Touches.set _ hw

theorem Lane.assertToff_touches (L : Lane) : Touches refugeParts refugeRegs L L.assertToff := by
  unfold Lane.assertToff
  extract_lets F M
  have h : Touches refugeParts refugeRegs L M := Touches.of_sm (by decide) _
  split
  · exact h.trans M.allOff_refuge
  · exact h.trans <| (((Touches.set _ (by decide)).trans (Lane.count_touches _ (by decide))).trans
      ((Lane.event_touches _ 20).mono (by decide) (fields_mono (by decide) (by decide)))).trans (Lane.allOff_refuge _)

theorem Lane.stopOriginating_touches (L : Lane) : Touches refugeParts refugeRegs L L.stopOriginating := by
  unfold Lane.stopOriginating
  split
  · exact (Touches.set _ (by decide)).trans ((Lane.event_touches _ 155).mono (by decide) (fields_mono (by decide) (by decide)))
  · exact Touches.refl ..

theorem Lane.enterRefuge_touches (L : Lane) : Touches refugeParts refugeRegs L L.enterRefuge :=
  ((L.assertToff_touches.trans (Touches.of_md (by decide) _)).trans (Touches.set _ (by decide))).trans (Lane.stopOriginating_touches _)

theorem Lane.refugeReset_touches (L : Lane) : Touches refugeParts refugeRegs L L.refugeReset :=
  L.enterRefuge_touches.trans (Touches.of_md (by decide) _)

end Sys2Proof.Machine
end

