-- ==== Sys2Proof/Laws/Raise.lean ====
section
/-! SUPPORT. The raising of a fault source: what one event does and what it can change (R551, R553, R560, R568). -/

namespace Sys2Proof.Machine

/-- The fields that an event of source `n` can change after its tally and its status stand: FM's history, counters and held-back
reset, and what its reactions reach. -/
def lateFlds (n : Nat) : List Fld :=
  Reg.FM_STAT_LRST_PEND :: Reg.FM_HSEQ_SEQ :: Reg.FM_HSKIP_SKIP :: (Reg.HL_CNT_RLOST_COUNT :: blockFlds (blockOf n) ++ refugeFlds)
def lateRegs (n k : Nat) : Bool :=
  fields (0x4001 :: (blockOf n).toList) (lateFlds n) k ||
  (decide (0x400C1000 * 32 ≤ k) && decide (k < 0x400C1200 * 32))

theorem blockOf_ne (n : Nat) : blockOf n ≠ some 0x400C := by
  unfold blockOf; repeat' split
  all_goals simp

theorem blockOf_le (n : Nat) (b : Nat) (h : blockOf n = some b) :
    b ∈ [0x4009, 0x400A, 0x4013, 0x4010, 0x400F, 0x4011, 0x4012, 0x4014] := by
  unfold blockOf at h; repeat' split at h
  all_goals first
    | (injection h with h; subst h; decide)
    | simp at h

theorem lateFlds_of {f : List Fld} (n : Nat) (h : f ⊆ Reg.HL_CNT_RLOST_COUNT :: refugeFlds) : f ⊆ lateFlds n := fun a ha => by
  rcases List.mem_cons.mp (h ha) with h | h
  · simp [lateFlds, h]
  · exact List.mem_cons_of_mem _ (List.mem_cons_of_mem _ (List.mem_cons_of_mem _ (List.mem_append_right _ h)))

theorem lateRegs_of {f : List Fld} (n : Nat) (h : f ⊆ Reg.HL_CNT_RLOST_COUNT :: refugeFlds) (k : Nat)
    (hk : lateRegs n k = false) : fields [0x4001] f k = false := by
  simp only [lateRegs, Bool.or_eq_false_iff] at hk
  exact fields_mono (by intro b hb; simp at hb ⊢; exact .inl hb) (lateFlds_of n h) k hk.1

theorem blockFlds_part {b : Option Nat} {f : Fld} (h : f ∈ blockFlds b) :
    ∃ p, p < 4 ∧ (f = Reg.HL_PART_STAT_OPS p ∨ f = Reg.HL_PART_STAT_OUT p) := by
  unfold blockFlds at h
  split at h <;> first
    | (obtain ⟨p, hp, hf⟩ := List.mem_flatMap.mp h
       exact ⟨p, List.mem_range.mp hp, by simpa using hf⟩)
    | simp at h

/-- The fields beside FM's own history that an event can change lie outside the middle of FM's window. -/
theorem lateFlds_fm {n : Nat} {f : Fld} (hf : f ∈ lateFlds n) : f.key < 0x400C0018 * 32 ∨ 0x400D0000 * 32 ≤ f.key := by
  have all : ∀ f ∈ (Reg.FM_STAT_LRST_PEND :: Reg.FM_HSEQ_SEQ :: Reg.FM_HSKIP_SKIP :: Reg.HL_CNT_RLOST_COUNT :: refugeFlds),
      f.key < 0x400C0018 * 32 ∨ 0x400D0000 * 32 ≤ f.key := by decide
  rw [lateFlds, List.mem_cons, List.mem_cons, List.mem_cons, List.mem_append, List.mem_cons] at hf
  rcases hf with h | h | h | (h | h) | h
  · exact all f (by simp [h])
  · exact all f (by simp [h])
  · exact all f (by simp [h])
  · exact all f (by simp [h])
  · obtain ⟨p, _, h | h⟩ := blockFlds_part h <;> rw [h] <;> right <;>
      simp [Reg.HL_PART_STAT_OPS, Reg.HL_PART_STAT_OUT, Fld.key] <;> omega
  · exact all f (List.mem_cons_of_mem _ (List.mem_cons_of_mem _ (List.mem_cons_of_mem _ (List.mem_cons_of_mem _ h))))

/-- A field of FM that is none of the history nor of the counters is out of an event's later reach. -/
theorem lateRegs_fm (n k : Nat) (h1 : 0x400C0018 * 32 ≤ k) (h2 : k < 0x400C1000 * 32) : lateRegs n k = false := by
  have hd : k / 0x200000 = 0x400C := by omega
  have hb : ¬ (blockOf n = some 0x400C) := blockOf_ne n
  have h3 : fields (0x4001 :: (blockOf n).toList) (lateFlds n) k = false := by
    unfold fields
    rw [hd, Bool.or_eq_false_iff]
    refine ⟨by simp [hb], ?_⟩
    rw [List.any_eq_false]
    intro f hf
    have := lateFlds_fm hf
    simp; omega
  unfold lateRegs
  rw [h3]; simp; omega

theorem lateRegs_tally (n k : Nat) (hk : k < 192) : lateRegs n (Reg.FM_TALLY_TALLY k).key = false :=
  lateRegs_fm _ _ (by simp [Reg.FM_TALLY_TALLY, Fld.key]; omega) (by simp [Reg.FM_TALLY_TALLY, Fld.key]; omega)

theorem lateRegs_status (n g : Nat) (hg : g < 6) : lateRegs n (Reg.FM_STATUS_STATUS g).key = false :=
  lateRegs_fm _ _ (by simp [Reg.FM_STATUS_STATUS, Fld.key]; omega) (by simp [Reg.FM_STATUS_STATUS, Fld.key]; omega)

/-- The parts that an event can change but for its reactions B and L. -/
abbrev lateParts : List Part := [.cp, .ts, .fm, .hl]

theorem late_sub (n : Nat) : lateParts ⊆ raiseParts n := fun _ h => List.mem_append_left _ ((by decide : lateParts ⊆ [.md, .fc, .gd, .cp, .ts, .sm, .fm, .hl]) h)

/-- What an event can change once its tally and status stand, but for its reactions B and L. -/
abbrev LateTouch (n : Nat) (L M : Lane) : Prop := Touches lateParts (lateRegs n) L M

theorem Lane.faultReport_touches (n : Nat) (L : Lane) (s w0 w1 : Nat) : LateTouch n L (L.faultReport s w0 w1) := by
  unfold Lane.faultReport
  split
  · exact (L.reportSubscribed_touches ..).mono (by decide) (lateRegs_of n (by decide))
  · exact Touches.refl ..

theorem Touches.fmReg {n : Nat} {L : Lane} {f : Fld} (v : Nat)
    (ha : f ∈ [Reg.FM_STAT_LRST_PEND, Reg.FM_HSEQ_SEQ, Reg.FM_HSKIP_SKIP] ∨ (0x400C1000 * 32 ≤ f.key ∧ f.key < 0x400C1200 * 32)) :
    LateTouch n L (L.set f v) :=
  Touches.set v (by
    unfold lateRegs; rcases ha with h | ⟨h, h'⟩
    · have : fields (0x4001 :: (blockOf n).toList) (lateFlds n) f.key = true := by
        unfold fields lateFlds
        rw [Bool.or_eq_true, List.any_eq_true]
        refine .inr ⟨f, ?_, by simp⟩
        simp only [List.mem_cons, List.not_mem_nil, or_false] at h ⊢
        rcases h with h | h | h <;> simp [h]
      rw [this]; rfl
    · simp [h, h'])

theorem Lane.writeHist_touches (n : Nat) (L : Lane) (seq w0 : Nat) : LateTouch n L (L.writeHist seq w0) := by
  have k : ∀ (M : Lane) (w v : Nat), w < 4 → LateTouch n M (M.set (Reg.FM_HIST_WORD (seq % 32) w) v) := fun M w v hw =>
    Touches.fmReg v (.inr (by simp [Reg.FM_HIST_WORD, Fld.key]; omega))
  exact (((k _ 0 _ (by omega)).trans (k _ 1 _ (by omega))).trans (k _ 2 _ (by omega))).trans (k _ 3 _ (by omega))

theorem Lane.wrap_skip (n : Nat) (L : Lane) : LateTouch n L (L.wrap Reg.FM_HSKIP_SKIP) :=
  Touches.fmReg _ (.inl (by decide))

theorem Lane.wrap_seq (n : Nat) (L : Lane) : LateTouch n L (L.wrap Reg.FM_HSEQ_SEQ) :=
  Touches.fmReg _ (.inl (by decide))

theorem Lane.amendReport_touches (n : Nat) (L : Lane) (old new : List Nat) : LateTouch n L (L.amendReport old new) :=
  Touches.forEach (fun r M => by
    dsimp only
    split
    · exact Touches.of_hl (by decide) _
    · exact (M.reportOn_touches ..).mono (by decide) (lateRegs_of n (by decide))) _ L

/-- The history entry of an event changes the history, its counters and the report queues alone. -/
theorem Lane.history_touches (n : Nat) (L : Lane) (s d : Nat) (forced : Bool) : LateTouch n L (L.history s d forced) := by
  unfold Lane.history
  dsimp only
  generalize (if L.fm.tick = L.now then L.fm.tickSrc else []) = cur
  split
  · exact ((((L.writeHist_touches n _ _).trans (Lane.wrap_seq n _)).trans (Touches.of_fm (by decide) _))).trans
      (Lane.faultReport_touches n _ _ _ _)
  · split
    · exact (L.wrap_skip n).trans (Lane.faultReport_touches n _ _ _ _)
    · split
      · refine Touches.trans ?_ (Lane.faultReport_touches n _ _ _ _)
        split
        · refine Touches.trans ?_ (Lane.amendReport_touches n _ _ _)
          exact ((L.writeHist_touches n _ _).trans (Touches.of_fm (by decide) _)).trans (Lane.wrap_skip n _)
        · exact ((L.writeHist_touches n _ _).trans (Touches.of_fm (by decide) _)).trans (Lane.wrap_skip n _)
      · exact (L.wrap_skip n).trans (Lane.faultReport_touches n _ _ _ _)

theorem Lane.event_late (n : Nat) (L : Lane) (e : Nat) : LateTouch n L (L.event e) :=
  (L.event_touches e).mono (by decide) (lateRegs_of n (by decide))

theorem Lane.trapEvent_touches (n : Nat) (L : Lane) (s : Nat) : LateTouch n L (L.trapEvent s) := by
  unfold Lane.trapEvent
  extract_lets F L1
  have h1 : LateTouch n L L1 := Touches.of_fm (by decide) _
  split
  · exact h1
  · exact (h1.trans ((Lane.wakeCores_touches L1).mono (by decide) (lateRegs_of n (by decide)))).trans (Touches.of_cp (by decide) _)

/-- What a register reads after the lane-reset values of other registers are set. -/
theorem Lane.get_resetRegs (L : Lane) (p : Nat → Bool) (f : Fld) (h : p (f.key / 32) = false) : (L.resetRegs p).get f = L.get f := by
  have key : ∀ l : Sparse Nat,
      spGet f.por f.key (l.filterMap fun e => cond (p (e.1 / 32)) (resetEntry L.me e) (some e)) = spGet f.por f.key l := by
    intro l
    induction l with
    | nil => rfl
    | cons e t ih =>
      obtain ⟨j, v⟩ := e
      by_cases hj : f.key = j
      · subst hj; simp [h, spGet]
      · have : spGet f.por f.key ((j, v) :: t) = spGet f.por f.key t := by simp [spGet, hj]
        rw [this, ← ih, List.filterMap_cons]
        cases hp : p (j / 32) with
        | false => simp [spGet, hj]
        | true =>
          simp only [cond_true]
          unfold resetEntry
          cases fldOfKey L.me j with
          | none => simp [spGet, hj]
          | some g =>
            dsimp only
            cases g.lrst with
            | none => simp [spGet, hj]
            | some r => by_cases hr : r = g.por <;> simp [hr, spGet, hj]
  simp only [Lane.get, Lane.resetRegs, key]

/-- An operation of a partition ends: its report, the script that waits for it, and HL_PART_STAT of the partition. -/
theorem Lane.endOp_touches (L : Lane) (id : Nat) (c : Bool) (cause : Nat) (r : Option Nat) :
    Touches [.free, .hl, .ts, .cp] (fields [0x4001] (Reg.PM_STAT_STATE :: Reg.HL_CNT_RLOST_COUNT :: blockFlds (some 0x4010)))
      L (L.endOp id c cause r) := by
  have hrep : ∀ (M : Lane) (a b : Nat) (l : List Nat) (k : Bool), Touches [.free, .hl, .ts, .cp]
      (fields [0x4001] (Reg.PM_STAT_STATE :: Reg.HL_CNT_RLOST_COUNT :: blockFlds (some 0x4010))) M (M.reportOn a b l k) :=
    fun M a b l k => (M.reportOn_touches a b l k).mono (by decide) (fields_mono (by decide) (by decide))
  unfold Lane.endOp
  split
  · exact Touches.refl ..
  · rename_i o _
    dsimp only
    have hp : ∀ p : Fin 4, Reg.HL_PART_STAT_OPS p ∈ blockFlds (some 0x4010) ∧ Reg.HL_PART_STAT_OUT p ∈ blockFlds (some 0x4010) := by decide
    have hin : ∀ f ∈ blockFlds (some 0x4010),
        fields [0x4001] (Reg.PM_STAT_STATE :: Reg.HL_CNT_RLOST_COUNT :: blockFlds (some 0x4010)) f.key = true := fun f hf => by
      unfold fields
      rw [Bool.or_eq_true, List.any_eq_true]
      exact .inr ⟨f, List.mem_cons_of_mem _ (List.mem_cons_of_mem _ hf), by simp⟩
    unfold Lane.showPart
    refine Touches.trans (Touches.trans ?_ (Touches.set _ (hin _ (hp o.part).1))) (Touches.set _ (hin _ (hp o.part).2))
    have h1 : ∀ v, Touches [.free, .hl, .ts, .cp] (fields [0x4001] (Reg.PM_STAT_STATE :: Reg.HL_CNT_RLOST_COUNT :: blockFlds (some 0x4010)))
        L (Lane.opReport { L with hl := v } o c cause r) := fun v => by
      refine (Touches.of_hl (by decide) v).trans ?_
      unfold Lane.opReport
      split
      · split
        · exact hrep ..
        · exact (Touches.of_free (by decide) _).trans (hrep ..)
      · exact hrep ..
    unfold Lane.noteOpEnd
    split
    · exact h1 _
    · split
      · exact (h1 _).trans (Touches.of_hl (by decide) _)
      · exact h1 _

theorem Lane.endOp?_touches (L : Lane) (id : Option Nat) (c : Bool) (cause : Nat) (r : Option Nat) :
    Touches [.free, .hl, .ts, .cp] (fields [0x4001] (Reg.PM_STAT_STATE :: Reg.HL_CNT_RLOST_COUNT :: blockFlds (some 0x4010)))
      L (L.endOp? id c cause r) := by
  unfold Lane.endOp?
  split
  · exact Touches.refl ..
  · exact L.endOp_touches ..

/-- What reaction B of source `n` can change: the block, what is in transit in it, and HL and TS where operations of the block end. -/
abbrev resetParts (blk : Nat) : List Part := [.fm, .hl, .ts, .cp] ++ blockParts (some blk)

theorem Lane.blockReset_touches (n blk : Nat) (h : blockOf n = some blk) (L : Lane) :
    Touches (resetParts blk) (lateRegs n) L (L.blockReset blk) := by
  have hw : ∀ k, lateRegs n k = false → decide (k / 32 / 0x10000 = blk) = false := by
    intro k hk
    simp only [lateRegs, fields, Bool.or_eq_false_iff] at hk
    have := hk.1.1
    simp [h] at this
    simp; omega
  have h1 : Touches (resetParts blk) (lateRegs n) L (L.resetRegs fun a => a / 0x10000 = blk) :=
    { Touches.refl (resetParts blk) (lateRegs n) L with
      regs := fun f hk => L.get_resetRegs _ f (hw _ hk) }
  have ops : blockFlds (some blk) = blockFlds (some 0x4010) → ∀ k, lateRegs n k = false →
      fields [0x4001] (Reg.PM_STAT_STATE :: Reg.HL_CNT_RLOST_COUNT :: blockFlds (some 0x4010)) k = false := by
    intro e k hk
    simp only [lateRegs, Bool.or_eq_false_iff] at hk
    refine fields_mono (by intro b hb; simp at hb ⊢; exact .inl hb) (fun f hf => ?_) k hk.1
    rcases List.mem_cons.mp hf with h' | h'
    · exact lateFlds_of n (f := [Reg.PM_STAT_STATE]) (by decide) (by simp [h'])
    · rcases List.mem_cons.mp h' with h' | h'
      · simp [lateFlds, h']
      · unfold lateFlds
        rw [h, e]
        exact List.mem_cons_of_mem _ (List.mem_cons_of_mem _ (List.mem_cons_of_mem _ (List.mem_append_left _ (List.mem_cons_of_mem _ h'))))
  unfold Lane.blockReset
  dsimp only
  split
  · refine h1.trans ?_
    refine Touches.trans (M := (L.resetRegs fun a => a / 0x10000 = 0x4009).countBy Reg.VF_CNT_DROP_COUNT _) ?_ (Touches.of_vf (by decide) _)
    exact Touches.set _ (by simp [lateRegs, fields, h, Reg.VF_CNT_DROP_COUNT, Fld.key])
  · refine h1.trans ?_
    exact { Touches.refl (resetParts 0x400A) (lateRegs n) (L.resetRegs fun a => a / 0x10000 = 0x400A) with
      tb := .inl (by decide), xf := .inl (by decide), regs := fun _ _ => rfl }
  · exact h1.trans (Touches.of_sx (by decide) _)
  · refine h1.trans ?_
    unfold Lane.dropWrites
    refine Touches.trans (Touches.of_rs (by decide) _) (Touches.forEach (fun i M => ?_) _ _)
    exact (M.endOp_touches ..).mono (by decide) (ops (by decide))
  · refine h1.trans ?_
    unfold Lane.dropTests
    exact (Touches.of_st (by decide) _).trans ((Lane.endOp?_touches _ ..).mono (by decide) (ops (by decide)))
  · refine h1.trans ?_
    have own : ∀ f : Fld, f.key / 0x200000 = 0x4011 → lateRegs n f.key = true := by
      intro f hf; simp [lateRegs, fields, h, hf]
    split
    · exact Touches.of_hl (by decide) _
    · exact (Touches.of_hl (by decide) _).trans ((Touches.set _ (own _ (by decide))).trans (Touches.set _ (own _ (by decide))))
  · exact h1.trans (Touches.of_hl (by decide) _)
  · exact h1

theorem Lane.blockReaction_touches (n blk : Nat) (h : blockOf n = some blk) (L : Lane) :
    Touches (resetParts blk) (lateRegs n) L (L.blockReaction blk) := by
  have hf : Part.free ∈ resetParts blk := by
    have := blockOf_le n blk h; simp at this
    rcases this with h | h | h | h | h | h | h | h <;> subst h <;> decide
  unfold Lane.blockReaction
  split
  · exact Touches.refl ..
  · exact ((Touches.of_free hf _).trans (Touches.of_fm (by simp) _)).trans (Lane.blockReset_touches n blk h _)

/-- Of what the modes keep, an event changes only that refuge is entered and that a lane reset is to follow. -/
def RefugeAlone (L M : Lane) : Prop := ∃ r q, M.md = { L.md with refuge := r, resetNext := q }

theorem RefugeAlone.of_md {L M : Lane} (h : M.md = L.md) : RefugeAlone L M := ⟨L.md.refuge, L.md.resetNext, h⟩

theorem RefugeAlone.trans {L M N : Lane} (h : RefugeAlone L M) (k : RefugeAlone M N) : RefugeAlone L N := by
  obtain ⟨_, _, h⟩ := h; obtain ⟨r, q, k⟩ := k; exact ⟨r, q, by rw [k, h]⟩

theorem Touches.md_eq {P : List Part} {w : Nat → Bool} {L M : Lane} (h : Touches P w L M) (hp : Part.md ∉ P) : M.md = L.md :=
  h.md.resolve_left hp

theorem Lane.assertToff_md (L : Lane) : L.assertToff.md = L.md := by
  unfold Lane.assertToff
  dsimp only
  split
  · exact (Lane.allOff_touches _).md_eq (by decide)
  · refine ((Lane.allOff_touches _).md_eq (by decide)).trans (((Lane.event_touches _ 20).md_eq (by decide)).trans ?_)
    unfold Lane.count; split <;> rfl

theorem Lane.stopOriginating_md (L : Lane) : L.stopOriginating.md = L.md := by
  unfold Lane.stopOriginating
  split
  · exact (Lane.event_touches _ 155).md_eq (by decide)
  · rfl

theorem Lane.laneResetReaction_md (L : Lane) : RefugeAlone L L.laneResetReaction := by
  unfold Lane.laneResetReaction
  split
  · exact .of_md rfl
  · refine ⟨true, true, ?_⟩
    unfold Lane.refugeReset Lane.enterRefuge
    simp [L.assertToff_md, Lane.stopOriginating_md]

theorem Lane.laneResetReaction_touches (n : Nat) (L : Lane) : Touches (raiseParts n) (lateRegs n) L L.laneResetReaction := by
  unfold Lane.laneResetReaction
  split
  · exact (Touches.fmReg (n := n) _ (.inl (by decide))).mono (late_sub n) (fun _ h => h)
  · exact L.refugeReset_touches.mono
      (fun _ h => List.mem_append_left _ ((by decide : refugeParts ⊆ [.md, .fc, .gd, .cp, .ts, .sm, .fm, .hl]) h)) (lateRegs_of n (by decide))

/-- The reactions of an event leave its tally and its status. -/
theorem Lane.react_touches (L : Lane) (n : Nat) : Touches (raiseParts n) (lateRegs n) L (L.react n) ∧ RefugeAlone L (L.react n) := by
  unfold Lane.react
  extract_lets F1 L1 L2 L3 L4
  have s1 : LateTouch n L L1 := by
    show LateTouch n L (if _ then _ else _)
    split
    · exact Touches.of_fm (by decide) _
    · exact Touches.refl ..
  have s2 : LateTouch n L1 L2 := by
    show LateTouch n L1 (if _ then _ else _)
    split
    · exact L1.event_late n _
    · exact Touches.refl ..
  have s3 : LateTouch n L2 L3 := by
    show LateTouch n L2 (if _ then _ else _)
    split
    · exact L2.trapEvent_touches n _
    · exact Touches.refl ..
  have s := (s1.trans s2).trans s3
  have s4 : Touches (raiseParts n) (lateRegs n) L3 L4 ∧ L4.md = L3.md := by
    show Touches _ (lateRegs n) L3 (match blockOf n with
      | some blk => if L.bit (Reg.FM_REACT_B n) then L3.blockReaction blk else L3
      | none => L3) ∧ (match blockOf n with
      | some blk => if L.bit (Reg.FM_REACT_B n) then L3.blockReaction blk else L3
      | none => L3).md = L3.md
    cases hb : blockOf n with
    | none => exact ⟨Touches.refl .., rfl⟩
    | some blk =>
      dsimp only
      split
      · have t := L3.blockReaction_touches n blk hb
        refine ⟨t.mono ?_ (fun _ h => h), t.md_eq ?_⟩
        · unfold raiseParts resetParts
          rw [hb]
          intro p hp
          rcases List.mem_append.mp hp with h | h
          · exact List.mem_append_left _ ((by decide : [Part.fm, .hl, .ts, .cp] ⊆ [.md, .fc, .gd, .cp, .ts, .sm, .fm, .hl]) h)
          · exact List.mem_append_right _ h
        · have := blockOf_le n blk hb; simp at this
          rcases this with h | h | h | h | h | h | h | h <;> subst h <;> decide
      · exact ⟨Touches.refl .., rfl⟩
  have k : Touches (raiseParts n) (lateRegs n) L L4 := (s.mono (late_sub n) (fun _ h => h)).trans s4.1
  have r : RefugeAlone L L4 := .of_md (s4.2.trans (s.md_eq (by decide)))
  split
  · exact ⟨k.trans (L4.laneResetReaction_touches n), r.trans L4.laneResetReaction_md⟩
  · exact ⟨k, r⟩

theorem bitAt_setBit (v i : Nat) : bitAt (setBit v i) i = true := by
  unfold setBit
  split
  · assumption
  · rename_i h
    simp only [bitAt, decide_eq_true_eq] at h ⊢
    rw [Nat.add_div_right _ (Nat.two_pow_pos i)]
    omega

theorem bitAt_mod (v w i : Nat) (h : i < w) : bitAt (v % 2 ^ w) i = bitAt v i := by
  have := Nat.testBit_mod_two_pow v w i
  simp only [Nat.testBit_eq_decide_div_mod_eq, h, decide_true, Bool.true_and] at this
  exact this

theorem Lane.status_setStatus (L : Lane) (s : Nat) : (L.setStatus s true).status s = true := by
  have hs : s % 32 < 32 := Nat.mod_lt _ (by decide)
  simp only [Lane.status, Lane.setStatus, Lane.putBitOf, Lane.bitOf, Lane.get_set_same, putBit, if_true]
  rw [show (Reg.FM_STATUS_STATUS (s / 32)).width = 32 from rfl, bitAt_mod _ _ _ hs, bitAt_setBit]

theorem Lane.foldTallied_fm (L : Lane) : ∃ v, L.foldTallied = { L with fm := v } := by
  unfold Lane.foldTallied
  split <;> exact ⟨_, rfl⟩

theorem Lane.tally_touches (L : Lane) (n : Nat) :
    Touches (raiseParts n) (fields [] [Reg.FM_TALLY_TALLY n, Reg.FM_REC_TWRAP n]) L (L.tally n) := by
  unfold Lane.tally
  extract_lets L1 L2 L3
  have h1 : Touches (raiseParts n) (fields [] [Reg.FM_TALLY_TALLY n, Reg.FM_REC_TWRAP n]) L L1 := by
    show Touches _ _ L (if _ then _ else _)
    split
    · exact Touches.set _ (by simp [fields])
    · exact Touches.refl ..
  have h2 := h1.trans (Touches.set (f := Reg.FM_TALLY_TALLY n) (L1.get (Reg.FM_TALLY_TALLY n) + 1) (by simp [fields]))
  obtain ⟨v, hv⟩ := L2.foldTallied_fm
  have h3 : L3 = { L2 with fm := v } := hv
  rw [h3]
  exact h2.trans (Touches.of_fm (late_sub n (by decide)) _)

theorem Lane.tally_get (L : Lane) (n : Nat) :
    (L.tally n).get (Reg.FM_TALLY_TALLY n) = (L.get (Reg.FM_TALLY_TALLY n) + 1) % 2 ^ 32 := by
  unfold Lane.tally
  extract_lets L1 L2 L3
  have h1 : L1.get (Reg.FM_TALLY_TALLY n) = L.get (Reg.FM_TALLY_TALLY n) := by
    show (if _ then _ else _ : Lane).get _ = _
    split
    · exact Lane.get_set_other _ _ (by simp [Reg.FM_REC_TWRAP, Reg.FM_TALLY_TALLY, Fld.key]; omega)
    · rfl
  have h2 : L2.get (Reg.FM_TALLY_TALLY n) = (L1.get (Reg.FM_TALLY_TALLY n) + 1) % 2 ^ 32 := Lane.get_set_same ..
  rw [h1] at h2
  obtain ⟨v, hv⟩ := L2.foldTallied_fm
  have h3 : L3 = { L2 with fm := v } := hv
  rw [h3]; exact h2

theorem Lane.unrecover_touches (L : Lane) (n : Nat) : Touches (raiseParts n) (fields [] [Reg.FM_REC_REC n]) L (L.unrecover n) := by
  unfold Lane.unrecover
  repeat' split
  all_goals first | exact Touches.refl .. | exact Touches.set _ (by simp [fields])

/-- Source `n` has had one event between `L` and `M` (R551): its status is set, its tally stands one higher, the other tallies stay. -/
abbrev OneEvent (n : Nat) (L M : Lane) : Prop :=
  M.status n = true ∧ M.get (Reg.FM_TALLY_TALLY n) = (L.get (Reg.FM_TALLY_TALLY n) + 1) % 2 ^ 32 ∧
    ∀ k, k < 192 → k ≠ n → M.get (Reg.FM_TALLY_TALLY k) = L.get (Reg.FM_TALLY_TALLY k)

/-- One event of a source (R551): its status is set, its tally rises by one, the other tallies stay; what else it can change is
its FM bookkeeping and what its reactions reach. -/
theorem Lane.raiseAs_effect (L : Lane) {n : Nat} (hn : n < 192) (d : Nat) (forced : Bool) :
    OneEvent n L (L.raiseAs n d forced) ∧ Touches (raiseParts n) (raiseRegs n) L (L.raiseAs n d forced) ∧
      RefugeAlone L (L.raiseAs n d forced) := by
  have hlate : ∃ M, M = ((L.unrecover n).tally n).setStatus n true ∧ Touches (raiseParts n) (lateRegs n) M (L.raiseAs n d forced) ∧
      RefugeAlone M (L.raiseAs n d forced) := by
    refine ⟨_, rfl, ?_⟩
    unfold Lane.raiseAs
    extract_lets H F L2
    have h1 : LateTouch n (((L.unrecover n).tally n).setStatus n true) L2 :=
      (Lane.history_touches n _ n d forced).trans (Touches.of_fm (by decide) _)
    have k1 : Touches (raiseParts n) (lateRegs n) ((((L.unrecover n).tally n)).setStatus n true) L2 := h1.mono (late_sub n) (fun _ h => h)
    have r1 : RefugeAlone ((((L.unrecover n).tally n)).setStatus n true) L2 := .of_md (h1.md_eq (by decide))
    split
    · split
      · exact ⟨k1.trans (Touches.of_fm (late_sub n (by decide)) _), r1⟩
      · exact ⟨k1, r1⟩
    · exact ⟨k1.trans (L2.react_touches n).1, r1.trans (L2.react_touches n).2⟩
  obtain ⟨M, rfl, hl, hr⟩ := hlate
  have hst : Touches (raiseParts n) (fields [] [Reg.FM_STATUS_STATUS (n / 32)]) ((L.unrecover n).tally n) ((((L.unrecover n).tally n)).setStatus n true) :=
    Touches.set _ (by simp [fields])
  have hs : ∀ k, k < 192 → ((((L.unrecover n).tally n)).setStatus n true).get (Reg.FM_TALLY_TALLY k) = ((L.unrecover n).tally n).get (Reg.FM_TALLY_TALLY k) :=
    fun k hk => hst.regs _ (fields_none fun f hf => by
      rw [List.mem_singleton.mp hf]
      show (0x400C0800 + 4 * k) * 32 + 0 ≠ (0x400C0020 + 4 * (n / 32)) * 32 + 0
      omega)
  have hu : ∀ k, k < 192 → (L.unrecover n).get (Reg.FM_TALLY_TALLY k) = L.get (Reg.FM_TALLY_TALLY k) :=
    fun k hk => (L.unrecover_touches n).regs _ (fields_none fun f hf => by
      rw [List.mem_singleton.mp hf]
      show (0x400C0800 + 4 * k) * 32 + 0 ≠ (0x400C0C00 + 4 * n) * 32 + 0; omega)
  refine ⟨⟨?_, ?_, ?_⟩, ?_, ?_⟩
  · have := hl.regs (Reg.FM_STATUS_STATUS (n / 32)) (lateRegs_status n _ (by omega))
    unfold Lane.status Lane.bitOf
    rw [this]; exact ((L.unrecover n).tally n).status_setStatus n
  · rw [hl.regs _ (lateRegs_tally n n hn), hs n hn, Lane.tally_get, hu n hn]
  · intro k hk hkn
    rw [hl.regs _ (lateRegs_tally n k hk), hs k hk, ← hu k hk]
    refine ((L.unrecover n).tally_touches n).regs _ ?_
    refine fields_none fun f hf => ?_
    rcases List.mem_cons.mp hf with h | h
    · subst h; show (0x400C0800 + 4 * k) * 32 + 0 ≠ (0x400C0800 + 4 * n) * 32 + 0; omega
    · rw [List.mem_singleton.mp h]; show (0x400C0800 + 4 * k) * 32 + 0 ≠ (0x400C0C00 + 4 * n) * 32 + 8; omega
  · have hfm : ∀ k, raiseRegs n k = false → k / 0x200000 ≠ 0x400C := by
      intro k hk e; simp [raiseRegs, fields, e] at hk
    have own : ∀ f : Fld, f.key / 0x200000 = 0x400C → ∀ k, raiseRegs n k = false → decide (k = f.key) = false := by
      intro f hf k hk; have := hfm k hk; simp; rintro rfl; exact this hf
    have late : ∀ k, raiseRegs n k = false → lateRegs n k = false := by
      intro k hk
      have hk' := hfm k hk
      have h1 : fields (0x4001 :: (blockOf n).toList) (Reg.HL_CNT_RLOST_COUNT :: blockFlds (blockOf n) ++ refugeFlds) k = false :=
        fields_mono (by intro b hb; simp at hb ⊢; exact hb.imp_right .inr) (fun _ h => h) k hk
      simp only [fields, Bool.or_eq_false_iff] at h1
      unfold lateRegs lateFlds fields
      rw [h1.1, List.any_cons, List.any_cons, List.any_cons, h1.2, own Reg.FM_STAT_LRST_PEND (by decide) k hk, own Reg.FM_HSEQ_SEQ (by decide) k hk,
        own Reg.FM_HSKIP_SKIP (by decide) k hk]
      simp; omega
    refine ((((L.unrecover_touches n).mono (fun _ h => h) ?_).trans (((L.unrecover n).tally_touches n).mono (fun _ h => h) ?_)).trans (hst.mono (fun _ h => h) ?_)).trans (hl.mono (fun _ h => h) late)
    · intro k hk
      unfold fields
      rw [List.any_cons, own _ (by simp [Reg.FM_REC_REC, Fld.key]; omega) k hk]; rfl
    · intro k hk
      unfold fields
      rw [List.any_cons, List.any_cons, own _ (by simp [Reg.FM_TALLY_TALLY, Fld.key]; omega) k hk,
        own _ (by simp [Reg.FM_REC_TWRAP, Fld.key]; omega) k hk]; rfl
    · intro k hk
      unfold fields
      rw [List.any_cons, own _ (by simp [Reg.FM_STATUS_STATUS, Fld.key]; omega) k hk]; rfl
  · refine RefugeAlone.trans (.of_md ?_) hr
    show ((L.unrecover n).tally n).md = L.md
    have h1 : (L.unrecover n).md = L.md := by
      unfold Lane.unrecover
      repeat' split
      all_goals rfl
    rw [← h1]
    unfold Lane.tally
    extract_lets L1 L2 L3
    obtain ⟨v, hv⟩ := L2.foldTallied_fm
    have h3 : L3 = { L2 with fm := v } := hv
    rw [h3]
    show L1.md = _
    show (if _ then _ else _ : Lane).md = _
    split <;> rfl

/-- A block raises a source (R551, R552): the event's effect, or nothing where the source was already raised in the tick. -/
theorem Lane.raise_effect (L : Lane) {n : Nat} (hn : n < 192) (d : Nat) :
    Raised n L (L.raise n d) ∧ Touches (raiseParts n) (raiseRegs n) L (L.raise n d) ∧ RefugeAlone L (L.raise n d) := by
  obtain ⟨v, e⟩ : ∃ v, L.raise n d = if L.raisedNow n then L else Lane.raiseAs { L with fm := v } n d false := ⟨_, rfl⟩
  rw [e]; clear e
  cases h : L.raisedNow n with
  | true => exact ⟨⟨by simp [h], by simp [h], fun _ _ _ => rfl⟩, Touches.refl .., .of_md rfl⟩
  | false =>
    rw [if_neg (by simp)]
    generalize hM : ({ L with fm := v } : Lane) = M
    have e : ∀ f, M.get f = L.get f := fun f => by rw [← hM]; rfl
    obtain ⟨⟨hs, ht, ho⟩, hp, hr⟩ := M.raiseAs_effect hn d false
    refine ⟨⟨fun _ => hs, ?_, fun k hk hkn => (ho k hk hkn).trans (e _)⟩, ?_, ?_⟩
    · rw [ht, e]; simp [h]
    · refine Touches.trans ?_ hp
      rw [← hM]; exact Touches.of_fm (late_sub n (by decide)) _
    · refine RefugeAlone.trans (.of_md ?_) hr
      rw [← hM]

end Sys2Proof.Machine
end

