-- ==== Sys2Proof/Laws/Shapes.lean ====
section
/-! SUPPORT. The shapes of a command's effect: what the machine answers for a command of each shape, and that only the lane it
acts in changes but for time. -/

namespace Sys2Proof.Machine

theorem onLane_eq (x : LaneId) (f : Lane → Lane) (s : State) : onLane x f s = .next (s.setLane x (f (s.lane x).noteHeld)) := rfl

theorem onUp_eq {x : LaneId} {s : State} (h : (s.lane x).up = true) (f : Lane → Lane) :
    onUp x f s = .next (s.setLane x (f (s.lane x).noteHeld)) := by simp [onUp, h, onLane]

theorem onUp_down {x : LaneId} {s : State} (h : (s.lane x).up = false) (f : Lane → Lane) : onUp x f s = .next s := by
  simp [onUp, h]

theorem onAwake_eq {x : LaneId} {s : State} (h : (s.lane x).awake = true) (f : Lane → Lane) :
    onAwake x f s = .next (s.setLane x (f (s.lane x).noteHeld)) := by simp [onAwake, h, onLane]

theorem onAwake_down {x : LaneId} {s : State} (h : (s.lane x).awake = false) (f : Lane → Lane) : onAwake x f s = .next s := by
  simp [onAwake, h]

theorem onAwakeMem_eq {x : LaneId} {s : State} (h : (s.lane x).awake = true) (f : Lane → Mem → Lane × Mem) :
    onAwakeMem x f s = .next ((s.setLane x (f (s.lane x).noteHeld (s.memOf x)).1).setMem x (f (s.lane x).noteHeld (s.memOf x)).2) := by
  simp [onAwakeMem, h]

theorem atDue_eq {x : LaneId} {s : State} {t : Nat} {due : Lane → Option Nat} (h : (s.lane x).up = true) (hd : due (s.lane x) = some t)
    (f : Lane → Lane) : atDue x due f s = .next ((s.reach x t).setLane x (f ((s.reach x t).lane x).noteHeld)) := by
  simp [atDue, h, hd, onLane]

theorem atDue_none {x : LaneId} {s : State} {due : Lane → Option Nat} (hd : due (s.lane x) = none) (f : Lane → Lane) :
    atDue x due f s = .next s := by
  unfold atDue; split <;> simp [hd]

theorem awakeAtDue_eq {x : LaneId} {s : State} {t : Nat} {due : Lane → Option Nat} (h : (s.lane x).awake = true)
    (hd : due (s.lane x) = some t) (f : Lane → Lane) :
    awakeAtDue x due f s = .next ((s.reach x t).setLane x (f ((s.reach x t).lane x).noteHeld)) := by
  simp [awakeAtDue, h, hd, onLane]

theorem awakeAtDue_none {x : LaneId} {s : State} {due : Lane → Option Nat} (hd : due (s.lane x) = none) (f : Lane → Lane) :
    awakeAtDue x due f s = .next s := by
  unfold awakeAtDue; split <;> simp [hd]

theorem Lane.awake_of_up {L : Lane} (h : L.up = true) : L.awake = true := by
  simp [Lane.up] at h; simp [Lane.awake, h]

theorem State.reach_lane (s : State) (x y : LaneId) (t : Nat) : (s.reach x t).lane y = (s.lane y).advance (t - (s.lane x).now) := by
  simp [State.reach]

/-- Time passing changes LOCAL alone. -/
theorem Lane.advance_eq (n : Nat) (L : Lane) : L.advance n = { L with tb := (L.advance n).tb } := by
  unfold Lane.advance; split <;> rfl

@[simp] theorem Lane.advance_regs (n : Nat) (L : Lane) : (L.advance n).regs = L.regs := by rw [Lane.advance_eq]
@[simp] theorem Lane.advance_run (n : Nat) (L : Lane) : (L.advance n).run = L.run := by rw [Lane.advance_eq]
@[simp] theorem Lane.advance_me (n : Nat) (L : Lane) : (L.advance n).me = L.me := by rw [Lane.advance_eq]
@[simp] theorem Lane.advance_get (n : Nat) (L : Lane) (f : Fld) : (L.advance n).get f = L.get f := Lane.get_of_regs (by simp) f

theorem Touches.advance {P : List Part} {w : Nat → Bool} (hp : Part.tb ∈ P) (n : Nat) (L : Lane) : Touches P w L (L.advance n) := by
  rw [Lane.advance_eq]; exact Touches.of_tb hp _

/-- LOCAL after an event due at tick `t`: that tick where it lay ahead, the present one where it had passed. -/
theorem Lane.advance_now (L : Lane) {n : Nat} (h : L.run = .on ∨ L.run = .sleep) (hw : L.now + n < 2 ^ 64) :
    (L.advance n).now = L.now + n := by
  rcases h with h | h <;> simp [Lane.advance, h, Lane.now] <;> simpa [Lane.now] using hw

end Sys2Proof.Machine
end

