-- ==== Sys2Proof/Tests/Slice0.lean ====
section
/-! SUPPORT. The model's own tests: ill-formed commands that `Instr.wellFormed` refuses, steps whose results spec/ works out, and for
every statement with hypotheses a concrete state and operands that meet all of them together, clause by clause. -/

namespace Sys2Proof.Tests

open Sys2Proof Sys2Proof.Machine

set_option Elab.async false

/-- Power-on with lane A changed. -/
def laneA (fs : List (Lane → Lane)) : State :=
  { State.reset with lanes := { State.reset.lanes with a := fs.foldl (fun L f => f L) State.reset.lanes.a } }

def put (f : Fld) (v : Nat) (L : Lane) : Lane := L.set f v

/-- An LE instruction word (Table 3.6). -/
def leWord (op mod d a b n k : Nat) : Nat :=
  op * 2 ^ 58 + mod * 2 ^ 54 + d * 2 ^ 40 + a * 2 ^ 28 + b * 2 ^ 16 + n * 2 ^ 10 + k

/-- A run of trigger 0, dispatched at tick 0. -/
def run0 : LeRun := ⟨0, 0, 1000, 0, 0, false, false, false, false, false, false, [], 0, none, [], false, 0⟩

/-- The run `r` before the word `v`. -/
def runs (r : LeRun) (v : Nat) (L : Lane) : Lane := { L with le := { L.le with runs := [r], prog := [(0, v)] } }

/-- The header of an order of partition 0 on the command link. -/
def frame (n : Fin 64) : OrderHdr := ⟨0, 0, 0, 1, false, false, n⟩

/-- The header word of an order, and the order's frame as its route carries it (Table 14.3, R583). -/
def hdrWord (op : Nat) (h : OrderHdr) : Nat :=
  b2n h.resv * 2 ^ 31 + op * 2 ^ 24 + h.tag * 2 ^ 20 + h.part * 2 ^ 18 + b2n h.scope * 2 ^ 17 + h.narg
def viaOf (h : OrderHdr) : FrameVia := ⟨h.route, h.node, 0⟩
def frameSyms (ws : List Nat) : List Sym := .k27_7 :: ((wordBytes (ws ++ [crc32c (wordBytes ws)])).map Sym.data ++ [.k29_7])
def order (op : Nat) (h : OrderHdr) (args : List Word) : List Sym := frameSyms (hdrWord op h :: args.map (·.toNat))

/-- Partition 0 bound to the command link, which is up, with authority `auth`. -/
def linked (auth : Nat) (L : Lane) : Lane :=
  let M : Lane := { L with hl := { L.hl with linkUp := 1 } }
  (((M.set Reg.HL_CTRL_ROUTE_EN 1).set (Reg.HL_PART_CFG_EN 0) 1).set (Reg.HL_PART_CFG_ROUTES 0) 1).set (Reg.HL_PART_CFG_AUTH 0) auth

/-- Manifests of one element of firmware, one word long. -/
def laneMan (L : Lane) : Lane := (L.set Reg.XF_MAN_VALID 1).set (Reg.XF_MANIFEST_WORD 0) 0x30100
def vehMan (L : Lane) : Lane := (L.set Reg.VF_MAN_VALID 1).set (Reg.VF_MANIFEST_WORD 0) 0x10100

/-- On the vehicle ring, with a cycle of 125 µs and both links up. -/
def onRing (L : Lane) : Lane :=
  ((((L.set Reg.VF_CTRL_EN 1).set Reg.TB_STAT_VALID 1).set (Reg.VF_MANIFEST_WORD 1) 0x1000000).set Reg.VF_STAT_LINK0 1).set
    Reg.VF_STAT_LINK1 1

/-- A ferry frame of a kind, from a node of lane A's ring. -/
def wire (kind node : Nat) : VFrame :=
  let L : Lane := put Reg.VF_CTRL_NODE node (vehMan (Lane.atPowerOn .A))
  ⟨L.ferryFrame kind 0 [], true⟩

/-- Every link of the lane ferry with valid line code, and a frame of lane `h` on a path. -/
def allUp : List (LaneId × LaneId) := [(.A, .B), (.B, .A), (.B, .C), (.C, .B), (.A, .C), (.C, .A)]
def ringOf (h : LaneId) (path kind n man : Nat) (berths : List Byte) : RingFrame :=
  ⟨h, path, kind, h, allUp, ringHeader kind h path false n man ++ berths⟩
def ringNet (fs : List RingFrame) : Net := ⟨fs, allUp⟩

/-- The lane takes part in sailings. -/
def sails (L : Lane) : Lane :=
  let M : Lane := { L with xf := { L.xf with adopted := true } }
  M.set Reg.XF_CTRL_EN 1

/-- Stage 3 of the rejoin, both bridges driving. -/
def forming (L : Lane) : Lane :=
  (((L.set Reg.XF_REJOIN_STAGE 3).set Reg.SYS_MODE_MODE 1).set (Reg.FC_BR_STAT_DRIVE_OK 0) 1).set (Reg.FC_BR_STAT_DRIVE_OK 1) 1

/-- STARTUP, all three lanes qualified. -/
def startup3 (L : Lane) : Lane :=
  let M : Lane := { L with xf := { L.xf with peer := ⟨{}, { health := some (2 ^ 22) }, { health := some (2 ^ 22) }⟩ } }
  (M.set Reg.SYS_MODE_MODE 1).set Reg.XF_VSTAT_QUALIFIED 1

/-- The lane is the command lane. -/
def commands (L : Lane) : Lane :=
  let M : Lane := { L with xf := { L.xf with ownClaim := true } }
  ((M.set Reg.XF_VSTAT_QUALIFIED 1).set Reg.XF_VSTAT_IN_STEP 1).set Reg.XF_VSTAT_SELF_CMD 1

/-- Record 3 owned by trigger 2, which runs the control law. -/
def owned (L : Lane) : Lane :=
  (((L.set (Reg.LE_COWN_OWNED 3) 1).set (Reg.LE_COWN_TRIG 3) 2).set (Reg.LE_TRIG_CFG_SRC 2) 7).set Reg.LE_CSWAP_CYCLE_CYCLE 5

/-- Actuator 1's observer tracks a turning rotor. -/
def turning (L : Lane) : Lane :=
  let set1 : HallSet := { known := true, fusion := true, code := 1 }
  let obs1 : Obs := { last := some 0, squal := true, omega := 4294967296, fusion := [.A] }
  let a : AfAct := { sets := ⟨set1, {}, {}⟩, base := obs1, obs := obs1 }
  { L with af := { L.af with act := ⟨{}, a⟩ } }

/-- A SENT frame of six data nibbles 1 to 6 at the nominal rate of 3 µs. -/
def sent6 : SentFrame := ⟨168000, ([0, 1, 2, 3, 4, 5, 6, sentCheck false [1, 2, 3, 4, 5, 6]]).map fun n => (n + 12) * 3000, none⟩

def syncMsg (two : Bool) : SyncMsg := ⟨two, 1, 100, 0, 0, 655360⟩
def storeTxn : CoreTxn := ⟨.store, 0x20000000, 4, 15, 7, true, .clean, [], ⟨0, [], [], []⟩⟩
def loadTxn (a : Word) : CoreTxn := ⟨.load, a, 4, 15, 0, true, .clean, [], ⟨0, [], [], []⟩⟩
def ixWrite : IxReq := ⟨2, 0x20000000, 1, true, [5]⟩

/-- A script at its first step. -/
def script0 : ScriptRun := ⟨0, 0, 0, none, none, 0, 0, false, none⟩
def atScript (w0 w1 : Nat) (L : Lane) : Lane :=
  let M : Lane := { L with hl := { L.hl with run := some script0 } }
  (M.set (Reg.HL_SCRIPT_WORD 0 0) w0).set (Reg.HL_SCRIPT_WORD 0 1) w1

/-- The six die sensors at 25 °C. -/
def warm (L : Lane) : Lane := (List.range 6).foldl (fun M i => M.set (Reg.TM_SENS_TEMP i) 200) L

/-- Bridge 1's interval holds a high-side pulse of phase 2 from subtick 3200 of the interval on. -/
def fcpulse (L : Lane) : Lane :=
  { L with fc := { L.fc with br := ⟨{}, { pulse := [⟨0, 0⟩, ⟨0, 0⟩, ⟨3200, 8000⟩] }⟩ } }

/-- Power-on with lane B changed. -/
def laneB (fs : List (Lane → Lane)) : State :=
  { State.reset with lanes := { State.reset.lanes with b := fs.foldl (fun L f => f L) State.reset.lanes.b } }

/-- The state a command leaves. -/
def after (c : Instr) (s : State) : State := match exec c s with | .next t => t | _ => s

/-! ### Ill-formed commands -/

theorem test_ill_own_alive_line : ¬ WellFormed (.aliveLineEdge .A .A) := by decide
theorem test_ill_own_alive_timeout : ¬ WellFormed (.aliveLineTimeout .B .B) := by decide
theorem test_ill_own_link_down : ¬ WellFormed (.ferryLinkDown .C .C) := by decide
theorem test_ill_own_link_up : ¬ WellFormed (.ferryLinkUp .A .A) := by decide
theorem test_ill_own_berth_by_tail : ¬ WellFormed (.berthPassage .A .A 0 ⟨.B, true, false⟩ []) := by decide
theorem test_ill_flip_of_nothing : ¬ WellFormed (.berthPassage .A .B 0 ⟨.B, false, false⟩ [(3, 0)]) := by decide
theorem test_ill_launch_frame : ¬ WellFormed (.launchFrameReceived .A .lane (.wire ⟨List.replicate 64 0, true⟩)) ∧
    ¬ WellFormed (.launchFrameReceived .A .vehicle (.ring .B 0 [])) ∧ ¬ WellFormed (.launchFrameReceived .A .vehicle (.wire ⟨[], true⟩)) := by
  decide +kernel
theorem test_ill_enable_without_bit : ¬ WellFormed (.xfEnable .A 2) ∧ ¬ WellFormed (.vfEnable .A 1) := by decide
theorem test_ill_vehicle_pass : ¬ WellFormed (.vehiclePassArrival .A ⟨List.replicate 27 0, true⟩ 0) ∧
    ¬ WellFormed (.loadingPassReturn .A ⟨List.replicate 27 0, true⟩) := by decide +kernel
theorem test_ill_frames : ¬ WellFormed (.nonFerryFrame .A 0 0x10000 0 ⟨[], true⟩) ∧ ¬ WellFormed (.nonFerryFrame .A 0 0 (2 ^ 48) ⟨[], true⟩) ∧
    ¬ WellFormed (.nonFerryFrame .A 0 0 0 ⟨List.replicate 1515 0, true⟩) := by decide +kernel
theorem test_ill_hall_level : ¬ WellFormed (.hallEdge .A 0 ⟨5, 0⟩) ∧ ¬ WellFormed (.deputyHallEdge .A 0 ⟨5, 0⟩) := by decide
theorem test_ill_order_of_another_code : ¬ WellFormed (.ordPing .A (viaOf (frame 0)) (order 0x02 (frame 0) [])) := by decide +kernel
theorem test_ill_link_speed : ¬ WellFormed (.portLinkChange .A 0 true true 2500) := by decide
theorem test_ill_code_count : ¬ WellFormed (.samplingInstant .A true [1, 2] [1, 2, 3, 4]) ∧ ¬ WellFormed (.tmSample .A []) := by decide
theorem test_ill_transactions : ¬ WellFormed (.commitGateTransaction .A storeTxn { storeTxn with size := 3 }) ∧
    ¬ WellFormed (.commitGateTransaction .A { storeTxn with addr := 0x20000002 } storeTxn) := by decide
theorem test_ill_renewal : ¬ WellFormed (.ixRenewal .A [(4, 0)]) ∧ ¬ WellFormed (.ixRenewal .A [(0, 11)]) := by decide
theorem test_ill_requests : ¬ WellFormed (.ixGrant .A [{ ixWrite with beats := 0 }]) ∧
    ¬ WellFormed (.ixGrant .A [{ ixWrite with data := [1, 2, 3] }]) := by decide
theorem test_ill_unit : ¬ WellFormed (.sxUnitReceived .A 0 (List.replicate 129 0)) := by decide +kernel

/-! ### Values that spec/ works out -/

/-- 03_loop_engine.md, the encoding example: C22 with record 0, input s[0x107], state base 0x120 and output s[0x109]. -/
theorem test_c22_word_fields :
    let w := 0x4001091071200000
    opOf w = 0x10 ∧ modOf w = 0 ∧ dOf w = 0x109 ∧ aOf w = 0x107 ∧ bOf w = 0x120 ∧ nOf w = 0 ∧ kOf w = 0 := by decide +kernel

/-- 03_loop_engine.md, the example of rounding: 1.5 LSB and 2.5 LSB in the accumulator both store 2. -/
theorem test_sta_rounds_ties_to_even :
    ((after (.leSta .A .clean) (laneA [runs { run0 with acc := 3 * 2 ^ 29 } (leWord 5 0 128 0 0 0 0)])).lane .A).sig 128 = 2 ∧
    ((after (.leSta .A .clean) (laneA [runs { run0 with acc := 5 * 2 ^ 29 } (leWord 5 0 128 0 0 0 0)])).lane .A).sig 128 = 2 := by
  decide +kernel

/-- 03_loop_engine.md, the same example: MAC of 3 × 2^-30 by 0.5 in Q4.27 adds 3 × 2^29 with 60 fraction bits. -/
theorem test_mac_of_the_example :
    ((((after (.leMac .A .clean) (laneA [runs run0 (leWord 3 0 0 200 0 0 300), fun L =>
      { L with le := { L.le with sig := [(200, 3)], coef := [(300, 0x04000000)] } }])).lane .A).le.runs.headD run0).acc) = 3 * 2 ^ 29 := by
  decide +kernel

/-- 01_triplex.md, R26 and R27: the middle of three elements; 1,001 and 1,004 agree on 1,002. -/
theorem test_agreed_values : agreedValue [1001, 1004] 7 = 1002 ∧ agreedValue [3, 9, 5] 7 = 5 ∧ agreedValue [] 7 = 7 := by decide

/-- 01_triplex.md, the example of shares: 644,245,094 over three lanes, and over two when lane C is lost. -/
theorem test_shares_of_the_example :
    let drives (p : Peer) : Peer := { p with health := some (2 ^ 19), missing := 0 }
    let three (L : Lane) : Lane := { L with xf := { L.xf with peer := ⟨{}, drives {}, drives {}⟩ } }
    let two (L : Lane) : Lane := { L with xf := { L.xf with peer := ⟨{}, drives {}, {}⟩ } }
    ((laneA [put (Reg.FC_BR_STAT_DRIVE_OK 0) 1, three]).lane .A).split63 0 644245094 = [214748366, 214748364, 214748364] ∧
    ((laneA [put (Reg.FC_BR_STAT_DRIVE_OK 0) 1, two]).lane .A).split63 0 644245094 = [322122547, 322122547, 0] := by
  decide +kernel

/-- 05_field_control.md, the example of regeneration: V_REG 18,432, V_CEIL 19,456 and VDC 18,944 give k_reg one half, 8,192. -/
theorem test_regeneration_factor :
    ((laneA [put (Reg.FC_REGEN_CFG_V_REG 0) 18432, put (Reg.FC_REGEN_CFG_V_CEIL 0) 19456, fun L =>
      { L with fc := { L.fc with br := ⟨{ received := 5 }, {}⟩ }
               le := { L.le with sig := [(3, 18944 * 65536), (17, 2 ^ 32 - 1), (18, 0x40000000)] } }]).lane .A).kReg 0 = 8192 := by
  decide +kernel

/-- 13_faults.md, the worked example's first event in lane B: tally 84 goes from 17 to 18, and the history's sequence number from 1,000
to 1,001. -/
theorem test_first_event_of_lane_b :
    let t := after (.bootstrapUndervoltage .B 0 0) (laneB [put (Reg.FM_TALLY_TALLY 84) 17, put Reg.FM_HSEQ_SEQ 1000])
    (t.lane .B).get (Reg.FM_TALLY_TALLY 84) = 18 ∧ (t.lane .B).get Reg.FM_HSEQ_SEQ = 1001 ∧ (t.lane .B).status 84 = true ∧
      t.lane .A = (laneB []).lane .A := by
  decide +kernel

/-- 12_safety.md, SM_CMD: TOFF in SERVICE asserts the torque-off line; in BOOT it is outside its modes and answers 0x0B. -/
theorem test_torque_off_command :
    ((after (.smCmdToff .A) (laneA [put Reg.SYS_MODE_MODE 7])).lane .A).get Reg.SM_STAT_TOFF = 1 ∧
    ((after (.smCmdToff .A) State.reset).lane .A).get Reg.SM_CMD_RESULT = 0x0B := by
  decide +kernel

/-- 09_tasks_arbitration.md, R413: a queue gives back its oldest item first. -/
theorem test_queue_gives_oldest :
    ((after (.queuePop .A 63) (laneA [fun L => { L with ts := { L.ts with queues := [(63, [5, 6])] } }])).lane .A).queue 63 = [6] := by
  decide +kernel

/-! ### The hypotheses of the statements -/

theorem test_meets_StepRunsTheFrontCommand :
    ∃ (c : Instr) (rest : List Instr) (s : State), s.pending = c :: rest :=
  ⟨.snapshot .A, [.leNop .A .clean], { State.reset with pending := [.snapshot .A, .leNop .A .clean] }, rfl⟩

theorem test_meets_IdleStepIsOneTick : ∃ s : State, s.pending = [] := ⟨State.reset, rfl⟩

theorem test_meets_EveryStepKeepsMemoryCanonical : ∃ s t : State, s.MemoryWf ∧ step s = .next t :=
  ⟨{ State.reset with pending := [.snapshot .A] }, _, (by intro x; cases x <;> rfl), rfl⟩

theorem test_meets_ACommandChangesOtherLanesByTimeAlone : ∃ (c : Instr) (s t : State), exec c s = .next t :=
  ⟨.padRelease .A, State.reset, _, rfl⟩

theorem test_meets_ACommandReadsItsOwnLaneAndTheRing :
    ∃ (c : Instr) (s s' t : State), (∀ x k d, c ≠ .watchStart x k d) ∧ s.lane c.lane = s'.lane c.lane ∧
      s.memOf c.lane = s'.memOf c.lane ∧ s.net = s'.net ∧ exec c s = .next t :=
  ⟨.padRelease .A, State.reset, laneB [put Reg.SYS_MODE_MODE 7], _, (by intro x k d h; cases h), rfl, rfl, rfl, rfl⟩

/-! A lane in BOOT whose records 0, 3, 8 and 25 are in both banks: empty but for the 640 zero words of record 25. -/

/-- A record's words in both banks of its first slot `n`, as the table of the store lists them: header, length and CRC word. -/
def banksOf (n w0 len words crc : Nat) : Sparse Nat :=
  [(0x200 * n, w0), (0x200 * n + 2, len), (0x200 * n + 4 + words, crc), (0x8000 + 0x200 * n, w0), (0x8000 + 0x200 * n + 2, len),
   (0x8000 + 0x200 * n + 4 + words, crc)]

def storeOf (a b c d : Nat) : Sparse Nat :=
  banksOf 0 0x01000200 0 0 a ++ banksOf 3 0x03030100 0 0 b ++ banksOf 8 0x07081100 0 0 c ++ banksOf 25 0x08190300 2560 640 d

@[irreducible] def crcOf (w0 len words : Nat) : Nat := recordCrc (w0 :: 0 :: len :: 0 :: List.replicate words 0)

def bootStore : Sparse Nat := storeOf (crcOf 0x01000200 0 0) (crcOf 0x03030100 0 0) (crcOf 0x07081100 0 0) (crcOf 0x08190300 2560 640)

def readyLane : Lane :=
  let L : Lane := { State.reset.lanes.a with rs := { State.reset.lanes.a.rs with store := bootStore } }
  L.set Reg.SYS_LANE_ID_MATCH 1
def readyToBoot : State := { State.reset with lanes := { State.reset.lanes with a := readyLane } }

theorem spGet_storeOf (a b c d : Nat) : ∀ k ∈ [(0, 4, a), (0, 0x8004, a), (3, 0x604, b), (3, 0x8604, b), (8, 0x1004, c), (8, 0x9004, c),
    (25, 0x3484, d), (25, 0xB484, d)], spGet 0 k.2.1 (storeOf a b c d) = k.2.2 := by
  simp [storeOf, banksOf, spGet]

theorem bankList_of_store {L : Lane} (h : L.rs.store = bootStore) (n k : Nat) : L.bankList n k = readyLane.bankList n k := by
  have hw : L.bankWord n k = readyLane.bankWord n k := funext fun i => by rw [Lane.bankWord, Lane.bankWord, h]; rfl
  rw [Lane.bankList, Lane.bankList, hw]

theorem bankOk_of_store {L : Lane} (h : L.rs.store = bootStore) (n k : Nat) : L.bankOk n k = readyLane.bankOk n k := by
  have hw : ∀ i, L.bankWord n k i = readyLane.bankWord n k i := fun i => by rw [Lane.bankWord, Lane.bankWord, h]; rfl
  simp only [Lane.bankOk, bankList_of_store h, hw]

theorem chosenBank_of_store {L : Lane} (h : L.rs.store = bootStore) (n : Nat) : L.chosenBank n = readyLane.chosenBank n := by
  have hw : ∀ k i, L.bankWord n k i = readyLane.bankWord n k i := fun k i => by rw [Lane.bankWord, Lane.bankWord, h]; rfl
  simp only [Lane.chosenBank, bankOk_of_store h, hw]

/-- A bank whose CRC word is the CRC of its words. -/
theorem bank_is_ok {L : Lane} {n k : Nat} (w0 len words : Nat) (hl : L.bankList n k = w0 :: 0 :: len :: 0 :: List.replicate words 0)
    (h : L.bankWord n k 0 = w0 ∧ L.bankWord n k 2 = len ∧ identityOk n w0 = true ∧ 4 * (recordLen len + 1) ≤ bitsOf w0 15 8 * 2048)
    (hc : L.bankWord n k (recordLen len) = crcOf w0 len words) : L.bankOk n k = true := by
  rw [crcOf] at hc
  simp only [Lane.bankOk, h, hl, hc, decide_true, Bool.and_self]

theorem ready_word (n k i : Nat) : readyLane.bankWord n k i = spGet 0 (0x8000 * k + 0x200 * n + i) bootStore := rfl

theorem ready_ok (n : Nat) (hn : n ∈ [0, 3, 8, 25]) (k : Nat) (hk : k ∈ [0, 1]) : readyLane.bankOk n k = true := by
  simp only [List.mem_cons, List.not_mem_nil, or_false] at hn hk
  have hc := spGet_storeOf (crcOf 0x01000200 0 0) (crcOf 0x03030100 0 0) (crcOf 0x07081100 0 0) (crcOf 0x08190300 2560 640)
  rcases hn with rfl | rfl | rfl | rfl <;> rcases hk with rfl | rfl
  · exact bank_is_ok 0x01000200 0 0 (by decide +kernel) (by decide +kernel) ((ready_word 0 0 4).trans (hc (0, 4, _) (by simp)))
  · exact bank_is_ok 0x01000200 0 0 (by decide +kernel) (by decide +kernel) ((ready_word 0 1 4).trans (hc (0, 0x8004, _) (by simp)))
  · exact bank_is_ok 0x03030100 0 0 (by decide +kernel) (by decide +kernel) ((ready_word 3 0 4).trans (hc (3, 0x604, _) (by simp)))
  · exact bank_is_ok 0x03030100 0 0 (by decide +kernel) (by decide +kernel) ((ready_word 3 1 4).trans (hc (3, 0x8604, _) (by simp)))
  · exact bank_is_ok 0x07081100 0 0 (by decide +kernel) (by decide +kernel) ((ready_word 8 0 4).trans (hc (8, 0x1004, _) (by simp)))
  · exact bank_is_ok 0x07081100 0 0 (by decide +kernel) (by decide +kernel) ((ready_word 8 1 4).trans (hc (8, 0x9004, _) (by simp)))
  · exact bank_is_ok 0x08190300 2560 640 (by decide +kernel) (by decide +kernel) ((ready_word 25 0 644).trans (hc (25, 0x3484, _) (by simp)))
  · exact bank_is_ok 0x08190300 2560 640 (by decide +kernel) (by decide +kernel) ((ready_word 25 1 644).trans (hc (25, 0xB484, _) (by simp)))

theorem ready_chosen (n : Nat) (hn : n ∈ [0, 3, 8, 25]) : readyLane.chosenBank n = some 0 := by
  have h0 := ready_ok n hn 0 (by simp)
  have h1 := ready_ok n hn 1 (by simp)
  have hs : (readyLane.bankWord n 1 1 + 2 ^ 32 - readyLane.bankWord n 0 1) % 2 ^ 32 = 0 := by
    simp only [List.mem_cons, List.not_mem_nil, or_false] at hn
    rcases hn with rfl | rfl | rfl | rfl <;> exact by decide +kernel
  simp only [Lane.chosenBank, h0, h1, hs]
  rfl

theorem ready_words {L : Lane} (h : L.rs.store = bootStore) (n : Nat) (hn : n ∈ [0, 3, 8, 25]) :
    L.recordWords n = some ((readyLane.bankList n 0).drop 4) := by
  simp only [Lane.recordWords, chosenBank_of_store h, ready_chosen n hn, bankList_of_store h, Option.map_some]

theorem ready_read {L : Lane} (h : L.rs.store = bootStore) (n : Nat) (hn : n ∈ [0, 3, 8, 25]) : L.readRecord n = L.showSlot n := by
  have h0 : L.bankOk n 0 = true := by rw [bankOk_of_store h, ready_ok n hn 0 (by simp)]
  have h1 : L.bankOk n 1 = true := by rw [bankOk_of_store h, ready_ok n hn 1 (by simp)]
  have hc : L.chosenBank n = some 0 := by rw [chosenBank_of_store h, ready_chosen n hn]
  simp [Lane.readRecord, Lane.forEach, h0, h1, hc]

theorem forEach_keeps {α β : Type} (g : Lane → β) (f : α → Lane → Lane) (hf : ∀ a M, g (f a M) = g M) (l : List α) (L : Lane) :
    g (L.forEach l f) = g L := by
  induction l generalizing L with
  | nil => rfl
  | cons a l ih => exact (ih (f a L)).trans (hf a L)

/-- What BOOT reads of the record store and of the spares. -/
def kept (L : Lane) : Rs × St := (L.rs, L.st)

/-- The lane once the records have been read. -/
def bootedLane : Lane := (readyToBoot.lane .A).noteHeld.bootReads

theorem booted_store : bootedLane.rs.store = bootStore ∧ bootedLane.st = (readyToBoot.lane .A).st := by
  have hr : (readyToBoot.lane .A).noteHeld.forEach [0, 3, 8, 25] (fun n L => L.readRecord n) =
      ((((readyToBoot.lane .A).noteHeld.showSlot 0).showSlot 3).showSlot 8).showSlot 25 := by
    simp only [Lane.forEach, List.foldl_cons, List.foldl_nil]
    rw [ready_read rfl 0 (by simp), ready_read rfl 3 (by simp), ready_read rfl 8 (by simp), ready_read rfl 25 (by simp)]
  constructor
  · rw [bootedLane, Lane.bootReads, hr, forEach_keeps (fun L => L.rs.store) (fun n L => L.showSlot n) (fun _ _ => rfl)]; rfl
  · rw [bootedLane, Lane.bootReads, hr, forEach_keeps (fun L => L.st) (fun n L => L.showSlot n) (fun _ _ => rfl)]; rfl

theorem booted_pairs {L : Lane} (h : L.rs.store = bootStore) : L.configPairs = [] := by
  rw [Lane.configPairs, ready_words h 0 (by simp), show (readyLane.bankList 0 0).drop 4 = [] by decide +kernel]; rfl

theorem booted_word {L : Lane} (h : L.rs.store = bootStore) (a : Nat) : L.configWord a = none := by
  rw [Lane.configWord, booted_pairs h]; rfl

theorem booted_images : bootedLane.imagesOk = true := by
  have hs := booted_store.1
  have hf : bootedLane.bootCcfg.full = false := by
    rw [Lane.full, Lane.bit, Lane.bootCcfg, booted_word hs, Lane.get_set_same]; rfl
  rw [Lane.imagesOk, ready_words hs 0 (by simp), ready_words hs 8 (by simp), ready_words hs 25 (by simp), hf]
  have hw : readyLane.bankWord 25 0 2 = 2560 := by decide +kernel
  simp [Lane.bankList, hw, recordLen]

theorem setProg_kept (L : Lane) (i v : Nat) : kept (L.setProg i v) = kept L := by
  simp only [kept, Lane.setProg]

theorem setProgs_kept (ws l : List Nat) (L : Lane) :
    kept (L.forEach l fun a L => L.setProg a (nth ws (2 * a) * 2 ^ 32 + nth ws (2 * a + 1))) = kept L :=
  forEach_keeps kept (fun a L => L.setProg a (nth ws (2 * a) * 2 ^ 32 + nth ws (2 * a + 1))) (fun _ _ => setProg_kept _ _ _) _ _

theorem loadProgram_kept (L : Lane) : kept L.loadProgram = kept L := by
  rw [Lane.loadProgram]
  split
  · rfl
  · exact setProgs_kept _ _ _

theorem loadCoef_kept (L : Lane) : kept L.loadCoef = kept L := by
  have hp : ∀ (g v : Nat → Nat) (l : List Nat) (M : Lane), kept (M.forEach l fun w L => L.setPhys (g w) (v w)) = kept M :=
    fun g v l M => forEach_keeps kept (fun w L => L.setPhys (g w) (v w)) (fun _ _ => by simp only [kept, Lane.setPhys]) l M
  rw [Lane.loadCoef]
  split
  · rfl
  · next ws _ =>
    generalize (List.range 512) = l5
    show kept (if L.full then L.forEach (List.range _) fun w L => L.setPhys w (nth ws w) else
      (L.forEach (List.range _) fun w L => L.setPhys w (nth ws w)).forEach l5 fun w L => L.setPhys (512 + w) (nth ws w)) = _
    split
    · exact hp (fun w => w) (nth ws) _ _
    · exact (hp (fun w => 512 + w) (nth ws) _ _).trans (hp (fun w => w) (nth ws) _ _)

/-- The spares of macro `m` for the addresses to repair. -/
def repairOne (m : Nat) (L : Lane) : Lane :=
  let n := countIf (fun a => decide (macroOf a = m)) L.st.repair
  let L1 := (L.set (Reg.ST_REPAIR_ROWS m) (min 16 n)).set (Reg.ST_REPAIR_COLS m) (min 4 (n - 16))
  if 20 < n then { L1 with st := { L1.st with exhausted := true } } else L1

theorem repairOne_none (m : Nat) (L : Lane) (h : L.st.repair = []) : kept (repairOne m L) = kept L := by
  rw [repairOne, h]; rfl

theorem repairs_none (l : List Nat) (L : Lane) (h : L.st.repair = []) : kept (L.forEach l repairOne) = kept L := by
  induction l generalizing L with
  | nil => rfl
  | cons m l ih =>
    have h1 := repairOne_none m L h
    exact (ih (repairOne m L) (by rw [(Prod.mk.inj h1).2, h])).trans h1

theorem config_kept (L M : Lane) (m : Mem) (h : L.rs.store = bootStore) :
    (M.forEach L.configPairs fun p L => L.bootWrite m p.1 p.2) = M := by
  rw [booted_pairs h]; rfl

theorem forEach_nothing (l : List Nat) (L : Lane) : (L.forEach l fun _ M => M) = L := by
  induction l with
  | nil => rfl
  | cons n l ih => exact ih

theorem bootCcfg_kept (L : Lane) : kept L.bootCcfg = kept L := rfl

/-- BOOT's loads leave the spares as they were where there is nothing to repair. -/
theorem load_keeps_spares (L : Lane) (m : Mem) (hs : L.rs.store = bootStore) (he : L.st.exhausted = false) :
    (L.bootLoad m).st.exhausted = false := by
  have h3 : L.recordWords 3 = some [] := by
    rw [ready_words hs 3 (by simp), show (readyLane.bankList 3 0).drop 4 = [] by decide +kernel]
  generalize hL1 : ({ L with st := { L.st with repair := (L.recordWords 3).getD [] } } : Lane) = L1
  have hk : L1.st.repair = [] ∧ L1.st.exhausted = false := by
    rw [← hL1]
    exact ⟨by rw [h3]; rfl, he⟩
  generalize hL2 : L1.applyRepairs.bootCcfg.loadProgram.loadCoef = L2
  have h2 : kept L2 = kept L1 := by
    rw [← hL2, loadCoef_kept, loadProgram_kept, bootCcfg_kept]
    exact repairs_none (List.range 8) L1 hk.1
  have he2 : L2.st.exhausted = false := by rw [(Prod.mk.inj h2).2, hk.2]
  have hb : L.bootLoad m =
      let L6 := L2.set Reg.LE_CTRL_RUN 1
      L6.set Reg.XF_DIGEST_DIGEST L6.digest := by
    rw [Lane.bootLoad]
    dsimp only
    rw [hL1, hL2, config_kept L L2 m hs]
    simp only [booted_word hs, forEach_nothing]
  rw [hb]
  exact he2

theorem booted_loads : (bootedLane.bootLoad (readyToBoot.memOf .A)).st.exhausted = false :=
  load_keeps_spares bootedLane _ booted_store.1 (by rw [booted_store.2]; rfl)


theorem test_meets_SupplyStartsAndStopsALane :
    (∃ (x : LaneId) (s : State), (s.lane x).run = .unpowered) :=
  ⟨.A, (laneA [(fun L => { L with run := .unpowered })]), by decide +kernel⟩

theorem test_meets_ResetBallAndCrystal :
    (∃ (x : LaneId) (ns : Nat) (s : State), (s.lane x).run ≠ .unpowered ∧ (s.lane x).run ≠ .off ∧ ((1000 ≤ ns ∨ (200 < ns ∧ (s.lane x).takeBit.1 = true)))) ∧
    (∃ (ns : Nat), ns ≤ 200) ∧
    (∃ (ns : Nat), 200 < ns ∧ ns < 1000) ∧
    (∃ (x : LaneId) (s : State), ((s.lane x).run = .on ∨ (s.lane x).run = .sleep)) ∧
    (∃ (x : LaneId) (s : State), (s.lane x).run = .held ∧ (s.lane x).tm.hold = false ∧ (s.lane x).pins.crystal = false) :=
  ⟨⟨.A, 1000, (laneA []), by decide +kernel⟩,
    ⟨200, by decide +kernel⟩,
    ⟨500, by decide +kernel⟩,
    ⟨.A, (laneA [(fun L => { L with run := .sleep })]), by decide +kernel⟩,
    ⟨.A, (laneA [(fun L => { L with run := .held }), (fun L => { L with pins := { L.pins with crystal := false } })]), by decide +kernel⟩⟩

theorem test_meets_BootEndsInStartupOrRetries :
    (∃ (x : LaneId) (s : State), (s.lane x).up = true ∧ (s.lane x).bootable = true ∧ (s.lane x).noteHeld.bootReads.imagesOk = true ∧ ((s.lane x).noteHeld.bootReads.bootLoad (s.memOf x)).st.exhausted = false) ∧
    (∃ (x : LaneId) (s : State), (s.lane x).up = true ∧ (s.lane x).mode = 0 ∧ (s.lane x).md.bootStop = false) ∧
    (∃ (x : LaneId) (s : State), (s.lane x).awake = true ∧ (((s.lane x).md.resetReady = true ∨ (s.lane x).md.resetNext = true ∧ ((s.lane x).run = .sleep ∨ ¬ ((s.lane x).xf.adopted = true ∧ (s.lane x).bit Reg.XF_CTRL_EN = true))))) :=
  ⟨⟨.A, readyToBoot, by decide +kernel, by decide +kernel, booted_images, booted_loads⟩,
    ⟨.A, (laneA []), by decide +kernel⟩,
    ⟨.A, (laneA [(fun L => { L with md := { L.md with resetReady := true } })]), by decide +kernel⟩⟩

theorem test_meets_WatchThresholdsAndModeRequest :
    (∃ (x : LaneId) (t0 : Nat) (s : State), (s.lane x).up = true ∧ ((s.lane x).md.watchAt = some t0 ∨ (s.lane x).md.watchAt = none ∧ t0 + 1000000 = (s.lane x).now)) ∧
    (∃ (x : LaneId) (s : State), (s.lane x).up = true) ∧
    (∃ (x : LaneId) (t0 : Nat) (s : State), (s.lane x).up = true ∧ (s.lane x).md.splitHeld = false ∧ (s.lane x).xf.unresolvedAt = some t0) ∧
    (∃ (x : LaneId) (s : State), (s.lane x).up = true ∧ (s.lane x).mode = 1 ∧ (s.lane x).countGuard 1 = true ∧ (∃ y, (s.lane x).qualified y = true ∧ (s.lane x).startDoneOf y = false)) ∧
    (∃ (x : LaneId) (mv : Nat) (s : State), (s.lane x).awake = true ∧ (s.lane x).nvOpen = false ∧ mv < 6000 ∧ 6000 ≤ (s.lane x).pins.vsup ∧ (s.lane x).pins.vsup ≤ 58000) ∧
    (∃ (x : LaneId) (mv : Nat) (s : State), (s.lane x).awake = true ∧ 58000 < mv ∧ 6000 ≤ (s.lane x).pins.vsup ∧ (s.lane x).pins.vsup ≤ 58000) ∧
    (∃ (x : LaneId) (mv : Nat) (s : State), (s.lane x).awake = true ∧ 6000 ≤ mv ∧ mv ≤ 58000) ∧
    (∃ (x : LaneId) (mv : Nat) (s : State), (s.lane x).awake = true ∧ mv < 6000) ∧
    (∃ (x : LaneId) (t0 : Nat) (s : State), (s.lane x).awake = true ∧ (s.lane x).pm.phyUp = false ∧ (s.lane x).pm.phyClk = some t0) ∧
    (∃ (x : LaneId) (s : State), (s.lane x).up = true ∧ (s.lane x).bit Reg.SYS_MODE_REQ_GO = false ∧ (s.lane x).bit Reg.SYS_MODE_CFG_FW_SUPER = true ∧ (s.lane x).isCommand = true ∧ (s.lane x).changePending = false) ∧
    (∃ (x : LaneId) (c : LaneId) (s : State), (s.lane x).up = true ∧ (s.lane x).bit Reg.SYS_MODE_REQ_GO = false ∧ (s.lane x).bit Reg.SYS_MODE_CFG_FW_SUPER = true ∧ (s.lane x).isCommand = false ∧ (s.lane x).commandLane = some c ∧ (s.lane x).bit Reg.HL_ELEM_EN = true ∧ (s.lane x).hl.relayQ.length < 16) ∧
    (∃ (x : LaneId) (s : State), (s.lane x).up = true ∧ (s.lane x).bit Reg.SYS_MODE_REQ_GO = false ∧ (s.lane x).bit Reg.SYS_MODE_CFG_FW_SUPER = false) ∧
    (∃ (x : LaneId) (s : State), (s.lane x).up = true ∧ (s.lane x).bit Reg.SYS_MODE_REQ_GO = true) :=
  ⟨⟨.A, 0, (laneA [(fun L => { L with md := { L.md with watchAt := some 0 } })]), by decide +kernel⟩,
    ⟨.A, (laneA []), by decide +kernel⟩,
    ⟨.A, 7, (laneA [(fun L => { L with xf := { L.xf with unresolvedAt := some 7 } })]), by decide +kernel⟩,
    ⟨.A, (laneA [startup3]), by decide +kernel, by decide +kernel, by decide +kernel, ⟨.A, by decide +kernel, by decide +kernel⟩⟩,
    ⟨.A, 5999, (laneA []), by decide +kernel⟩,
    ⟨.A, 58001, (laneA []), by decide +kernel⟩,
    ⟨.A, 6000, (laneA []), by decide +kernel⟩,
    ⟨.A, 5999, (laneA []), by decide +kernel⟩,
    ⟨.A, 0, (laneA [(fun L => { L with pm := { L.pm with phyClk := some 0 } })]), by decide +kernel⟩,
    ⟨.A, (laneA [put Reg.SYS_MODE_CFG_FW_SUPER 1, commands]), by decide +kernel⟩,
    ⟨.A, .B, (laneA [put Reg.SYS_MODE_CFG_FW_SUPER 1, put Reg.HL_ELEM_EN 1, (fun L => { L with xf := { L.xf with peer := { L.xf.peer with b := { health := some 0x3E00000 } } } })]), by decide +kernel⟩,
    ⟨.A, (laneA []), by decide +kernel⟩,
    ⟨.A, (laneA [put Reg.SYS_MODE_REQ_GO 1]), by decide +kernel⟩⟩

theorem forming_leads : ((laneA [forming]).lane .A).formationLead = some .A := by
  have hp : ((laneA [forming]).lane .A).precedence = [.A, .B, .C] := by decide +kernel
  have hi : ((laneA [forming]).lane .A).inDrive 0 .A = true := by decide +kernel
  have hd : ((laneA [forming]).lane .A).digestOf .A = some ((laneA [forming]).lane .A).digest := rfl
  rw [Lane.formationLead, hp, List.find?_cons_of_pos (by rw [hi, hd]; simp)]

theorem forming_is_due : ((laneA [forming]).lane .A).formationDue = some 0 := by
  have hm : ((laneA [forming]).lane .A).me = .A := rfl
  rw [Lane.formationDue, forming_leads, hm]
  decide +kernel

theorem test_meets_TicksFormationBoostAndLinks :
    (∃ (x : LaneId) (T : Nat) (s : State), (s.lane x).up = true ∧ (s.lane x).tickDue = some T ∧ (∀ n, (s.lane x).xf.cur = some n → ((s.reach x T).lane x).ferry < (n + 1) * 2500)) ∧
    (∃ (x : LaneId) (T : Nat) (s : State), (s.lane x).up = true ∧ (s.lane x).formationDue = some T) ∧
    (∃ (x : LaneId) (s : State), (s.lane x).up = true) ∧
    (∃ (x : LaneId) (T : Nat) (s : State), (s.lane x).up = true ∧ (s.lane x).tickDue = some T) ∧
    (∃ (x : LaneId) (y : LaneId) (s : State), (s.lane x).up = true ∧ x ≠ y) ∧
    (∃ (x : LaneId) (y : LaneId) (t0 : Nat) (s : State), (s.lane x).up = true ∧ ((s.lane x).peerOf y).aliveAt = some t0) ∧
    (∃ (x : LaneId) (y : LaneId) (s : State), (s.lane x).up = true ∧ x ≠ y ∧ ((s.lane x).peerOf y).down = false) ∧
    (∃ (x : LaneId) (y : LaneId) (s : State), (s.lane x).up = true ∧ x ≠ y) :=
  ⟨⟨.A, 0, (laneA [put Reg.XF_CTRL_EN 1, (fun L => { L with xf := { L.xf with adopted := true } })]), by decide +kernel⟩,
    ⟨.A, 0, (laneA [forming]), by decide +kernel, forming_is_due⟩,
    ⟨.A, (laneA []), by decide +kernel⟩,
    ⟨.A, 0, (laneA [put Reg.XF_CTRL_EN 1, (fun L => { L with xf := { L.xf with adopted := true, cur := some 0 } })]), by decide +kernel⟩,
    ⟨.A, .B, (laneA []), by decide +kernel⟩,
    ⟨.A, .B, 5, (laneA [(fun L => { L with xf := { L.xf with peer := { L.xf.peer with b := { aliveAt := some 5 } } } })]), by decide +kernel⟩,
    ⟨.A, .C, (laneA []), by decide +kernel⟩,
    ⟨.A, .C, (laneA [(fun L => { L with xf := { L.xf with peer := { L.xf.peer with c := { down := true } } } })]), by decide +kernel⟩⟩

theorem test_meets_ASailingLatchesDepartsIsJudgedAndLands :
    (∃ (x : LaneId) (n : Nat) (T : Nat) (s : State), (s.lane x).up = true ∧ (s.lane x).latchDue = some (.lane, n, T)) ∧
    (∃ (x : LaneId) (n : Nat) (T : Nat) (s : State), (s.lane x).up = true ∧ (s.lane x).latchDue = some (.vehicle, n, T)) ∧
    (∃ (x : LaneId) (s : State), (s.lane x).up = true ∧ (s.lane x).sails = true) ∧
    (∃ (x : LaneId) (n : Nat) (T : Nat) (s : State), (s.lane x).up = true ∧ (s.lane x).judgeDue = some T ∧ (s.lane x).xf.cur = some n ∧ ((s.lane x).bit Reg.XF_VSTAT_ISOLATED = false ∨ (s.lane x).xf.isoRun < 63)) ∧
    (∃ (x : LaneId) (n : Nat) (s : State), (s.lane x).up = true ∧ (s.lane x).sails = true ∧ (s.lane x).xf.cur = some n) :=
  ⟨⟨.A, 0, 0, (laneA [sails]), by decide +kernel⟩,
    ⟨.A, 1, 12300, (laneA [onRing]), by decide +kernel⟩,
    ⟨.A, (laneA [put Reg.XF_CTRL_EN 1, (fun L => { L with xf := { L.xf with adopted := true } })]), by decide +kernel⟩,
    ⟨.A, 2, 7100, (laneA [put Reg.XF_CTRL_EN 1, (fun L => { L with xf := { L.xf with adopted := true, cur := some 2 } })]), by decide +kernel⟩,
    ⟨.A, 2, (laneA [put Reg.XF_CTRL_EN 1, (fun L => { L with xf := { L.xf with adopted := true, cur := some 2 } })]), by decide +kernel⟩⟩

theorem test_meets_FramesBerthsAndTails :
    (∃ (x : LaneId) (path : Fin 2) (head : FrameHead) (g : RingFrame) (f : RingFrame) (s : State), (s.lane x).up = true ∧ (s.lane x).frameHere s.net path head.id = some g ∧ head.id.tail = false ∧ f = ⟨g.orig, g.path, g.kind, g.place, g.rx, flipBytes (g.bytes.take 16) head.flips ++ g.bytes.drop 16⟩ ∧ ringCheckOk f = true) ∧
    (∃ (x : LaneId) (path : Fin 2) (head : FrameHead) (g : RingFrame) (f : RingFrame) (s : State), (s.lane x).up = true ∧ (s.lane x).frameHere s.net path head.id = some g ∧ head.id.tail = true ∧ f = ⟨g.orig, g.path, g.kind, g.place, g.rx, flipBytes (g.bytes.take 16) head.flips ++ g.bytes.drop 16⟩ ∧ ringCheckOk f = true) ∧
    (∃ (x : LaneId) (path : Fin 2) (frame : FrameId) (f : RingFrame) (s : State), (s.lane x).up = true ∧ (s.lane x).reads s.net path frame = some f ∧ frame.tail = false ∧ (s.lane x).writes f frame.back = true) ∧
    (∃ (x : LaneId) (y : LaneId) (path : Fin 2) (frame : FrameId) (f : RingFrame) (s : State), (s.lane x).up = true ∧ (s.lane x).reads s.net path frame = some f ∧ y ≠ x ∧ ((frame.tail = true → y ≠ frame.orig))) ∧
    (∃ (x : LaneId) (n : Nat) (T : Nat) (s : State), (s.lane x).up = true ∧ (s.lane x).sails = true ∧ (s.lane x).xf.head.contains (0, x) = true ∧ (s.lane x).xf.cur = some n ∧ T = (s.lane x).localOf (n * 2500 + (s.lane x).xf.delay + 100 + 2 * (16 + 3 * (s.lane x).berthLen .lane 0))) ∧
    (∃ (x : LaneId) (path : Fin 2) (head : FrameHead) (g : RingFrame) (f : RingFrame) (s : State), (s.lane x).up = true ∧ (s.lane x).frameHere s.net path head.id = some g ∧ f = ⟨g.orig, g.path, g.kind, g.place, g.rx, flipBytes (g.bytes.take 16) head.flips ++ g.bytes.drop 16⟩ ∧ ringCheckOk f = false) :=
  ⟨⟨.A, 1, ⟨⟨.B, false, false⟩, []⟩, (ringOf .B 1 1 4 0 []), _, { laneA [put Reg.XF_CTRL_EN 1] with net := ringNet [ringOf .B 1 1 4 0 []] }, by decide +kernel, by decide +kernel, by decide +kernel, rfl, by decide +kernel⟩,
    ⟨.A, 1, ⟨⟨.B, true, false⟩, []⟩, (ringOf .B 1 2 4 0 [1]), _, { laneA [put Reg.XF_CTRL_EN 1] with net := ringNet [ringOf .B 1 2 4 0 [1]] }, by decide +kernel, by decide +kernel, by decide +kernel, rfl, by decide +kernel⟩,
    ⟨.A, 1, ⟨.B, false, false⟩, (ringOf .B 1 1 4 0 []), { laneA [put Reg.XF_CTRL_EN 1, (fun L => { L with xf := { L.xf with matched := [(1, .B)], accepted := [(1, .B)], cur := some 4, berth := [1, 2] } })] with net := ringNet [ringOf .B 1 1 4 0 []] }, by decide +kernel⟩,
    ⟨.A, .B, 1, ⟨.B, false, false⟩, (ringOf .B 1 1 4 0 []), { laneA [put Reg.XF_CTRL_EN 1, (fun L => { L with xf := { L.xf with matched := [(1, .B)] } })] with net := ringNet [ringOf .B 1 1 4 0 []] }, by decide +kernel⟩,
    ⟨.A, 4, _, (laneA [put Reg.XF_CTRL_EN 1, (fun L => { L with xf := { L.xf with adopted := true, cur := some 4, head := [(0, .A)] } })]), by decide +kernel, by decide +kernel, by decide +kernel, by decide +kernel, rfl⟩,
    ⟨.A, 1, ⟨⟨.B, false, false⟩, [(2, 1)]⟩, (ringOf .B 1 1 4 0 []), _, { laneA [put Reg.XF_CTRL_EN 1] with net := ringNet [ringOf .B 1 1 4 0 []] }, by decide +kernel, by decide +kernel, rfl, by decide +kernel⟩⟩

theorem test_meets_ReliefAndLaunches :
    (∃ (x : LaneId) (n : Nat) (T : Nat) (s : State), (s.lane x).up = true ∧ (s.lane x).reliefDue = some T ∧ (s.lane x).xf.cur = some n) ∧
    (∃ (x : LaneId) (T : Nat) (s : State), (s.lane x).up = true ∧ (s.lane x).launchDue = some T) ∧
    (∃ (x : LaneId) (T : Nat) (s : State), (s.lane x).up = true ∧ (s.lane x).vehLaunchDue = some T ∧ ((s.reach x T).lane x).vf.busy.one ≤ ((s.reach x T).lane x).now ∧ (s.lane x).vf.waiting.one = [] ∧ (s.lane x).bit Reg.VF_STAT_LINK1 = true) ∧
    (∃ (x : LaneId) (path : Fin 2) (g : RingFrame) (s : State), (s.lane x).up = true ∧ s.net.launchAt x (s.lane x).me path = some g ∧ ringCheckOk g = true ∧ (s.lane x).bit Reg.XF_CTRL_EN = true ∧ (s.lane x).seesSailings = false ∧ (s.lane x).bit Reg.XF_STAT_LAUNCHING = true) ∧
    (∃ (x : LaneId) (h : LaneId) (path : Fin 2) (g : RingFrame) (s : State), (s.lane x).up = true ∧ s.net.launchAt x h path = some g ∧ ringCheckOk g = true ∧ (s.lane x).bit Reg.XF_CTRL_EN = true ∧ (s.lane x).seesSailings = false ∧ laneNum h < laneNum (s.lane x).me) ∧
    (∃ (x : LaneId) (f : VFrame) (s : State), (s.lane x).up = true ∧ (s.lane x).takesFrame f = true ∧ wireKind f = 3 ∧ wireOrig f = (s.lane x).get Reg.VF_CTRL_NODE ∧ (s.lane x).bit Reg.VF_STAT_HM_VALID = false ∧ (s.lane x).vf.launching = true ∧ (s.lane x).bit Reg.TB_STAT_VALID = true) ∧
    (∃ (x : LaneId) (f : VFrame) (s : State), (s.lane x).up = true ∧ (s.lane x).takesFrame f = true ∧ wireKind f = 3 ∧ wireOrig f < (s.lane x).get Reg.VF_CTRL_NODE ∧ wireManifest f = (s.lane x).get Reg.VF_MAN_CRC_CRC ∧ (s.lane x).bit Reg.VF_STAT_HM_VALID = false ∧ (s.lane x).vf.busy.one ≤ (s.lane x).now ∧ (s.lane x).vf.waiting.one = [] ∧ (s.lane x).bit Reg.VF_STAT_LINK1 = true) ∧
    (∃ (x : LaneId) (f : VFrame) (s : State), (s.lane x).up = true ∧ (s.lane x).takesFrame f = true ∧ wireKind f = 3 ∧ wireOrig f ≠ (s.lane x).get Reg.VF_CTRL_NODE ∧ wireManifest f ≠ (s.lane x).get Reg.VF_MAN_CRC_CRC ∧ (s.lane x).bit Reg.VF_STAT_HM_VALID = false ∧ (s.lane x).bit (Reg.FM_REACT_B 113) = false ∧ (s.lane x).bit (Reg.FM_REACT_B 115) = false) ∧
    (∃ (x : LaneId) (h : LaneId) (path : Fin 2) (g : RingFrame) (s : State), (s.lane x).up = true ∧ s.net.launchAt x h path = some g ∧ (s.lane x).bit Reg.XF_CTRL_EN = true ∧ (s.lane x).seesSailings = true) :=
  ⟨⟨.A, 4, 10030, (laneA [sails, (fun L => { L with xf := { L.xf with cur := some 4 } }), put Reg.XF_STAT_HM 1]), by decide +kernel⟩,
    ⟨.A, 10000, (laneA [put Reg.XF_CTRL_EN 1, put Reg.XF_CTRL_LAUNCH 1]), by decide +kernel⟩,
    ⟨.A, 0, (laneA [put Reg.VF_CTRL_EN 1, put Reg.VF_CTRL_LAUNCH 1, put Reg.TB_STAT_VALID 1, put Reg.VF_STAT_LINK1 1]), by decide +kernel⟩,
    ⟨.A, 0, ⟨.A, 0, 3, .C, allUp, ringHeader 3 .A 0 false 0 0⟩, { laneA [put Reg.XF_CTRL_EN 1, put Reg.XF_STAT_LAUNCHING 1] with net := ringNet [⟨.A, 0, 3, .C, allUp, ringHeader 3 .A 0 false 0 0⟩] }, by decide +kernel⟩,
    ⟨.B, .A, 0, (ringOf .A 0 3 0 0 []), { laneB [put Reg.XF_CTRL_EN 1] with net := ringNet [ringOf .A 0 3 0 0 []] }, by decide +kernel⟩,
    ⟨.A, (wire 3 0), (laneA [onRing, (fun L => { L with vf := { L.vf with launching := true } })]), by decide +kernel⟩,
    ⟨.A, (wire 3 0), (laneA [onRing, put Reg.VF_CTRL_NODE 1, (fun L => { L with vf := { L.vf with launching := true } })]), by decide +kernel⟩,
    ⟨.A, (wire 3 0), (laneA [onRing, put Reg.VF_CTRL_NODE 1, put Reg.VF_MAN_CRC_CRC 5]), by decide +kernel⟩,
    ⟨.B, .A, 0, (ringOf .A 0 3 0 0 []), { laneB [put Reg.XF_CTRL_EN 1, (fun L => { L with xf := { L.xf with adopted := true } })] with net := ringNet [ringOf .A 0 3 0 0 []] }, by decide +kernel⟩⟩

theorem test_meets_CommitsAndManifestChecks :
    (∃ (x : LaneId) (v : Word) (s : State), (s.lane x).up = true ∧ (s.lane x).mayCommit .lane (Reg.XF_COMMIT_ELEM.of v.toNat) = true ∧ ((s.lane x).elemsOf .lane ((s.lane x).ownIndex .lane)).contains (Reg.XF_COMMIT_ELEM.of v.toNat) = true) ∧
    (∃ (x : LaneId) (v : Word) (s : State), (s.lane x).up = true ∧ (s.lane x).mayCommit .lane (Reg.XF_COMMIT_ELEM.of v.toNat) = false) ∧
    (∃ (x : LaneId) (v : Word) (s : State), (s.lane x).up = true ∧ (s.lane x).mayCommit .vehicle (Reg.VF_COMMIT_ELEM.of v.toNat) = true ∧ ((s.lane x).elemsOf .vehicle ((s.lane x).ownIndex .vehicle)).contains (Reg.VF_COMMIT_ELEM.of v.toNat) = true) ∧
    (∃ (x : LaneId) (v : Word) (s : State), (s.lane x).up = true ∧ (s.lane x).mayCommit .vehicle (Reg.VF_COMMIT_ELEM.of v.toNat) = false) ∧
    (∃ (x : LaneId) (v : Word) (s : State), (s.lane x).up = true ∧ ((s.lane x).bit Reg.XF_CTRL_LOCK = false ∨ (s.lane x).changesLocked [Reg.XF_CTRL_LOCK, Reg.XF_CTRL_WIN, Reg.XF_CTRL_LAUNCH] v.toNat = false)) ∧
    (∃ (x : LaneId) (v : Word) (s : State), (s.lane x).up = true ∧ (s.lane x).bit Reg.XF_CTRL_LOCK = true ∧ (s.lane x).changesLocked [Reg.XF_CTRL_LOCK, Reg.XF_CTRL_WIN, Reg.XF_CTRL_LAUNCH] v.toNat = true) ∧
    (∃ (x : LaneId) (v : Word) (s : State), (s.lane x).up = true ∧ ((s.lane x).tb.resync.all fun r => decide (r.at_ ≠ (s.lane x).now)) = true ∧ ((s.lane x).bit Reg.VF_CTRL_LOCK = false ∨ (s.lane x).changesLocked [Reg.VF_CTRL_LOCK, Reg.VF_CTRL_LAUNCH, Reg.VF_CTRL_MCAST, Reg.VF_CTRL_NODE, Reg.VF_CTRL_LTMO, Reg.VF_CTRL_WIN] v.toNat = false)) ∧
    (∃ (x : LaneId) (v : Word) (s : State), (s.lane x).up = true ∧ ((s.lane x).tb.resync.all fun r => decide (r.at_ ≠ (s.lane x).now)) = true ∧ (s.lane x).bit Reg.VF_CTRL_LOCK = true ∧ (s.lane x).changesLocked [Reg.VF_CTRL_LOCK, Reg.VF_CTRL_LAUNCH, Reg.VF_CTRL_MCAST, Reg.VF_CTRL_NODE, Reg.VF_CTRL_LTMO, Reg.VF_CTRL_WIN] v.toNat = true) ∧
    (∃ (x : LaneId) (r : Resync) (s : State), (s.lane x).up = true ∧ (s.lane x).tb.resync = some r ∧ r.at_ = (s.lane x).now ∧ (s.lane x).bit (Reg.FM_REACT_B 120) = false) :=
  ⟨⟨.A, 0, (laneA [laneMan]), by decide +kernel⟩,
    ⟨.A, 0, (laneA []), by decide +kernel⟩,
    ⟨.A, 0, (laneA [vehMan]), by decide +kernel⟩,
    ⟨.A, 0, (laneA []), by decide +kernel⟩,
    ⟨.A, 1, (laneA []), by decide +kernel⟩,
    ⟨.A, 0x00020001, (laneA [put Reg.XF_CTRL_LOCK 1]), by decide +kernel⟩,
    ⟨.A, 0x40000000, (laneA []), by decide +kernel⟩,
    ⟨.A, 0x40000000, (laneA [put Reg.VF_CTRL_LOCK 1, put Reg.VF_CTRL_NODE 3]), by decide +kernel⟩,
    ⟨.A, ⟨0, 1, 0, 0, 0, {}, []⟩, (laneA [(fun L => { L with tb := { L.tb with resync := some ⟨0, 1, 0, 0, 0, {}, []⟩ } })]), by decide +kernel⟩⟩

theorem test_meets_PrecedenceAndImportBlocks :
    (∃ (x : LaneId) (v : Word) (s : State), (s.lane x).up = true ∧ (s.lane x).bit Reg.XF_VCTRL_LOCK = false ∧ ((s.lane x).permits .precedence = true ∨ (s.lane x).changes [Reg.XF_VCTRL_FIRST, Reg.XF_VCTRL_SECOND, Reg.XF_VCTRL_THIRD] v.toNat = false) ∧ (∀ l, l < 3 → l = Reg.XF_VCTRL_FIRST.of v.toNat ∨ l = Reg.XF_VCTRL_SECOND.of v.toNat ∨ l = Reg.XF_VCTRL_THIRD.of v.toNat)) ∧
    (∃ (x : LaneId) (v : Word) (l : Nat) (s : State), (s.lane x).up = true ∧ l < 3 ∧ l ≠ Reg.XF_VCTRL_FIRST.of v.toNat ∧ l ≠ Reg.XF_VCTRL_SECOND.of v.toNat ∧ l ≠ Reg.XF_VCTRL_THIRD.of v.toNat) ∧
    (∃ (x : LaneId) (v : Word) (s : State), (s.lane x).up = true ∧ ((s.lane x).permits .precedence = false ∧ (s.lane x).changes [Reg.XF_VCTRL_FIRST, Reg.XF_VCTRL_SECOND, Reg.XF_VCTRL_THIRD] v.toNat = true ∨ (s.lane x).bit Reg.XF_VCTRL_LOCK = true ∧ (s.lane x).changesLocked [Reg.XF_VCTRL_LOCK, Reg.XF_VCTRL_REVERT, Reg.XF_VCTRL_FIRST, Reg.XF_VCTRL_SECOND, Reg.XF_VCTRL_THIRD] v.toNat = true)) ∧
    (∃ (x : LaneId) (i : Fin 8) (v : Word) (s : State), (s.lane x).up = true ∧ ((v.toNat < 2 ^ 31 ∨ (∀ j, j < 8 → j ≠ i.val → (s.lane x).bit (Reg.XF_IMPORT_EN j) = false) ∧ 0x80 ≤ (Reg.XF_IMPORT_BASE i).of v.toNat ∧ (Reg.XF_IMPORT_BASE i).of v.toNat + (Reg.XF_IMPORT_COUNT i).of v.toNat + 1 ≤ 0x1000))) ∧
    (∃ (x : LaneId) (i : Fin 8) (v : Word) (s : State), (s.lane x).up = true ∧ 2 ^ 31 ≤ v.toNat ∧ (Reg.XF_IMPORT_BASE i).of v.toNat < 0x80) :=
  ⟨⟨.A, 0x06, (laneA [put Reg.SYS_MODE_MODE 1]), by decide +kernel⟩,
    ⟨.A, 0, 2, (laneA []), by decide +kernel⟩,
    ⟨.A, 0x06, (laneA []), by decide +kernel⟩,
    ⟨.A, 7, 0x7FFFFFFF, (laneA []), by decide +kernel⟩,
    ⟨.A, 7, 0x80000000, (laneA []), by decide +kernel⟩⟩

theorem test_meets_TheVehicleRing :
    (∃ (x : LaneId) (T : Nat) (s : State), (s.lane x).up = true ∧ (s.lane x).vehDepartDue = some T ∧ (s.lane x).bit (Reg.FM_REACT_B 115) = false) ∧
    (∃ (x : LaneId) (T : Nat) (b : List Byte) (s : State), (s.lane x).up = true ∧ (s.lane x).vehDepartDue = some T ∧ (s.lane x).bit Reg.VF_STAT_SELF_HM = true ∧ (s.lane x).md.refuge = false ∧ (s.lane x).vf.mismatch = false ∧ (s.lane x).bit Reg.SYS_LANE_ID_MATCH = true ∧ (s.lane x).bit Reg.VF_STAT_LINK1 = true ∧ (s.lane x).vf.busy.one ≤ ((s.reach x T).lane x).now ∧ (s.lane x).vf.waiting.one = [] ∧ (s.lane x).vf.berth = some ((s.lane x).vehNext, b) ∧ (s.lane x).ownIndex .vehicle < (s.lane x).manNodes .vehicle) ∧
    (∃ (x : LaneId) (f : VFrame) (err : Int) (m : Nat) (b : List Byte) (s : State), (s.lane x).up = true ∧ (s.lane x).takesFrame f = true ∧ wireKind f = 1 ∧ wireOrig f ≠ (s.lane x).get Reg.VF_CTRL_NODE ∧ (s.lane x).bit Reg.VF_STAT_LINK1 = true ∧ (s.lane x).bit Reg.VF_STAT_SELF_HM = false ∧ wireManifest f = (s.lane x).get Reg.VF_MAN_CRC_CRC ∧ (s.lane x).bit Reg.TB_STAT_VALID = true ∧ (s.lane x).vf.readOnly = false ∧ (s.lane x).bit Reg.SYS_LANE_ID_MATCH = true ∧ (s.lane x).ownIndex .vehicle < (s.lane x).manNodes .vehicle ∧ err.natAbs ≤ (s.lane x).get Reg.VF_CTRL_WIN ∧ (s.lane x).vf.busy.one ≤ ((s.reachPass x f err).lane x).now ∧ (s.lane x).vf.waiting.one = [] ∧ (s.lane x).vf.berth = some (m, b) ∧ m % 2 ^ 32 = wireSailing f) ∧
    (∃ (x : LaneId) (f : VFrame) (err : Int) (s : State), (s.lane x).up = true ∧ (s.lane x).takesFrame f = true ∧ wireKind f = 1 ∧ wireOrig f ≠ (s.lane x).get Reg.VF_CTRL_NODE ∧ (s.lane x).bit Reg.VF_STAT_LINK1 = true ∧ (s.lane x).bit Reg.VF_STAT_SELF_HM = false ∧ wireManifest f = (s.lane x).get Reg.VF_MAN_CRC_CRC ∧ (s.lane x).bit Reg.TB_STAT_VALID = true ∧ (s.lane x).vf.readOnly = false ∧ (s.lane x).get Reg.VF_CTRL_WIN < err.natAbs ∧ (s.lane x).vf.busy.one ≤ ((s.reachPass x f err).lane x).now ∧ (s.lane x).vf.waiting.one = [] ∧ (s.lane x).bit (Reg.FM_REACT_B 112) = false) ∧
    (∃ (x : LaneId) (f : VFrame) (s : State), (s.lane x).up = true ∧ (s.lane x).takesFrame f = true ∧ wireKind f = 2 ∧ wireOrig f ≠ (s.lane x).get Reg.VF_CTRL_NODE ∧ (s.lane x).bit Reg.VF_STAT_LINK1 = true ∧ (s.lane x).bit Reg.VF_STAT_SELF_HM = false ∧ wireManifest f = (s.lane x).get Reg.VF_MAN_CRC_CRC ∧ (s.lane x).vf.busy.one ≤ (s.lane x).now ∧ (s.lane x).vf.waiting.one = [] ∧ (s.lane x).bit (Reg.FM_REACT_B 114) = false) ∧
    (∃ (x : LaneId) (f : VFrame) (s : State), (s.lane x).up = true ∧ (s.lane x).takesFrame f = true ∧ (s.lane x).bit Reg.VF_STAT_SELF_HM = true ∧ wireKind f = 1 ∧ f.fcsOk = true ∧ wireOrig f = (s.lane x).get Reg.VF_CTRL_NODE ∧ (s.lane x).bit Reg.TB_STAT_VALID = true ∧ (s.lane x).bit Reg.VF_STAT_LINK1 = true ∧ (s.lane x).vf.busy.one ≤ (s.lane x).now ∧ (s.lane x).vf.waiting.one = [] ∧ (s.lane x).bit (Reg.FM_REACT_B 114) = false) ∧
    (∃ (x : LaneId) (port : Fin 2) (o : VfOut) (rest : List VfOut) (s : State), (s.lane x).up = true ∧ (s.lane x).vf.waiting.get port = o :: rest ∧ (s.lane x).bit (linkFld o.port) = true) ∧
    (∃ (x : LaneId) (f : VFrame) (s : State), (s.lane x).up = true ∧ ((s.lane x).takesFrame f = false ∨ wireOrig f = (s.lane x).get Reg.VF_CTRL_NODE)) :=
  ⟨⟨.A, 0, (laneA [onRing]), by decide +kernel⟩,
    ⟨.A, 0, [1], (laneA [put Reg.VF_STAT_SELF_HM 1, onRing, vehMan, (fun L => { L with vf := { L.vf with berth := some (0, [1]) } })]), by decide +kernel⟩,
    ⟨.A, (wire 1 1), 0, 0, [], (laneA [onRing, vehMan, (fun L => { L with vf := { L.vf with berth := some (0, []) } })]), by decide +kernel⟩,
    ⟨.A, (wire 1 1), 300, (laneA [onRing, vehMan]), by decide +kernel⟩,
    ⟨.A, (wire 2 1), (laneA [onRing]), by decide +kernel⟩,
    ⟨.A, (wire 1 0), (laneA [onRing, put Reg.VF_STAT_SELF_HM 1]), by decide +kernel⟩,
    ⟨.A, 0, ⟨1, false, [1], true⟩, [], (laneA [put Reg.VF_STAT_LINK1 1, (fun L => { L with vf := { L.vf with waiting := ⟨[⟨1, false, [1], true⟩], []⟩ } })]), by decide +kernel⟩,
    ⟨.A, (wire 1 0), (laneA []), by decide +kernel⟩⟩

theorem test_meets_FramesBesideTheFerry :
    (∃ (x : LaneId) (port : Fin 2) (et : Nat) (size : Nat) (wr : Nat) (used : Nat) (s : State), (s.lane x).up = true ∧ (s.lane x).bit (linkFld port) = true ∧ et ≠ 0x88F7 ∧ (s.lane x).isFerry et (s.lane x).vfMac = false ∧ (s.lane x).vfMac / 16 ≠ 0x0180C200000 ∧ size = 2 ^ (s.lane x).get (Reg.VF_RXB_SIZE port) * 4096 ∧ wr = (s.lane x).get (Reg.VF_RXW_WR port) % size ∧ used = (wr + size - (s.lane x).get (Reg.VF_RXR_RD port) % size) % size) ∧
    (∃ (x : LaneId) (port : Fin 2) (et : Nat) (da : Nat) (f : VFrame) (s : State), (s.lane x).up = true ∧ (s.lane x).bit (linkFld port) = true ∧ (s.lane x).bit (linkFld (1 - port)) = true ∧ et ≠ 0x88F7 ∧ (s.lane x).isFerry et da = false ∧ (s.lane x).handling da = (false, true) ∧ (s.lane x).vf.tx.get (1 - port) = [] ∧ (s.lane x).startTick (1 - port) f.bytes.length (s.lane x).now = (s.lane x).now) ∧
    (∃ (x : LaneId) (port : Fin 2) (da : Nat) (s : State), (s.lane x).up = true ∧ (s.lane x).bit (linkFld port) = true ∧ (s.lane x).isFerry 0x88F7 da = false) ∧
    (∃ (x : LaneId) (port : Fin 2) (v : Word) (s : State), (s.lane x).up = true ∧ ((Reg.VF_TXC_LEN port).of v.toNat < 60 ∨ 1514 < (Reg.VF_TXC_LEN port).of v.toNat)) ∧
    (∃ (x : LaneId) (port : Fin 2) (v : Word) (s : State), (s.lane x).up = true ∧ 60 ≤ (Reg.VF_TXC_LEN port).of v.toNat ∧ (Reg.VF_TXC_LEN port).of v.toNat ≤ 1514 ∧ (s.lane x).txFill port + (Reg.VF_TXC_LEN port).of v.toNat ≤ 32768 ∧ (s.lane x).bit (linkFld port) = false) ∧
    (∃ (x : LaneId) (port : Fin 2) (v : Word) (s : State), (s.lane x).up = true ∧ 60 ≤ (Reg.VF_TXC_LEN port).of v.toNat ∧ (Reg.VF_TXC_LEN port).of v.toNat ≤ 1514 ∧ (s.lane x).vf.tx.get port = [] ∧ (s.lane x).bit (linkFld port) = true ∧ (s.lane x).startTick port ((Reg.VF_TXC_LEN port).of v.toNat) (s.lane x).now = (s.lane x).now) ∧
    (∃ (x : LaneId) (port : Fin 2) (f : VFrame) (rest : List VFrame) (T : Nat) (s : State), (s.lane x).up = true ∧ (s.lane x).vf.tx.get port = f :: rest ∧ (s.lane x).heldDue port = some T) ∧
    (∃ (x : LaneId) (s : State), (s.lane x).up = true) ∧
    (∃ (x : LaneId) (et : Nat) (da : Nat) (s : State), (s.lane x).isFerry et da = true) :=
  ⟨⟨.A, 0, 0x0800, _, _, _, (laneA [put Reg.VF_STAT_LINK0 1]), by decide +kernel, by decide +kernel, by decide +kernel, by decide +kernel, by decide +kernel, rfl, rfl, rfl⟩,
    ⟨.A, 1, 0x0800, 1, ⟨[1, 2], true⟩, (laneA [put Reg.VF_STAT_LINK0 1, put Reg.VF_STAT_LINK1 1]), by decide +kernel⟩,
    ⟨.A, 0, 1, (laneA [put Reg.VF_STAT_LINK0 1]), by decide +kernel⟩,
    ⟨.A, 0, 59, (laneA []), by decide +kernel⟩,
    ⟨.A, 0, 60, (laneA []), by decide +kernel⟩,
    ⟨.A, 1, 60, (laneA [put Reg.VF_STAT_LINK1 1]), by decide +kernel⟩,
    ⟨.A, 0, ⟨[1, 2], true⟩, [], 0, (laneA [put Reg.VF_STAT_LINK0 1, (fun L => { L with vf := { L.vf with tx := ⟨[⟨[1, 2], true⟩], []⟩ } })]), by decide +kernel⟩,
    ⟨.A, (laneA []), by decide +kernel⟩,
    ⟨.A, 0, 3300060561408, (laneA []), by decide +kernel⟩⟩

theorem test_meets_LeAccumulatorInstructions :
    (∃ (x : LaneId) (s : State) (r : LeRun) (rest : List LeRun) (w : Nat), Running x 0x00 s r rest w) ∧
    (∃ (x : LaneId) (s : State) (r : LeRun) (rest : List LeRun) (w : Nat), Running x 0x01 s r rest w) ∧
    (∃ (x : LaneId) (s : State) (r : LeRun) (rest : List LeRun) (w : Nat), Running x 0x02 s r rest w) ∧
    (∃ (x : LaneId) (s : State) (r : LeRun) (rest : List LeRun) (w : Nat), Running x 0x03 s r rest w) ∧
    (∃ (x : LaneId) (s : State) (r : LeRun) (rest : List LeRun) (w : Nat), Running x 0x04 s r rest w) :=
  ⟨⟨.A, (laneA [runs (run0) (leWord 0x00 0 0 0 0 0 0)]), run0, [], (leWord 0x00 0 0 0 0 0 0), ⟨by decide +kernel, by decide +kernel, by decide +kernel, by decide +kernel, by decide +kernel, by decide +kernel⟩⟩,
    ⟨.A, (laneA [runs (run0) (leWord 0x01 0 0 0 0 0 0)]), run0, [], (leWord 0x01 0 0 0 0 0 0), ⟨by decide +kernel, by decide +kernel, by decide +kernel, by decide +kernel, by decide +kernel, by decide +kernel⟩⟩,
    ⟨.A, (laneA [runs (run0) (leWord 0x02 0 0 200 0 0 0)]), run0, [], (leWord 0x02 0 0 200 0 0 0), ⟨by decide +kernel, by decide +kernel, by decide +kernel, by decide +kernel, by decide +kernel, by decide +kernel⟩⟩,
    ⟨.A, (laneA [runs (run0) (leWord 0x03 0 0 200 0 0 5)]), run0, [], (leWord 0x03 0 0 200 0 0 5), ⟨by decide +kernel, by decide +kernel, by decide +kernel, by decide +kernel, by decide +kernel, by decide +kernel⟩⟩,
    ⟨.A, (laneA [runs (run0) (leWord 0x04 14 0 200 300 63 0)]), run0, [], (leWord 0x04 14 0 200 300 63 0), ⟨by decide +kernel, by decide +kernel, by decide +kernel, by decide +kernel, by decide +kernel, by decide +kernel⟩⟩⟩

theorem test_meets_LeWordInstructions :
    (∃ (x : LaneId) (s : State) (r : LeRun) (rest : List LeRun) (w : Nat), Running x 0x05 s r rest w ∧ 128 ≤ dOf w) ∧
    (∃ (x : LaneId) (s : State) (r : LeRun) (rest : List LeRun) (w : Nat), Running x 0x06 s r rest w ∧ 128 ≤ dOf w) ∧
    (∃ (x : LaneId) (s : State) (r : LeRun) (rest : List LeRun) (w : Nat), Running x 0x07 s r rest w ∧ 128 ≤ dOf w) ∧
    (∃ (x : LaneId) (s : State) (r : LeRun) (rest : List LeRun) (w : Nat), Running x 0x08 s r rest w ∧ 128 ≤ dOf w ∧ bitAt (modOf w) 3 = false) ∧
    (∃ (x : LaneId) (s : State) (r : LeRun) (rest : List LeRun) (w : Nat), Running x 0x08 s r rest w ∧ 128 ≤ dOf w ∧ bitAt (modOf w) 3 = true) ∧
    (∃ (x : LaneId) (s : State) (r : LeRun) (rest : List LeRun) (w : Nat), Running x 0x09 s r rest w ∧ 128 ≤ dOf w) ∧
    (∃ (x : LaneId) (s : State) (r : LeRun) (rest : List LeRun) (w : Nat), Running x 0x0A s r rest w ∧ 128 ≤ dOf w ∧ bitAt (modOf w) 3 = false) ∧
    (∃ (x : LaneId) (s : State) (r : LeRun) (rest : List LeRun) (w : Nat), Running x 0x0B s r rest w ∧ 128 ≤ dOf w) ∧
    (∃ (x : LaneId) (s : State) (r : LeRun) (rest : List LeRun) (w : Nat), Running x 0x06 s r rest w ∧ dOf w < 128) :=
  ⟨⟨.A, (laneA [runs (run0) (leWord 0x05 0 128 0 0 0 0)]), run0, [], (leWord 0x05 0 128 0 0 0 0), ⟨by decide +kernel, by decide +kernel, by decide +kernel, by decide +kernel, by decide +kernel, by decide +kernel⟩, by decide +kernel⟩,
    ⟨.A, (laneA [runs (run0) (leWord 0x06 0 4095 200 0 0 0)]), run0, [], (leWord 0x06 0 4095 200 0 0 0), ⟨by decide +kernel, by decide +kernel, by decide +kernel, by decide +kernel, by decide +kernel, by decide +kernel⟩, by decide +kernel⟩,
    ⟨.A, (laneA [runs (run0) (leWord 0x07 0 128 0 0 0 3)]), run0, [], (leWord 0x07 0 128 0 0 0 3), ⟨by decide +kernel, by decide +kernel, by decide +kernel, by decide +kernel, by decide +kernel, by decide +kernel⟩, by decide +kernel⟩,
    ⟨.A, (laneA [runs (run0) (leWord 0x08 0 128 200 201 0 0)]), run0, [], (leWord 0x08 0 128 200 201 0 0), ⟨by decide +kernel, by decide +kernel, by decide +kernel, by decide +kernel, by decide +kernel, by decide +kernel⟩, by decide +kernel⟩,
    ⟨.A, (laneA [runs (run0) (leWord 0x08 8 128 200 201 0 0)]), run0, [], (leWord 0x08 8 128 200 201 0 0), ⟨by decide +kernel, by decide +kernel, by decide +kernel, by decide +kernel, by decide +kernel, by decide +kernel⟩, by decide +kernel⟩,
    ⟨.A, (laneA [runs (run0) (leWord 0x09 0 128 200 201 0 0)]), run0, [], (leWord 0x09 0 128 200 201 0 0), ⟨by decide +kernel, by decide +kernel, by decide +kernel, by decide +kernel, by decide +kernel, by decide +kernel⟩, by decide +kernel⟩,
    ⟨.A, (laneA [runs (run0) (leWord 0x0A 0 128 200 201 0 0)]), run0, [], (leWord 0x0A 0 128 200 201 0 0), ⟨by decide +kernel, by decide +kernel, by decide +kernel, by decide +kernel, by decide +kernel, by decide +kernel⟩, by decide +kernel⟩,
    ⟨.A, (laneA [runs (run0) (leWord 0x0B 0 128 200 201 0 0)]), run0, [], (leWord 0x0B 0 128 200 201 0 0), ⟨by decide +kernel, by decide +kernel, by decide +kernel, by decide +kernel, by decide +kernel, by decide +kernel⟩, by decide +kernel⟩,
    ⟨.A, (laneA [runs (run0) (leWord 0x06 0 127 200 0 0 0)]), run0, [], (leWord 0x06 0 127 200 0 0 0), ⟨by decide +kernel, by decide +kernel, by decide +kernel, by decide +kernel, by decide +kernel, by decide +kernel⟩, by decide +kernel⟩⟩

theorem test_meets_LeTransformInstructions :
    (∃ (x : LaneId) (s : State) (r : LeRun) (rest : List LeRun) (w : Nat), Running x 0x18 s r rest w ∧ 128 ≤ dOf w ∧ dOf w < 4095) ∧
    (∃ (x : LaneId) (s : State) (r : LeRun) (rest : List LeRun) (w : Nat) (al : Int) (be : Int) (sn : Int) (cs : Int), Running x 0x19 s r rest w ∧ 128 ≤ dOf w ∧ dOf w < 4095 ∧ al = (s.lane x).sigI (aOf w) ∧ be = (s.lane x).sigI (aOf w + 1) ∧ sn = (s.lane x).sigI (bOf w) ∧ cs = (s.lane x).sigI (bOf w + 1)) ∧
    (∃ (x : LaneId) (s : State) (r : LeRun) (rest : List LeRun) (w : Nat) (d : Int) (q : Int) (sn : Int) (cs : Int), Running x 0x1A s r rest w ∧ 128 ≤ dOf w ∧ dOf w < 4095 ∧ d = (s.lane x).sigI (aOf w) ∧ q = (s.lane x).sigI (aOf w + 1) ∧ sn = (s.lane x).sigI (bOf w) ∧ cs = (s.lane x).sigI (bOf w + 1)) ∧
    (∃ (x : LaneId) (s : State) (r : LeRun) (rest : List LeRun) (w : Nat), Running x 0x1B s r rest w ∧ 128 ≤ dOf w ∧ dOf w < 4095) ∧
    (∃ (x : LaneId) (s : State) (r : LeRun) (rest : List LeRun) (w : Nat), Running x 0x1C s r rest w ∧ 128 ≤ dOf w ∧ dOf w < 4094) ∧
    (∃ (x : LaneId) (s : State) (r : LeRun) (rest : List LeRun) (w : Nat), Running x 0x1D s r rest w ∧ 128 ≤ dOf w) ∧
    (∃ (x : LaneId) (s : State) (r : LeRun) (rest : List LeRun) (w : Nat), Running x 0x1E s r rest w ∧ 128 ≤ dOf w) ∧
    (∃ (x : LaneId) (s : State) (r : LeRun) (rest : List LeRun) (w : Nat), Running x 0x18 s r rest w) ∧
    (∃ (x : LaneId) (s : State) (r : LeRun) (rest : List LeRun) (w : Nat), Running x 0x19 s r rest w) ∧
    (∃ (x : LaneId) (s : State) (r : LeRun) (rest : List LeRun) (w : Nat), Running x 0x1A s r rest w) ∧
    (∃ (x : LaneId) (s : State) (r : LeRun) (rest : List LeRun) (w : Nat), Running x 0x1B s r rest w) ∧
    (∃ (x : LaneId) (s : State) (r : LeRun) (rest : List LeRun) (w : Nat), Running x 0x1C s r rest w) ∧
    (∃ (x : LaneId) (s : State) (r : LeRun) (rest : List LeRun) (w : Nat), Running x 0x1D s r rest w) ∧
    (∃ (x : LaneId) (s : State) (r : LeRun) (rest : List LeRun) (w : Nat), Running x 0x1E s r rest w) :=
  ⟨⟨.A, (laneA [runs (run0) (leWord 0x18 0 128 200 0 0 0)]), run0, [], (leWord 0x18 0 128 200 0 0 0), ⟨by decide +kernel, by decide +kernel, by decide +kernel, by decide +kernel, by decide +kernel, by decide +kernel⟩, by decide +kernel⟩,
    ⟨.A, (laneA [runs (run0) (leWord 0x19 0 4094 200 202 0 0)]), run0, [], (leWord 0x19 0 4094 200 202 0 0), _, _, _, _, ⟨by decide +kernel, by decide +kernel, by decide +kernel, by decide +kernel, by decide +kernel, by decide +kernel⟩, by decide +kernel, by decide +kernel, rfl, rfl, rfl, rfl⟩,
    ⟨.A, (laneA [runs (run0) (leWord 0x1A 0 128 200 202 0 0)]), run0, [], (leWord 0x1A 0 128 200 202 0 0), _, _, _, _, ⟨by decide +kernel, by decide +kernel, by decide +kernel, by decide +kernel, by decide +kernel, by decide +kernel⟩, by decide +kernel, by decide +kernel, rfl, rfl, rfl, rfl⟩,
    ⟨.A, (laneA [runs (run0) (leWord 0x1B 0 128 200 0 0 0)]), run0, [], (leWord 0x1B 0 128 200 0 0 0), ⟨by decide +kernel, by decide +kernel, by decide +kernel, by decide +kernel, by decide +kernel, by decide +kernel⟩, by decide +kernel⟩,
    ⟨.A, (laneA [runs (run0) (leWord 0x1C 0 4093 200 203 0 0)]), run0, [], (leWord 0x1C 0 4093 200 203 0 0), ⟨by decide +kernel, by decide +kernel, by decide +kernel, by decide +kernel, by decide +kernel, by decide +kernel⟩, by decide +kernel⟩,
    ⟨.A, (laneA [runs (run0) (leWord 0x1D 0 128 200 0 0 0)]), run0, [], (leWord 0x1D 0 128 200 0 0 0), ⟨by decide +kernel, by decide +kernel, by decide +kernel, by decide +kernel, by decide +kernel, by decide +kernel⟩, by decide +kernel⟩,
    ⟨.A, (laneA [runs (run0) (leWord 0x1E 0 128 200 0 0 0)]), run0, [], (leWord 0x1E 0 128 200 0 0 0), ⟨by decide +kernel, by decide +kernel, by decide +kernel, by decide +kernel, by decide +kernel, by decide +kernel⟩, by decide +kernel⟩,
    ⟨.A, (laneA [runs (run0) (leWord 0x18 0 128 200 0 0 0)]), run0, [], (leWord 0x18 0 128 200 0 0 0), ⟨by decide +kernel, by decide +kernel, by decide +kernel, by decide +kernel, by decide +kernel, by decide +kernel⟩⟩,
    ⟨.A, (laneA [runs (run0) (leWord 0x19 0 4094 200 202 0 0)]), run0, [], (leWord 0x19 0 4094 200 202 0 0), ⟨by decide +kernel, by decide +kernel, by decide +kernel, by decide +kernel, by decide +kernel, by decide +kernel⟩⟩,
    ⟨.A, (laneA [runs (run0) (leWord 0x1A 0 128 200 202 0 0)]), run0, [], (leWord 0x1A 0 128 200 202 0 0), ⟨by decide +kernel, by decide +kernel, by decide +kernel, by decide +kernel, by decide +kernel, by decide +kernel⟩⟩,
    ⟨.A, (laneA [runs (run0) (leWord 0x1B 0 128 200 0 0 0)]), run0, [], (leWord 0x1B 0 128 200 0 0 0), ⟨by decide +kernel, by decide +kernel, by decide +kernel, by decide +kernel, by decide +kernel, by decide +kernel⟩⟩,
    ⟨.A, (laneA [runs (run0) (leWord 0x1C 0 4093 200 203 0 0)]), run0, [], (leWord 0x1C 0 4093 200 203 0 0), ⟨by decide +kernel, by decide +kernel, by decide +kernel, by decide +kernel, by decide +kernel, by decide +kernel⟩⟩,
    ⟨.A, (laneA [runs (run0) (leWord 0x1D 0 128 200 0 0 0)]), run0, [], (leWord 0x1D 0 128 200 0 0 0), ⟨by decide +kernel, by decide +kernel, by decide +kernel, by decide +kernel, by decide +kernel, by decide +kernel⟩⟩,
    ⟨.A, (laneA [runs (run0) (leWord 0x1E 0 128 200 0 0 0)]), run0, [], (leWord 0x1E 0 128 200 0 0 0), ⟨by decide +kernel, by decide +kernel, by decide +kernel, by decide +kernel, by decide +kernel, by decide +kernel⟩⟩⟩

theorem test_meets_LeCompensatorInstructions :
    (∃ (x : LaneId) (s : State) (r : LeRun) (rest : List LeRun) (w : Nat) (k : Nat) (b : Nat) (c : Nat → Int), Running x 0x10 s r rest w ∧ 128 ≤ dOf w ∧ b = bOf w ∧ 128 ≤ b ∧ b < 4093 ∧ k = (s.lane x).recordOf (kOf w) ∧ ((dOf w < b ∨ b + 3 < dOf w)) ∧ (s.lane x).held k = false ∧ (s.lane x).recWord k 15 % 16 = 1 ∧ (∀ i, c i = sgn 32 ((s.lane x).recWord k i))) ∧
    (∃ (x : LaneId) (s : State) (r : LeRun) (rest : List LeRun) (w : Nat) (k : Nat) (b : Nat) (c : Nat → Int), Running x 0x11 s r rest w ∧ 128 ≤ dOf w ∧ b = bOf w ∧ 128 ≤ b ∧ b < 4091 ∧ k = (s.lane x).recordOf (kOf w) ∧ ((dOf w < b ∨ b + 5 < dOf w)) ∧ (s.lane x).held k = false ∧ (s.lane x).recWord k 15 % 16 = 2 ∧ (∀ i, c i = sgn 32 ((s.lane x).recWord k i))) ∧
    (∃ (x : LaneId) (s : State) (r : LeRun) (rest : List LeRun) (w : Nat) (k : Nat) (b : Nat) (c : Nat → Int), Running x 0x12 s r rest w ∧ 128 ≤ dOf w ∧ b = bOf w ∧ 128 ≤ b ∧ b < 4093 ∧ k = (s.lane x).recordOf (kOf w) ∧ ((dOf w < b ∨ b + 3 < dOf w)) ∧ (s.lane x).held k = false ∧ (s.lane x).recWord k 15 % 16 = 3 ∧ (∀ i, c i = sgn 32 ((s.lane x).recWord k i))) ∧
    (∃ (x : LaneId) (s : State) (r : LeRun) (rest : List LeRun) (w : Nat), Running x 0x10 s r rest w ∧ 128 ≤ dOf w ∧ (s.lane x).held ((s.lane x).recordOf (kOf w)) = true) ∧
    (∃ (x : LaneId) (s : State) (r : LeRun) (rest : List LeRun) (w : Nat) (y : Nat) (a : Int) (v : Int), Running x 0x0A s r rest w ∧ 128 ≤ dOf w ∧ (s.lane x).windupWord r w = some y ∧ 128 ≤ y ∧ y < 4096 ∧ y ≠ dOf w ∧ a = (s.lane x).sigI (aOf w) ∧ v = min (max a ((s.lane x).sigI (bOf w))) ((s.lane x).sigI (bOf w + 1))) :=
  ⟨⟨.A, (laneA [runs (run0) (leWord 0x10 0 128 200 300 0 0), (fun L => { L with le := { L.le with coef := [(12, 1000), (15, 1)] } })]), run0, [], (leWord 0x10 0 128 200 300 0 0), _, _, (fun i => sgn 32 (((laneA [runs (run0) (leWord 0x10 0 128 200 300 0 0), (fun L => { L with le := { L.le with coef := [(12, 1000), (15, 1)] } })]).lane .A).recWord (((laneA [runs (run0) (leWord 0x10 0 128 200 300 0 0), (fun L => { L with le := { L.le with coef := [(12, 1000), (15, 1)] } })]).lane .A).recordOf (kOf (leWord 0x10 0 128 200 300 0 0))) i)), ⟨by decide +kernel, by decide +kernel, by decide +kernel, by decide +kernel, by decide +kernel, by decide +kernel⟩, by decide +kernel, rfl, by decide +kernel, by decide +kernel, rfl, by decide +kernel, by decide +kernel, by decide +kernel, fun _ => rfl⟩,
    ⟨.A, (laneA [runs (run0) (leWord 0x11 0 128 200 4090 0 1), (fun L => { L with le := { L.le with coef := [(28, 1000), (31, 2)] } })]), run0, [], (leWord 0x11 0 128 200 4090 0 1), _, _, (fun i => sgn 32 (((laneA [runs (run0) (leWord 0x11 0 128 200 4090 0 1), (fun L => { L with le := { L.le with coef := [(28, 1000), (31, 2)] } })]).lane .A).recWord (((laneA [runs (run0) (leWord 0x11 0 128 200 4090 0 1), (fun L => { L with le := { L.le with coef := [(28, 1000), (31, 2)] } })]).lane .A).recordOf (kOf (leWord 0x11 0 128 200 4090 0 1))) i)), ⟨by decide +kernel, by decide +kernel, by decide +kernel, by decide +kernel, by decide +kernel, by decide +kernel⟩, by decide +kernel, rfl, by decide +kernel, by decide +kernel, rfl, by decide +kernel, by decide +kernel, by decide +kernel, fun _ => rfl⟩,
    ⟨.A, (laneA [runs (run0) (leWord 0x12 0 4095 200 300 0 31), (fun L => { L with le := { L.le with coef := [(508, 1000), (511, 3)] } })]), run0, [], (leWord 0x12 0 4095 200 300 0 31), _, _, (fun i => sgn 32 (((laneA [runs (run0) (leWord 0x12 0 4095 200 300 0 31), (fun L => { L with le := { L.le with coef := [(508, 1000), (511, 3)] } })]).lane .A).recWord (((laneA [runs (run0) (leWord 0x12 0 4095 200 300 0 31), (fun L => { L with le := { L.le with coef := [(508, 1000), (511, 3)] } })]).lane .A).recordOf (kOf (leWord 0x12 0 4095 200 300 0 31))) i)), ⟨by decide +kernel, by decide +kernel, by decide +kernel, by decide +kernel, by decide +kernel, by decide +kernel⟩, by decide +kernel, rfl, by decide +kernel, by decide +kernel, rfl, by decide +kernel, by decide +kernel, by decide +kernel, fun _ => rfl⟩,
    ⟨.A, (laneA [runs (run0) (leWord 0x10 0 128 200 300 0 31), put (Reg.LE_HOLD_HOLD 0) 0x80000000]), run0, [], (leWord 0x10 0 128 200 300 0 31), ⟨by decide +kernel, by decide +kernel, by decide +kernel, by decide +kernel, by decide +kernel, by decide +kernel⟩, by decide +kernel⟩,
    ⟨.A, (laneA [runs ({ run0 with steps := [(0, some 300)] }) (leWord 0x0A 8 400 200 201 0 0)]), { run0 with steps := [(0, some 300)] }, [], (leWord 0x0A 8 400 200 201 0 0), 300, _, _, ⟨by decide +kernel, by decide +kernel, by decide +kernel, by decide +kernel, by decide +kernel, by decide +kernel⟩, by decide +kernel, by decide +kernel, by decide +kernel, by decide +kernel, by decide +kernel, rfl, rfl⟩⟩

theorem test_meets_LeControlAndWaits :
    (∃ (x : LaneId) (s : State) (r : LeRun) (rest : List LeRun) (w : Nat), Running x 0x0C s r rest w) ∧
    (∃ (x : LaneId) (s : State) (r : LeRun) (rest : List LeRun) (w : Nat), Running x 0x30 s r rest w) ∧
    (∃ (x : LaneId) (s : State) (r : LeRun) (rest : List LeRun) (w : Nat), Running x 0x31 s r rest w ∧ (s.lane x).occurred r (modOf w) = true ∧ modOf w ≠ 3) ∧
    (∃ (x : LaneId) (s : State) (r : LeRun) (rest : List LeRun) (w : Nat), Running x 0x31 s r rest w ∧ modOf w = 3 ∧ (s.lane x).bit Reg.LE_FIRE_EVT = true) ∧
    (∃ (x : LaneId) (s : State) (r : LeRun) (rest : List LeRun) (w : Nat), Running x 0x31 s r rest w ∧ (s.lane x).occurred r (modOf w) = false) ∧
    (∃ (x : LaneId) (n : Fin 8) (s : State) (r : LeRun) (rest : List LeRun) (w : Nat), Running x 0x3F s r rest w ∧ r.trig = n ∧ r.replay = false ∧ (s.lane x).stage ≠ 4 ∧ (s.lane x).le.pending = [] ∧ (∀ o ∈ r.staged, o.port < 2 ∨ ((s.lane x).portTwo n o.elem = true ∧ ((s.lane x).desc .lane o.elem).src = 1))) ∧
    (∃ (x : LaneId) (s : State) (r : LeRun) (rest : List LeRun) (t0 : Nat), (s.lane x).up = true ∧ (s.lane x).le.runs = r :: rest ∧ (s.lane x).now < r.deadline ∧ r.wait = some t0 ∧ modOf ((s.lane x).prog r.pc) ≠ 3 ∧ (s.lane x).occurred r (modOf ((s.lane x).prog r.pc)) = true) ∧
    (∃ (x : LaneId) (s : State) (r : LeRun) (rest : List LeRun) (t0 : Nat), (s.lane x).up = true ∧ (s.lane x).le.runs = r :: rest ∧ (s.lane x).now < r.deadline ∧ r.wait = some t0 ∧ modOf ((s.lane x).prog r.pc) = 3 ∧ (s.lane x).bit Reg.LE_FIRE_EVT = true) ∧
    (∃ (x : LaneId) (n : Fin 8) (s : State) (r : LeRun) (rest : List LeRun) (T : Nat), (s.lane x).up = true ∧ (s.lane x).le.runs = r :: rest ∧ (s.lane x).waitDue = some T ∧ r.trig = n ∧ ((s.reach x T).lane x).now < r.deadline ∧ (s.lane x).occurred r (modOf ((s.lane x).prog r.pc)) = false) ∧
    (∃ (x : LaneId) (n : Fin 8) (s : State) (r : LeRun) (rest : List LeRun) (t0 : Nat), (s.lane x).up = true ∧ (s.lane x).le.runs = r :: rest ∧ (s.lane x).le.pending = [] ∧ r.trig = n ∧ r.deadline ≤ (s.lane x).now ∧ r.wait = some t0 ∧ (s.lane x).occurred r (modOf ((s.lane x).prog r.pc)) = true) ∧
    (∃ (x : LaneId) (n : Fin 8) (s : State) (r : LeRun) (rest : List LeRun) (T : Nat), (s.lane x).up = true ∧ (s.lane x).le.runs = r :: rest ∧ (s.lane x).le.pending = [] ∧ (s.lane x).waitDue = some T ∧ r.trig = n ∧ r.deadline ≤ ((s.reach x T).lane x).now ∧ (s.lane x).occurred r (modOf ((s.lane x).prog r.pc)) = false) :=
  ⟨⟨.A, (laneA [runs (run0) (leWord 0x0C 0 0 0 0 63 0)]), run0, [], (leWord 0x0C 0 0 0 0 63 0), ⟨by decide +kernel, by decide +kernel, by decide +kernel, by decide +kernel, by decide +kernel, by decide +kernel⟩⟩,
    ⟨.A, (laneA [runs (run0) (leWord 0x30 2 0 200 0 2 0)]), run0, [], (leWord 0x30 2 0 200 0 2 0), ⟨by decide +kernel, by decide +kernel, by decide +kernel, by decide +kernel, by decide +kernel, by decide +kernel⟩⟩,
    ⟨.A, (laneA [runs ({ run0 with seen := 1 }) (leWord 0x31 0 0 0 0 0 50)]), { run0 with seen := 1 }, [], (leWord 0x31 0 0 0 0 0 50), ⟨by decide +kernel, by decide +kernel, by decide +kernel, by decide +kernel, by decide +kernel, by decide +kernel⟩, by decide +kernel⟩,
    ⟨.A, (laneA [runs (run0) (leWord 0x31 3 0 0 0 0 50), put Reg.LE_FIRE_EVT 1]), run0, [], (leWord 0x31 3 0 0 0 0 50), ⟨by decide +kernel, by decide +kernel, by decide +kernel, by decide +kernel, by decide +kernel, by decide +kernel⟩, by decide +kernel⟩,
    ⟨.A, (laneA [runs (run0) (leWord 0x31 0 0 0 0 0 50)]), run0, [], (leWord 0x31 0 0 0 0 0 50), ⟨by decide +kernel, by decide +kernel, by decide +kernel, by decide +kernel, by decide +kernel, by decide +kernel⟩, by decide +kernel⟩,
    ⟨.A, 0, (laneA [runs (run0) (leWord 0x3F 0 0 0 0 0 0)]), run0, [], (leWord 0x3F 0 0 0 0 0 0), ⟨by decide +kernel, by decide +kernel, by decide +kernel, by decide +kernel, by decide +kernel, by decide +kernel⟩, by decide +kernel⟩,
    ⟨.A, (laneA [runs ({ run0 with seen := 1, wait := some 0 }) (leWord 0x31 0 0 0 0 0 50)]), { run0 with seen := 1, wait := some 0 }, [], 0, by decide +kernel⟩,
    ⟨.A, (laneA [runs ({ run0 with seen := 1, wait := some 0 }) (leWord 0x31 3 0 0 0 0 50), put Reg.LE_FIRE_EVT 1]), { run0 with seen := 1, wait := some 0 }, [], 0, by decide +kernel⟩,
    ⟨.A, 0, (laneA [runs ({ run0 with wait := some 0 }) (leWord 0x31 0 0 0 0 0 50)]), { run0 with wait := some 0 }, [], 50, by decide +kernel⟩,
    ⟨.A, 0, (laneA [runs ({ run0 with seen := 1, wait := some 0, deadline := 0 }) (leWord 0x31 0 0 0 0 0 50)]), { run0 with seen := 1, wait := some 0, deadline := 0 }, [], 0, by decide +kernel⟩,
    ⟨.A, 0, (laneA [runs ({ run0 with wait := some 0, deadline := 0 }) (leWord 0x31 0 0 0 0 0 50)]), { run0 with wait := some 0, deadline := 0 }, [], 50, by decide +kernel⟩⟩

theorem test_meets_LeFiringsDeadlinesAndPace :
    (∃ (x : LaneId) (n : Fin 8) (s : State) (r : LeRun) (rest : List LeRun), (s.lane x).up = true ∧ (s.lane x).hasSource n = true ∧ (s.lane x).acceptsFiring n = true ∧ (s.lane x).firedNow n = false ∧ (s.lane x).busyTrig n = false ∧ (s.lane x).le.swap = none ∧ (s.lane x).le.runs = r :: rest ∧ r.trig ≤ n) ∧
    (∃ (x : LaneId) (n : Fin 8) (s : State), (s.lane x).up = true ∧ (s.lane x).hasSource n = true ∧ (s.lane x).acceptsFiring n = true ∧ (s.lane x).firedNow n = false ∧ (s.lane x).busyTrig n = true) ∧
    (∃ (x : LaneId) (n : Fin 8) (s : State), (s.lane x).up = true ∧ (s.lane x).hasSource n = true ∧ (s.lane x).acceptsFiring n = true ∧ (s.lane x).firedNow n = false ∧ (s.lane x).le.swap = none ∧ (s.lane x).le.runs = [] ∧ (s.lane x).le.pending = []) ∧
    (∃ (x : LaneId) (n : Fin 8) (s : State), (s.lane x).up = true ∧ (s.lane x).firedNow n = true) ∧
    (∃ (x : LaneId) (n : Fin 8) (s : State), (s.lane x).up = true ∧ (s.lane x).acceptsFiring n = true ∧ (s.lane x).firedNow n = false ∧ (s.lane x).busyTrig n = true) ∧
    (∃ (x : LaneId) (n : Fin 8) (s : State) (r : LeRun) (rest : List LeRun), (s.lane x).up = true ∧ (s.lane x).acceptsFiring n = true ∧ (s.lane x).firedNow n = false ∧ (s.lane x).busyTrig n = false ∧ (s.lane x).le.swap = none ∧ (s.lane x).le.runs = r :: rest ∧ r.trig ≤ n) ∧
    (∃ (x : LaneId) (n : Fin 8) (s : State), (s.lane x).up = true ∧ (s.lane x).acceptsFiring n = true ∧ (s.lane x).firedNow n = false ∧ (s.lane x).le.swap = none ∧ (s.lane x).le.runs = [] ∧ (s.lane x).le.pending = []) ∧
    (∃ (x : LaneId) (s : State), (s.lane x).up = true) ∧
    (∃ (x : LaneId) (n : Fin 8) (s : State) (r : LeRun) (rest : List LeRun), (s.lane x).up = true ∧ (s.lane x).le.runs = r :: rest ∧ r.trig = n ∧ r.wait = none ∧ (s.lane x).le.pending = []) ∧
    (∃ (x : LaneId) (n : Fin 8) (s : State) (f : Firing), (s.lane x).up = true ∧ (s.lane x).le.runs.any (·.trig = n.val) = false ∧ (s.lane x).le.pending.find? (·.trig = n.val) = some f) ∧
    (∃ (x : LaneId) (pace : Nat) (s : State), (s.lane x).up = true ∧ pace ≤ 1024) ∧
    (∃ (x : LaneId) (pace : Nat) (s : State), (s.lane x).up = true ∧ 1024 < pace ∧ (s.lane x).le.pace ≠ 15) ∧
    (∃ (x : LaneId) (pace : Nat) (s : State), (s.lane x).up = true ∧ 1024 < pace ∧ (s.lane x).le.pace = 15) ∧
    (∃ (x : LaneId) (n : Fin 8) (s : State) (r : LeRun) (rest : List LeRun), (s.lane x).up = true ∧ (s.lane x).le.runs = r :: rest ∧ r.trig = n ∧ r.wait.isSome = true) ∧
    (∃ (x : LaneId) (n : Fin 8) (s : State) (r : LeRun) (q : LeRun) (rest : List LeRun), (s.lane x).up = true ∧ (s.lane x).le.runs = r :: rest ∧ r.trig ≠ n ∧ rest.find? (·.trig = n.val) = some q) :=
  ⟨⟨.A, 3, (laneA [runs (run0) (leWord 0 0 0 0 0 0 0), put (Reg.LE_TRIG_CFG_EN 3) 1, put (Reg.LE_TRIG_CFG_SRC 3) 7, put Reg.LE_CTRL_RUN 1]), run0, [], by decide +kernel⟩,
    ⟨.A, 0, (laneA [runs (run0) (leWord 0 0 0 0 0 0 0), put (Reg.LE_TRIG_CFG_EN 0) 1, put (Reg.LE_TRIG_CFG_SRC 0) 7, put Reg.LE_CTRL_RUN 1]), by decide +kernel⟩,
    ⟨.A, 3, (laneA [put (Reg.LE_TRIG_CFG_EN 3) 1, put (Reg.LE_TRIG_CFG_SRC 3) 8, put Reg.LE_CTRL_RUN 1, (fun L => { L with xf := { L.xf with landedAt := some 0 } })]), by decide +kernel⟩,
    ⟨.A, 0, (laneA [runs (run0) (leWord 0 0 0 0 0 0 0), put (Reg.LE_TRIG_CFG_EN 0) 1, put (Reg.LE_TRIG_CFG_SRC 0) 7, put Reg.LE_CTRL_RUN 1, (fun L => { L with le := { L.le with firedAt := [(0, 1)] } })]), by decide +kernel⟩,
    ⟨.A, 0, (laneA [runs (run0) (leWord 0 0 0 0 0 0 0), put (Reg.LE_TRIG_CFG_EN 0) 1, put Reg.LE_CTRL_RUN 1]), by decide +kernel⟩,
    ⟨.A, 3, (laneA [runs (run0) (leWord 0 0 0 0 0 0 0), put (Reg.LE_TRIG_CFG_EN 3) 1, put Reg.LE_CTRL_RUN 1]), run0, [], by decide +kernel⟩,
    ⟨.A, 3, (laneA [put (Reg.LE_TRIG_CFG_EN 3) 1, put Reg.LE_CTRL_RUN 1]), by decide +kernel⟩,
    ⟨.A, (laneA []), by decide +kernel⟩,
    ⟨.A, 0, (laneA [runs (run0) (leWord 0 0 0 0 0 0 0)]), run0, [], by decide +kernel⟩,
    ⟨.A, 0, (laneA [(fun L => { L with le := { L.le with pending := [⟨0, 0, 100⟩] } })]), ⟨0, 0, 100⟩, by decide +kernel⟩,
    ⟨.A, 1024, (laneA []), by decide +kernel⟩,
    ⟨.A, 1025, (laneA []), by decide +kernel⟩,
    ⟨.A, 1025, (laneA [(fun L => { L with le := { L.le with pace := 15 } })]), by decide +kernel⟩,
    ⟨.A, 0, (laneA [runs ({ run0 with wait := some 0 }) (leWord 0x31 0 0 0 0 0 50)]), { run0 with wait := some 0 }, [], by decide +kernel⟩,
    ⟨.A, 0, (laneA [(fun L => { L with le := { L.le with runs := [{ run0 with trig := 1 }, run0] } })]), { run0 with trig := 1 }, run0, [run0], by decide +kernel⟩⟩

theorem test_meets_LeScansAndSwaps :
    (∃ (x : LaneId) (n : Fin 8) (s : State), (s.lane x).up = true ∧ (s.lane x).bit (Reg.LE_TRIG_STAT_SCAN n) = false ∧ (s.lane x).bit (Reg.LE_TRIG_CFG_EN n) = false) ∧
    (∃ (x : LaneId) (n : Fin 8) (s : State), (s.lane x).up = true ∧ (s.lane x).bit (Reg.LE_TRIG_STAT_SCAN n) = true) ∧
    (∃ (x : LaneId) (n : Fin 8) (ecc : Lane × Bool) (s : State), (s.lane x).up = true ∧ (s.lane x).scanOf n = some none ∧ ecc = (s.lane x).readStores ((s.lane x).get (Reg.LE_TRIG_CFG_LIMIT n) + 1 - (s.lane x).get (Reg.LE_TRIG_CFG_ENTRY n))) ∧
    (∃ (x : LaneId) (v : Word) (n : Fin 8) (s : State), (s.lane x).up = true ∧ (s.lane x).bit Reg.LE_SWAP_GO = false ∧ v.toNat / 2 ^ 27 % 8 = n ∧ bitAt v.toNat 30 = false ∧ (s.lane x).bit (Reg.LE_TRIG_CFG_EN n) = true) ∧
    (∃ (x : LaneId) (v : Word) (n : Fin 8) (s : State), (s.lane x).up = true ∧ (s.lane x).bit Reg.LE_SWAP_GO = false ∧ v.toNat / 2 ^ 27 % 8 = n ∧ bitAt v.toNat 30 = true ∧ (s.lane x).bit (Reg.LE_TRIG_CFG_EN n) = true ∧ (s.lane x).get (Reg.LE_TRIG_CFG_SRC n) = 7 ∧ (s.lane x).cyclePassed ((s.lane x).get Reg.LE_SWAP_CYCLE_CYCLE) = false) ∧
    (∃ (x : LaneId) (n : Fin 8) (p : Swap) (s : State), (s.lane x).up = true ∧ (s.lane x).scanOf n = some (some p)) ∧
    (∃ (x : LaneId) (s : State), (s.lane x).up = true ∧ (s.lane x).bit Reg.LE_SWAP_GO = true) :=
  ⟨⟨.A, 7, (laneA []), by decide +kernel⟩,
    ⟨.A, 7, (laneA [put (Reg.LE_TRIG_STAT_SCAN 7) 1]), by decide +kernel⟩,
    ⟨.A, 2, _, (laneA [(fun L => { L with le := { L.le with scans := [(2, none)] } })]), by decide +kernel, by decide +kernel, rfl⟩,
    ⟨.A, 0x18000000, 3, (laneA [put (Reg.LE_TRIG_CFG_EN 3) 1]), by decide +kernel⟩,
    ⟨.A, 0x58000000, 3, (laneA [put (Reg.LE_TRIG_CFG_EN 3) 1, put (Reg.LE_TRIG_CFG_SRC 3) 7, put Reg.LE_SWAP_CYCLE_CYCLE 5]), by decide +kernel⟩,
    ⟨.A, 2, ⟨2, 5, 7, none⟩, (laneA [(fun L => { L with le := { L.le with scans := [(2, some ⟨2, 5, 7, none⟩)] } })]), by decide +kernel⟩,
    ⟨.A, (laneA [put Reg.LE_SWAP_GO 1]), by decide +kernel⟩⟩

theorem test_meets_LeStoreWrites :
    (∃ (x : LaneId) (i : Fin 4096) (s : State), (s.lane x).up = true ∧ (s.lane x).progLocked i = false) ∧
    (∃ (x : LaneId) (i : Fin 4096) (lo : Word) (s : State), (s.lane x).up = true ∧ (s.lane x).progLocked i = false ∧ (s.lane x).le.low = some (i.val, lo.toNat)) ∧
    (∃ (x : LaneId) (i : Fin 4096) (s : State), (s.lane x).up = true ∧ (s.lane x).progLocked i = true) ∧
    (∃ (x : LaneId) (s : State), (s.lane x).up = true) ∧
    (∃ (x : LaneId) (k : Fin 1024) (s : State), (s.lane x).up = true ∧ (s.lane x).full = false ∧ k.val < 512 ∧ (s.lane x).swapPending (k / 16) = false) ∧
    (∃ (x : LaneId) (k : Fin 1024) (s : State), (s.lane x).up = true ∧ (s.lane x).full = false ∧ 512 ≤ k.val) ∧
    (∃ (x : LaneId) (k : Fin 1024) (s : State), (s.lane x).up = true ∧ (s.lane x).full = false ∧ k.val < 512 ∧ (s.lane x).swapPending (k / 16) = true) ∧
    (∃ (x : LaneId) (s : State), (s.lane x).up = true ∧ (s.lane x).full = true) ∧
    (∃ (x : LaneId) (k : Fin 14) (s : State) (r : LeRun) (rest : List LeRun) (w : Nat), Running x (leOpcode k) s r rest w ∧ dOf w < 128 ∧ ((leOpcode k = 0x0A → bitAt (modOf w) 3 = false))) ∧
    (∃ (x : LaneId) (k : Fin 26) (s : State) (r : LeRun) (rest : List LeRun) (w : Nat), Running x (leOpcode k) s r rest w) ∧
    (∃ (x : LaneId) (k : Fin 26) (s : State) (r : LeRun) (rest : List LeRun) (w : Nat), Running x (leOpcode k) s r rest w ∧ (s.lane x).le.pending = [] ∧ r.replay = false) :=
  ⟨⟨.A, 4095, (laneA []), by decide +kernel⟩,
    ⟨.A, 4095, 9, (laneA [(fun L => { L with le := { L.le with low := some (4095, 9) } })]), by decide +kernel⟩,
    ⟨.A, 5, (laneA [put (Reg.LE_TRIG_CFG_EN 0) 1, put (Reg.LE_TRIG_CFG_ENTRY 0) 0, put (Reg.LE_TRIG_CFG_LIMIT 0) 63]), by decide +kernel⟩,
    ⟨.A, (laneA []), by decide +kernel⟩,
    ⟨.A, 511, (laneA []), by decide +kernel⟩,
    ⟨.A, 512, (laneA []), by decide +kernel⟩,
    ⟨.A, 511, (laneA [put Reg.LE_CSWAP_REQ 0x80000000]), by decide +kernel⟩,
    ⟨.A, (laneA [put Reg.LE_CTRL_CCFG 1]), by decide +kernel⟩,
    ⟨.A, 1, (laneA [runs (run0) (leWord 0x06 0 5 0 0 0 0)]), run0, [], (leWord 0x06 0 5 0 0 0 0), ⟨by decide +kernel, by decide +kernel, by decide +kernel, by decide +kernel, by decide +kernel, by decide +kernel⟩, by decide +kernel⟩,
    ⟨.A, 25, (laneA [runs (run0) (leWord 0x3F 0 0 0 0 0 0)]), run0, [], (leWord 0x3F 0 0 0 0 0 0), ⟨by decide +kernel, by decide +kernel, by decide +kernel, by decide +kernel, by decide +kernel, by decide +kernel⟩⟩,
    ⟨.A, 0, (laneA [runs (run0) (leWord 0x05 0 0 0 0 0 0)]), run0, [], (leWord 0x05 0 0 0 0 0 0), ⟨by decide +kernel, by decide +kernel, by decide +kernel, by decide +kernel, by decide +kernel, by decide +kernel⟩, by decide +kernel⟩⟩

theorem test_meets_LeBankSwapsAndHold :
    (∃ (x : LaneId) (r : Fin 32) (s : State), (s.lane x).up = true ∧ (s.lane x).full = false ∧ (s.lane x).swapPending r = false) ∧
    (∃ (x : LaneId) (s : State), (s.lane x).up = true ∧ (s.lane x).full = true) ∧
    (∃ (x : LaneId) (r : Fin 32) (s : State), (s.lane x).up = true ∧ (s.lane x).le.runs = [] ∧ (s.lane x).le.pending = [] ∧ (s.lane x).dueIdle = [r.val]) ∧
    (∃ (x : LaneId) (r : Fin 32) (s : State), (s.lane x).up = true ∧ (s.lane x).full = false ∧ (s.lane x).atReason r = 0) ∧
    (∃ (x : LaneId) (r : Fin 32) (w : Nat) (s : State), (s.lane x).up = true ∧ (s.lane x).le.copying = [r.val] ∧ w < 16) ∧
    (∃ (x : LaneId) (s : State), (s.lane x).up = true ∧ (s.lane x).bit Reg.LE_HOLD_SCHED_GO = false ∧ (s.lane x).cyclePassed ((s.lane x).get Reg.LE_HOLD_CYCLE_CYCLE) = false) ∧
    (∃ (x : LaneId) (s : State), (s.lane x).up = true ∧ (s.lane x).bit Reg.LE_HOLD_SCHED_GO = true) :=
  ⟨⟨.A, 31, (laneA []), by decide +kernel⟩,
    ⟨.A, (laneA [put Reg.LE_CTRL_CCFG 1]), by decide +kernel⟩,
    ⟨.A, 3, (laneA [put Reg.LE_CSWAP_REQ 8]), by decide +kernel⟩,
    ⟨.A, 3, (laneA [owned]), by decide +kernel⟩,
    ⟨.A, 31, 15, (laneA [(fun L => { L with le := { L.le with copying := [31] } })]), by decide +kernel⟩,
    ⟨.A, (laneA [put Reg.LE_HOLD_CYCLE_CYCLE 5]), by decide +kernel⟩,
    ⟨.A, (laneA [put Reg.LE_HOLD_SCHED_GO 1]), by decide +kernel⟩⟩

theorem test_meets_CarrierBridgesAndCatch :
    (∃ (x : LaneId) (v : Word) (div : Nat) (ph : Nat) (s : State), (s.lane x).up = true ∧ div = v.toNat / 2 ^ 18 % 2 ^ 4 ∧ ph = v.toNat % 2 ^ 15 ∧ (s.lane x).bit Reg.FC_CAR_LOCK = false ∧ (s.lane x).bothOff = true ∧ 1 ≤ div ∧ div ≤ 8 ∧ ph < div * 2500 ∧ ((div ≠ (s.lane x).get Reg.FC_CAR_DIV ∨ ph ≠ (s.lane x).get (Reg.FC_CAR_PHASE (s.lane x).me)))) ∧
    (∃ (x : LaneId) (v : Word) (div : Nat) (ph : Nat) (s : State), (s.lane x).up = true ∧ div = v.toNat / 2 ^ 18 % 2 ^ 4 ∧ ph = v.toNat % 2 ^ 15 ∧ ((s.lane x).bit Reg.FC_CAR_LOCK = true ∨ (s.lane x).bothOff = false ∨ div < 1 ∨ 8 < div ∨ div * 2500 ≤ ph) ∧ ((div ≠ (s.lane x).get Reg.FC_CAR_DIV ∨ ph ≠ (s.lane x).get (Reg.FC_CAR_PHASE (s.lane x).me)))) ∧
    (∃ (x : LaneId) (v : Word) (s : State), (s.lane x).up = true ∧ v.toNat / 2 ^ 18 % 2 ^ 4 = (s.lane x).get Reg.FC_CAR_DIV ∧ v.toNat % 2 ^ 15 = (s.lane x).get (Reg.FC_CAR_PHASE (s.lane x).me)) ∧
    (∃ (x : LaneId) (s : State), (s.lane x).up = true) ∧
    (∃ (x : LaneId) (b : Fin 2) (s : State), (s.lane x).up = true ∧ (s.lane x).bit Reg.SM_STAT_TOFF = false ∧ (s.lane x).get (Reg.FC_BR_STAT_STATE b) = 0 ∧ (s.lane x).heldOff b = false) ∧
    (∃ (x : LaneId) (b : Fin 2) (s : State), (s.lane x).up = true ∧ (s.lane x).bit Reg.SM_STAT_TOFF = false ∧ ((s.lane x).get (Reg.FC_BR_STAT_STATE b) ≠ 0 ∨ (s.lane x).heldOff b = true)) ∧
    (∃ (x : LaneId) (s : State), (s.lane x).up = true ∧ (s.lane x).bit Reg.SM_STAT_TOFF = true) ∧
    (∃ (x : LaneId) (b : Fin 2) (s : State), (s.lane x).up = true ∧ (s.lane x).mode = 6 ∧ (s.lane x).get (Reg.FC_BR_STAT_STATE b) = 0 ∧ (s.lane x).heldOff b = false) ∧
    (∃ (x : LaneId) (b : Fin 2) (s : State), (s.lane x).up = true ∧ (s.lane x).mode = 6 ∧ (s.lane x).get (Reg.FC_BR_STAT_STATE b) ≠ 0) ∧
    (∃ (x : LaneId) (s : State), (s.lane x).up = true ∧ (s.lane x).mode ≠ 6) ∧
    (∃ (x : LaneId) (b : Fin 2) (T : Nat) (s : State), (s.lane x).up = true ∧ (s.lane x).catchDue b = some T ∧ (((s.reach x T).lane x).aqValid b && (((s.reach x T).lane x).aqSqual b || ((s.reach x T).lane x).aqStill b)) = false ∧ (s.lane x).stage ≠ 3) ∧
    (∃ (x : LaneId) (b : Fin 2) (s : State), (s.lane x).up = true ∧ (s.lane x).get (Reg.FC_BR_STAT_STATE b) = 2 ∧ ((s.lane x).br b).zeroLeft = 0 ∧ (s.lane x).gd.short.get b = none ∧ (s.lane x).bit Reg.GD_STAT_VGD_UV = false) ∧
    (∃ (x : LaneId) (b : Fin 2) (T : Nat) (s : State), (s.lane x).up = true ∧ (s.lane x).lockDue b = some T ∧ ((s.reach x T).lane x).endStop b = false ∧ (s.lane x).aboveTq b = true) ∧
    (∃ (x : LaneId) (s : State), (s.lane x).up = true ∧ (s.lane x).bothOff = true ∧ (s.lane x).bit Reg.AM_CTRL_CAL = false) ∧
    (∃ (x : LaneId) (s : State), (s.lane x).up = true ∧ (s.lane x).bothOff = false) ∧
    (∃ (x : LaneId) (ch : Nat) (s : State), (s.lane x).up = true ∧ (s.lane x).bit Reg.AM_CTRL_CAL = true ∧ (s.lane x).fc.calLeft = ⟨0, 0⟩ ∧ (ch = 0 ∨ ch = 1 ∨ ch = 2 ∨ ch = 4 ∨ ch = 5 ∨ ch = 6)) :=
  ⟨⟨.A, 0x00100001, 4, 1, (laneA []), by decide +kernel⟩,
    ⟨.A, 0x00100001, 4, 1, (laneA [put Reg.FC_CAR_LOCK 1]), by decide +kernel⟩,
    ⟨.A, 0x00080000, (laneA []), by decide +kernel⟩,
    ⟨.A, (laneA []), by decide +kernel⟩,
    ⟨.A, 1, (laneA [put Reg.SYS_MODE_MODE 2, (fun L => { L with pins := { L.pins with en := true } })]), by decide +kernel⟩,
    ⟨.A, 1, (laneA [put Reg.SYS_MODE_MODE 2, (fun L => { L with pins := { L.pins with en := true } }), put (Reg.FC_BR_STAT_STATE 1) 3]), by decide +kernel⟩,
    ⟨.A, (laneA [put Reg.SM_STAT_TOFF 1]), by decide +kernel⟩,
    ⟨.A, 1, (laneA [put Reg.SYS_MODE_MODE 6, (fun L => { L with pins := { L.pins with en := true } })]), by decide +kernel⟩,
    ⟨.A, 1, (laneA [put Reg.SYS_MODE_MODE 6, (fun L => { L with pins := { L.pins with en := true } }), put (Reg.FC_BR_STAT_STATE 1) 3]), by decide +kernel⟩,
    ⟨.A, (laneA []), by decide +kernel⟩,
    ⟨.A, 1, 20000000, (laneA [put (Reg.FC_BR_STAT_STATE 1) 1]), by decide +kernel⟩,
    ⟨.A, 1, (laneA [put (Reg.FC_BR_STAT_STATE 1) 2]), by decide +kernel⟩,
    ⟨.A, 1, 10000005, (laneA [put (Reg.FC_LOCK_CFG_TQ 1) 0, (fun L => { L with fc := { L.fc with br := ⟨{}, { lockAt := some 5, received := 70000 }⟩ } })]), by decide +kernel⟩,
    ⟨.A, (laneA []), by decide +kernel⟩,
    ⟨.A, (laneA [put (Reg.FC_BR_STAT_STATE 1) 3]), by decide +kernel⟩,
    ⟨.A, 6, (laneA [put Reg.AM_CTRL_CAL 1]), by decide +kernel⟩⟩

theorem test_meets_SamplingInstantsAndSets :
    (∃ (x : LaneId) (c0 : List (BitVec 12)) (c1 : List (BitVec 12)) (T : Nat) (ch : Fin 8) (c : BitVec 12) (s : State), (s.lane x).up = true ∧ (s.lane x).instantDue true = some T ∧ (∀ b, b < 2 → (s.lane x).bit (Reg.FC_BR_CFG_PAT b) = false) ∧ c0.length = 4 ∧ c1.length = 4 ∧ (c0 ++ c1)[ch.val]? = some c) ∧
    (∃ (x : LaneId) (T : Nat) (s : State), (s.lane x).up = true ∧ (s.lane x).instantDue false = some T ∧ (s.lane x).bothOff = true ∧ (((s.reach x T).lane x).alignError ((s.reach x T).lane x).nextValley).natAbs ≤ 32 ∧ ((s.lane x).br 0).commits = [] ∧ ((s.lane x).br 1).commits = []) ∧
    (∃ (x : LaneId) (T : Nat) (t0 : Nat) (b : Fin 2) (ds : List Int) (s : State), (s.lane x).up = true ∧ (s.lane x).instantDue false = some T ∧ (((s.reach x T).lane x).alignError ((s.reach x T).lane x).nextValley).natAbs ≤ 32 ∧ ((s.lane x).get (Reg.FC_BR_STAT_STATE b) = 2 ∨ (s.lane x).get (Reg.FC_BR_STAT_STATE b) = 3) ∧ (s.lane x).get (Reg.FC_BR_STAT_STATE (1 - b)) = 0 ∧ ((s.lane x).br (1 - b)).commits = [] ∧ ((s.lane x).br b).commits = [(t0, ds)] ∧ t0 + 20 ≤ ((s.reach x T).lane x).now ∧ (∀ d, d ∈ ds → 0 ≤ d ∧ d ≤ 2 ^ 30)) ∧
    (∃ (x : LaneId) (b : Fin 2) (T : Nat) (s : State), (s.lane x).up = true ∧ (s.lane x).setDue b = some T ∧ bitsOf ((s.lane x).br b).status 28 26 = 7) :=
  ⟨⟨.A, (List.replicate 4 5), (List.replicate 4 5), 2500, 7, 5, (laneA [put (Reg.FC_BR_CFG_PAT 0) 0, put (Reg.FC_BR_CFG_PAT 1) 0]), by decide +kernel⟩,
    ⟨.A, 0, (laneA []), by decide +kernel⟩,
    ⟨.A, 5000, 0, 1, [5, 6, 7], (laneA [put (Reg.FC_BR_STAT_STATE 1) 2, (fun L => { L with fc := { L.fc with br := ⟨{}, { commits := [(0, [5, 6, 7])] }⟩ } }), (fun L => { L with tb := { L.tb with local_ := 200 } })]), by decide +kernel⟩,
    ⟨.A, 1, 65, (laneA [(fun L => { L with fc := { L.fc with br := ⟨{}, { sampled := [1, 2, 3], status := 7 * 2 ^ 26 }⟩ } })]), by decide +kernel⟩⟩

theorem test_meets_HallSetAndEncoder :
    (∃ (x : LaneId) (b : Fin 2) (held : Nat) (s : State), (s.lane x).up = true ∧ (s.lane x).get (Reg.AF_HALL_CFG_FILT b) ≤ held) ∧
    (∃ (x : LaneId) (b : Fin 2) (held : Nat) (s : State), (s.lane x).up = true ∧ held < (s.lane x).get (Reg.AF_HALL_CFG_FILT b)) ∧
    (∃ (x : LaneId) (b : Fin 2) (T : Nat) (s : State), (s.lane x).up = true ∧ (s.lane x).lossDue b = some T ∧ ((s.lane x).act b).recent = [] ∧ ((s.lane x).act b).base = ((s.lane x).act b).obs) ∧
    (∃ (x : LaneId) (b : Fin 2) (T : Nat) (s : State), (s.lane x).up = true ∧ (s.lane x).stillDue b = some T ∧ ((s.lane x).act b).recent = [] ∧ ((s.lane x).act b).base = ((s.lane x).act b).obs) ∧
    (∃ (x : LaneId) (b : Fin 2) (T : Nat) (s : State), (s.lane x).up = true ∧ (s.lane x).setLostDue b = some T ∧ (s.lane x).bit (Reg.AF_ENC_CFG_EN b) = false ∧ ((s.lane x).hallSet b (s.lane x).me).fusion = false) ∧
    (∃ (x : LaneId) (b : Fin 2) (T : Nat) (s : State), (s.lane x).up = true ∧ (s.lane x).encDue b = some T) ∧
    (∃ (x : LaneId) (b : Fin 2) (s : State), (s.lane x).up = true ∧ (s.lane x).bit (Reg.AF_ENC_CFG_EN b) = false) ∧
    (∃ (x : LaneId) (b : Fin 2) (v : Word) (s : State), (s.lane x).up = true ∧ (s.lane x).bit (Reg.AF_ENC_CFG_EN b) = true ∧ (s.lane x).changes [Reg.AF_ENC_CFG_PP b, Reg.AF_ENC_CFG_Q b] v.toNat = true) ∧
    (∃ (x : LaneId) (b : Fin 2) (v : Word) (s : State), (s.lane x).up = true ∧ (s.lane x).bit (Reg.AF_ENC_CFG_EN b) = true ∧ (s.lane x).changes [Reg.AF_ENC_CFG_PP b, Reg.AF_ENC_CFG_Q b] v.toNat = false ∧ ((s.lane x).act b).encDrain = false) ∧
    (∃ (x : LaneId) (b : Fin 2) (s : State), (s.lane x).up = true ∧ ((s.lane x).act b).encDrain = true ∧ (s.lane x).backlog b = 0) :=
  ⟨⟨.A, 1, 1023, (laneA []), by decide +kernel⟩,
    ⟨.A, 1, 0, (laneA []), by decide +kernel⟩,
    ⟨.A, 1, 16385, (laneA [turning]), by decide +kernel⟩,
    ⟨.A, 1, 2000000, (laneA [turning]), by decide +kernel⟩,
    ⟨.A, 1, 100003, (laneA [(fun L => { L with af := { L.af with act := ⟨{}, { sets := ⟨{ known := true, code := 7 }, {}, {}⟩, codeAt := 3 }⟩ } })]), by decide +kernel⟩,
    ⟨.A, 1, 8, (laneA [put (Reg.AF_ENC_CFG_EN 1) 1]), by decide +kernel⟩,
    ⟨.A, 1, (laneA []), by decide +kernel⟩,
    ⟨.A, 1, 1, (laneA [put (Reg.AF_ENC_CFG_EN 1) 1]), by decide +kernel⟩,
    ⟨.A, 1, 0x00011000#32, (laneA [put (Reg.AF_ENC_CFG_EN 1) 1]), by decide +kernel⟩,
    ⟨.A, 1, (laneA [(fun L => { L with af := { L.af with act := ⟨{}, { encDrain := true }⟩ } })]), by decide +kernel⟩⟩

theorem test_meets_SentAndAnalogInputs :
    (∃ (x : LaneId) (ch : Fin 2) (f : SentFrame) (st : Nat) (data : List Nat) (s : State), (s.lane x).up = true ∧ (s.lane x).bit (Reg.AF_SENT_CFG_EN ch) = true ∧ f.calNs = 56 * (s.lane x).get (Reg.AF_SENT_CFG_TICK ch) * 100 ∧ ((s.lane x).sentCh ch).prevCal = none ∧ (s.lane x).pauseFits ch f = true ∧ st < 16 ∧ (∀ d, d ∈ data → d < 16) ∧ data.length = (s.lane x).get (Reg.AF_SENT_CFG_NIB ch) ∧ (f.nibbleNs.map fun (ns : Nat) => (roundDiv (56 * ns : Nat) (max 1 f.calNs)).toNat) = (st :: data ++ [sentCheck ((s.lane x).bit (Reg.AF_SENT_CFG_CRC_LEGACY ch)) data]).map (· + 12)) ∧
    (∃ (x : LaneId) (ch : Fin 2) (s : State), (s.lane x).up = true ∧ (s.lane x).bit (Reg.AF_SENT_CFG_EN ch) = false) ∧
    (∃ (x : LaneId) (ch : Fin 2) (T : Nat) (s : State), (s.lane x).up = true ∧ (s.lane x).sentDue ch = some T) ∧
    (∃ (x : LaneId) (s : State), (s.lane x).up = true) :=
  ⟨⟨.A, 1, sent6, 0, [1, 2, 3, 4, 5, 6], (laneA [put (Reg.AF_SENT_CFG_EN 1) 1, put (Reg.AF_SENT_CFG_NIB 1) 6]), by decide +kernel⟩,
    ⟨.A, 1, (laneA []), by decide +kernel⟩,
    ⟨.A, 1, 1000000, (laneA [put (Reg.AF_SENT_CFG_EN 1) 1, put (Reg.AF_SENT_STAT_VALID 1) 1]), by decide +kernel⟩,
    ⟨.A, (laneA []), by decide +kernel⟩⟩

theorem test_meets_SwitchesAndProfiles :
    (∃ (x : LaneId) (b : Fin 2) (ph : Fin 3) (high : Bool) (on : Bool) (k : Nat) (T : Nat) (s : State), (s.lane x).up = true ∧ k = swKey b ph high ∧ (s.lane x).fcEdge b ph high on ((s.lane x).sw k).inp = some T ∧ (s.lane x).gdAccepts b = false) ∧
    (∃ (x : LaneId) (b : Fin 2) (ph : Fin 3) (high : Bool) (k : Nat) (T : Nat) (s : State), (s.lane x).up = true ∧ k = swKey b ph high ∧ (s.lane x).fcEdge b ph high false ((s.lane x).sw k).inp = some T ∧ (s.lane x).gdAccepts b = true) ∧
    (∃ (x : LaneId) (b : Fin 2) (ph : Fin 3) (high : Bool) (k : Nat) (T : Nat) (s : State), (s.lane x).up = true ∧ k = swKey b ph high ∧ (s.lane x).fcEdge b ph high true ((s.lane x).sw k).inp = some T ∧ (s.lane x).gdAccepts b = true ∧ ((s.lane x).sw k).edge ≠ .on ∧ ((s.lane x).sw (otherKey k)).inp = false ∧ ((s.lane x).sw (otherKey k)).edge ≠ .on ∧ (s.lane x).deadEnd k ≤ ((s.reach x T).lane x).now ∧ (high && (s.lane x).bitOf (Reg.GD_FLT_BSUV b) ph) = false) ∧
    (∃ (x : LaneId) (b : Fin 2) (ph : Fin 3) (high : Bool) (k : Nat) (T : Nat) (s : State), (s.lane x).up = true ∧ k = swKey b ph high ∧ (s.lane x).fcEdge b ph high true ((s.lane x).sw k).inp = some T ∧ (s.lane x).gdAccepts b = true ∧ ((s.lane x).sw k).edge ≠ .on ∧ ((s.lane x).sw (otherKey k)).inp = false ∧ (((s.lane x).sw (otherKey k)).edge = .on ∨ ((s.reach x T).lane x).now < (s.lane x).deadEnd k)) ∧
    (∃ (x : LaneId) (b : Fin 2) (ph : Fin 3) (k : Nat) (T : Nat) (s : State), (s.lane x).up = true ∧ k = swKey b ph true ∧ (s.lane x).fcEdge b ph true true ((s.lane x).sw k).inp = some T ∧ (s.lane x).gdAccepts b = true ∧ ((s.lane x).sw (otherKey k)).inp = false ∧ (s.lane x).bitOf (Reg.GD_FLT_BSUV b) ph = true) ∧
    (∃ (x : LaneId) (b : Fin 2) (ph : Fin 3) (high : Bool) (k : Nat) (T : Nat) (s : State), (s.lane x).up = true ∧ k = swKey b ph high ∧ (s.lane x).fcEdge b ph high true ((s.lane x).sw k).inp = some T ∧ (s.lane x).gdAccepts b = true ∧ ((s.lane x).sw (otherKey k)).inp = true) ∧
    (∃ (x : LaneId) (b : Fin 2) (ph : Fin 3) (high : Bool) (k : Nat) (T : Nat) (s : State), (s.lane x).up = true ∧ k = swKey b ph high ∧ (s.lane x).deadDue k = some T) ∧
    (∃ (x : LaneId) (b : Fin 2) (ph : Fin 3) (high : Bool) (k : Nat) (T : Nat) (s : State), (s.lane x).up = true ∧ k = swKey b ph high ∧ (s.lane x).phaseDue k = some T) ∧
    (∃ (x : LaneId) (s : State), (s.lane x).up = true) ∧
    (∃ (x : LaneId) (b : Fin 2) (s : State), (s.lane x).up = true ∧ (s.lane x).get (Reg.FC_BR_STAT_STATE b) ≠ 4) ∧
    (∃ (x : LaneId) (b : Fin 2) (v : Word) (s : State), (s.lane x).up = true ∧ (s.lane x).get (Reg.FC_BR_STAT_STATE b) = 4 ∧ (∀ i, i < 3 → (bitAt v.toNat i && bitAt v.toNat (i + 3)) = false)) ∧
    (∃ (x : LaneId) (b : Fin 2) (i : Fin 3) (v : Word) (s : State), (s.lane x).up = true ∧ (s.lane x).get (Reg.FC_BR_STAT_STATE b) = 4 ∧ (s.lane x).gdAccepts b = true ∧ bitAt v.toNat i = true ∧ bitAt v.toNat (i + 3) = true ∧ (∀ j, j < 3 → j = i ∨ (bitAt v.toNat j && bitAt v.toNat (j + 3)) = false) ∧ (((s.lane x).sw (swKey b i false)).inp && ((s.lane x).sw (swKey b i true)).inp) = false) :=
  ⟨⟨.A, 1, 2, true, true, 11, 200, (laneA [put (Reg.FC_BR_STAT_STATE 1) 3, fcpulse]), by decide +kernel⟩,
    ⟨.A, 1, 2, true, 11, 0, (laneA [put (Reg.FC_BR_STAT_STATE 1) 3, (fun L => { L with pins := { L.pins with en := true } }), fcpulse, (fun L => { L with gd := { L.gd with sw := [(11, { inp := true })] } })]), by decide +kernel⟩,
    ⟨.A, 1, 2, true, 11, 200, (laneA [put (Reg.FC_BR_STAT_STATE 1) 3, (fun L => { L with pins := { L.pins with en := true } }), fcpulse]), by decide +kernel⟩,
    ⟨.A, 1, 2, true, 11, 200, (laneA [put (Reg.FC_BR_STAT_STATE 1) 3, (fun L => { L with pins := { L.pins with en := true } }), fcpulse, (fun L => { L with gd := { L.gd with sw := [(10, { edge := .on })] } })]), by decide +kernel⟩,
    ⟨.A, 1, 2, 11, 200, (laneA [put (Reg.FC_BR_STAT_STATE 1) 3, (fun L => { L with pins := { L.pins with en := true } }), fcpulse, put (Reg.GD_FLT_BSUV 1) 4]), by decide +kernel⟩,
    ⟨.A, 1, 2, true, 11, 200, (laneA [put (Reg.FC_BR_STAT_STATE 1) 3, (fun L => { L with pins := { L.pins with en := true } }), fcpulse, (fun L => { L with gd := { L.gd with sw := [(10, { inp := true })] } })]), by decide +kernel⟩,
    ⟨.A, 1, 2, true, _, 10, (laneA [put (Reg.FC_BR_STAT_STATE 1) 3, (fun L => { L with pins := { L.pins with en := true } }), (fun L => { L with gd := { L.gd with sw := [(11, { inp := true, waiting := true })] } })]), by decide +kernel, rfl, by decide +kernel⟩,
    ⟨.A, 1, 2, true, _, 65, (laneA [(fun L => { L with gd := { L.gd with sw := [(11, { phase := 2, start := 40 })] } })]), by decide +kernel, rfl, by decide +kernel⟩,
    ⟨.A, (laneA []), by decide +kernel⟩,
    ⟨.A, 1, (laneA []), by decide +kernel⟩,
    ⟨.A, 1, 0, (laneA [put (Reg.FC_BR_STAT_STATE 1) 4, (fun L => { L with pins := { L.pins with en := true } })]), by decide +kernel⟩,
    ⟨.A, 1, 2, 0x24, (laneA [put (Reg.FC_BR_STAT_STATE 1) 4, (fun L => { L with pins := { L.pins with en := true } })]), by decide +kernel⟩⟩

theorem test_meets_GateSuppliesLinkAndShorts :
    (∃ (x : LaneId) (s : State), (s.lane x).up = true ∧ (s.lane x).bit Reg.GD_STAT_LINK = false) ∧
    (∃ (x : LaneId) (s : State), (s.lane x).up = true ∧ (s.lane x).bit Reg.GD_STAT_LINK = true) ∧
    (∃ (x : LaneId) (b : Fin 2) (ph : Fin 3) (s : State), (s.lane x).up = true ∧ (s.lane x).bitOf (Reg.GD_FLT_BSUV b) ph = false) ∧
    (∃ (x : LaneId) (b : Fin 2) (ph : Fin 3) (s : State), (s.lane x).up = true ∧ (s.lane x).bitOf (Reg.GD_FLT_BSUV b) ph = true) ∧
    (∃ (x : LaneId) (s : State), (s.lane x).up = true) ∧
    (∃ (x : LaneId) (s : State), (s.lane x).up = true ∧ (s.lane x).bit Reg.GD_STAT_VGD_UV = false) ∧
    (∃ (x : LaneId) (s : State), (s.lane x).up = true ∧ (s.lane x).bit Reg.GD_STAT_VGD_UV = true) ∧
    (∃ (x : LaneId) (s : State), (s.lane x).up = true) ∧
    (∃ (x : LaneId) (b : Fin 2) (phases : BitVec 3) (two : Bool) (s : State), (s.lane x).up = true ∧ phases ≠ 0 ∧ (s.lane x).shortOf b = none ∧ (s.lane x).bit (Reg.GD_FLT_SHORT b) = false ∧ two = decide (2 ≤ countIf (bitAt phases.toNat) [0, 1, 2]) ∧ (∀ i, i < 3 → (s.lane x).undoBsuv (swKey b i true) = s.lane x)) ∧
    (∃ (x : LaneId) (b : Fin 2) (s : State), (s.lane x).up = true ∧ (s.lane x).shortOf b = none ∧ (s.lane x).bit (Reg.GD_FLT_SHORT b) = true) ∧
    (∃ (x : LaneId) (b : Fin 2) (phases : BitVec 3) (q : ShortSeq) (all : Nat) (s : State), (s.lane x).up = true ∧ (s.lane x).shortOf b = some q ∧ q.twoLeg = false ∧ all = Nat.lor q.legs.toNat phases.toNat ∧ all ≠ q.legs.toNat ∧ q.at_ < (s.lane x).now ∧ (s.lane x).now < q.at_ + (s.lane x).get (Reg.GD_SHORT_SOFT_T b)) ∧
    (∃ (x : LaneId) (b : Fin 2) (high : BitVec 3) (low : BitVec 3) (legs : Nat) (two : Bool) (s : State), (s.lane x).up = true ∧ (∀ i, i < 3 → (!bitAt high.toNat i || (s.lane x).desatActive (swKey b i true)) = true) ∧ (∀ i, i < 3 → (!bitAt low.toNat i || (s.lane x).desatActive (swKey b i false)) = true) ∧ legs = Nat.lor high.toNat low.toNat ∧ legs ≠ 0 ∧ (s.lane x).shortOf b = none ∧ (s.lane x).bit (Reg.GD_FLT_SHORT b) = false ∧ two = decide (2 ≤ countIf (bitAt legs) [0, 1, 2]) ∧ (∀ i, i < 3 → (s.lane x).undoBsuv (swKey b i true) = s.lane x)) ∧
    (∃ (x : LaneId) (b : Fin 2) (high : BitVec 3) (low : BitVec 3) (s : State), (s.lane x).up = true ∧ (∀ i, i < 3 → (bitAt high.toNat i && (s.lane x).desatActive (swKey b i true)) = false) ∧ (∀ i, i < 3 → (bitAt low.toNat i && (s.lane x).desatActive (swKey b i false)) = false)) ∧
    (∃ (x : LaneId) (b : Fin 2) (T : Nat) (q : ShortSeq) (s : State), (s.lane x).up = true ∧ (s.lane x).shortOf b = some q ∧ (s.lane x).stageDue b = some T) ∧
    (∃ (x : LaneId) (b : Fin 2) (T : Nat) (q : ShortSeq) (s : State), (s.lane x).up = true ∧ (s.lane x).shortOf b = some q ∧ (s.lane x).shortEndDue b = some T) ∧
    (∃ (x : LaneId) (b : Fin 2) (i : Fin 3) (phases : BitVec 3) (s : State), (s.lane x).up = true ∧ 2 ≤ countIf (bitAt phases.toNat) [0, 1, 2] ∧ (s.lane x).shortOf b = none ∧ (s.lane x).bit (Reg.GD_FLT_SHORT b) = false ∧ (s.lane x).bitOf (Reg.GD_FLT_BSUV b) i = true ∧ ((s.lane x).sw (swKey b i true)).edge = .off ∧ ((s.lane x).sw (swKey b i true)).phase = 1 ∧ ((s.lane x).sw (swKey b i true)).start = (s.lane x).now) :=
  ⟨⟨.A, (laneA []), by decide +kernel⟩,
    ⟨.A, (laneA [put Reg.GD_STAT_LINK 1]), by decide +kernel⟩,
    ⟨.A, 1, 2, (laneA []), by decide +kernel⟩,
    ⟨.A, 1, 2, (laneA [put (Reg.GD_FLT_BSUV 1) 4]), by decide +kernel⟩,
    ⟨.A, (laneA []), by decide +kernel⟩,
    ⟨.A, (laneA []), by decide +kernel⟩,
    ⟨.A, (laneA [put Reg.GD_STAT_VGD_UV 1]), by decide +kernel⟩,
    ⟨.A, (laneA []), by decide +kernel⟩,
    ⟨.A, 1, 4, _, (laneA []), by decide +kernel, by decide +kernel, by decide +kernel, by decide +kernel, rfl, by decide +kernel⟩,
    ⟨.A, 1, (laneA [put (Reg.GD_FLT_SHORT 1) 1]), by decide +kernel⟩,
    ⟨.A, 1, 4, ⟨100, false, 1, 1, (0, 0, 0), []⟩, _, (laneA [(fun L => { L with gd := { L.gd with short := ⟨none, some ⟨100, false, 1, 1, (0, 0, 0), []⟩⟩ } }), (fun L => { L with tb := { L.tb with local_ := 101 } })]), by decide +kernel, by decide +kernel, by decide +kernel, rfl, by decide +kernel⟩,
    ⟨.A, 1, 4, 0, _, _, (laneA [(fun L => { L with gd := { L.gd with sw := [(11, { edge := .on, phase := 1, start := 0 })] } }), (fun L => { L with tb := { L.tb with local_ := 5000 } })]), by decide +kernel, by decide +kernel, by decide +kernel, rfl, by decide +kernel, by decide +kernel, by decide +kernel, rfl, by decide +kernel⟩,
    ⟨.A, 1, 0, 0, (laneA [(fun L => { L with gd := { L.gd with sw := [(11, { edge := .on, phase := 1, start := 0 })] } }), (fun L => { L with tb := { L.tb with local_ := 5000 } })]), by decide +kernel⟩,
    ⟨.A, 1, 120, ⟨100, true, 4, 1, (0, 0, 0), []⟩, (laneA [(fun L => { L with gd := { L.gd with short := ⟨none, some ⟨100, true, 4, 1, (0, 0, 0), []⟩⟩ } })]), by decide +kernel⟩,
    ⟨.A, 1, 170, { at_ := 100, twoLeg := true, legs := 0x4#3, stage := 2, sample := (0, 0, 0), was := [] }, (laneA [(fun L => { L with gd := { L.gd with short := ⟨none, some ⟨100, true, 4, 2, (0, 0, 0), []⟩⟩ } })]), by decide +kernel⟩,
    ⟨.A, 1, 0, 6, (laneA [(fun L => { L with gd := { L.gd with sw := [(7, { edge := .off, phase := 1, start := 0 })] } }), put (Reg.GD_FLT_BSUV 1) 1]), by decide +kernel⟩⟩

theorem test_meets_EnableBallAndTorqueOffLine :
    (∃ (ns : Nat), 100 ≤ ns) ∧
    (∃ (ns : Nat), ns < 50) ∧
    (∃ (ns : Nat), 50 ≤ ns ∧ ns < 100) ∧
    (∃ (x : LaneId) (t0 : Int) (s : State), (s.lane x).gd.enLow = some t0 ∧ t0 + 500 ≤ ((s.lane x).now : Int)) ∧
    (∃ (x : LaneId) (s : State), ((s.lane x).gd.enLow.all fun t0 => decide (((s.lane x).now : Int) < t0 + 450)) = true) ∧
    (∃ (x : LaneId) (t0 : Int) (s : State), (s.lane x).gd.enLow = some t0 ∧ t0 + 450 ≤ ((s.lane x).now : Int) ∧ ((s.lane x).now : Int) < t0 + 500) ∧
    (∃ (x : LaneId) (s : State), (s.lane x).up = true) :=
  ⟨⟨100, by decide +kernel⟩,
    ⟨49, by decide +kernel⟩,
    ⟨99, by decide +kernel⟩,
    ⟨.A, 100, (laneA [(fun L => { L with gd := { L.gd with enLow := some 100 } }), (fun L => { L with tb := { L.tb with local_ := 600 } })]), by decide +kernel⟩,
    ⟨.A, (laneA [(fun L => { L with gd := { L.gd with enLow := some 100 } }), (fun L => { L with tb := { L.tb with local_ := 549 } })]), by decide +kernel⟩,
    ⟨.A, 100, (laneA [(fun L => { L with gd := { L.gd with enLow := some 100 } }), (fun L => { L with tb := { L.tb with local_ := 599 } })]), by decide +kernel⟩,
    ⟨.A, (laneA []), by decide +kernel⟩⟩

theorem test_meets_TheCommitGate :
    (∃ (x : LaneId) (c : CoreTxn) (s : State), (s.lane x).up = true ∧ (s.lane x).get Reg.CP_STAT_STATE = 0 ∧ (s.lane x).coresRun = true ∧ (s.lane x).throttled 0 = false ∧ c.kind = .store ∧ pmpAllows c = true ∧ (s.lane x).trapWaits 0 = false ∧ (s.lane x).cp.trap = false ∧ c.csrReads = [] ∧ 0x20000000 ≤ c.addr.toNat ∧ c.addr.toNat < 0x20800000 ∧ (s.lane x).inShared c.addr.toNat = false ∧ (s.lane x).cp.journal.length < 1023 ∧ (s.lane x).cp.inlog.zero.length < 16 ∧ (s.lane x).cp.inlog.one.length < 16 ∧ (s.lane x).cp.splitReq = none ∧ (s.lane x).cp.haltReq = [] ∧ (s.lane x).cp.pmReq = false) ∧
    (∃ (x : LaneId) (c : CoreTxn) (s : State), (s.lane x).up = true ∧ (s.lane x).get Reg.CP_STAT_STATE = 0 ∧ (s.lane x).coresRun = true ∧ (s.lane x).throttled 0 = false ∧ (c.kind = .load ∨ c.kind = .fetch) ∧ pmpAllows c = true ∧ (s.lane x).trapWaits 0 = false ∧ (s.lane x).cp.trap = false ∧ c.csrReads = [] ∧ 0x20000000 ≤ c.addr.toNat ∧ c.addr.toNat < 0x20800000 ∧ (s.lane x).inShared c.addr.toNat = false ∧ (s.lane x).cp.journal.length < 1024 ∧ (s.lane x).cp.inlog.zero.length < 16 ∧ (s.lane x).cp.inlog.one.length < 16 ∧ (s.lane x).cp.splitReq = none ∧ (s.lane x).cp.haltReq = [] ∧ (s.lane x).cp.pmReq = false) ∧
    (∃ (x : LaneId) (c : CoreTxn) (s : State), (s.lane x).up = true ∧ (s.lane x).get Reg.CP_STAT_STATE = 0 ∧ (s.lane x).coresRun = true ∧ (s.lane x).throttled 0 = false ∧ c.kind ≠ .wfi ∧ pmpAllows c = false ∧ c.csrReads = [] ∧ (s.lane x).cp.journal.length < 1024 ∧ (s.lane x).cp.inlog.zero.length < 16 ∧ (s.lane x).cp.inlog.one.length < 16 ∧ (s.lane x).cp.splitReq = none ∧ (s.lane x).cp.haltReq = [] ∧ (s.lane x).cp.pmReq = false) ∧
    (∃ (x : LaneId) (c : CoreTxn) (d : CoreTxn) (s : State), (s.lane x).up = true ∧ (s.lane x).lockstep = true ∧ (s.lane x).coresRun = true ∧ (s.lane x).throttled 0 = false ∧ c.kind = .wfi ∧ d.kind = .wfi ∧ (s.lane x).wakePending = false) ∧
    (∃ (x : LaneId) (c : CoreTxn) (d : CoreTxn) (w : Nat) (s : State), (s.lane x).up = true ∧ (s.lane x).lockstep = true ∧ (s.lane x).coresRun = true ∧ (s.lane x).throttled 0 = false ∧ txnDiffers c d = some w ∧ c.csrReads = [] ∧ d.csrReads = [] ∧ (s.lane x).cp.inlog.zero = (s.lane x).cp.inlog.one ∧ (s.lane x).cp.events.length < 2) ∧
    (∃ (x : LaneId) (c : CoreTxn) (d : CoreTxn) (w : Nat) (s : State), (s.lane x).up = true ∧ (s.lane x).lockstep = true ∧ (s.lane x).coresRun = true ∧ (s.lane x).throttled 0 = false ∧ txnDiffers c d = some w ∧ c.csrReads = [] ∧ d.csrReads = [] ∧ (s.lane x).cp.inlog.zero ≠ (s.lane x).cp.inlog.one ∧ (s.lane x).cp.events.length < 2) ∧
    (∃ (x : LaneId) (c : CoreTxn) (d : CoreTxn) (w : Nat) (s : State), (s.lane x).up = true ∧ (s.lane x).lockstep = true ∧ (s.lane x).coresRun = true ∧ (s.lane x).throttled 0 = false ∧ txnDiffers c d = some w ∧ (s.lane x).cp.events = [2, 2]) ∧
    (∃ (x : LaneId) (c : CoreTxn) (d : CoreTxn) (s : State), (s.lane x).up = true ∧ (s.lane x).get Reg.CP_STAT_STATE = 3 ∧ (s.lane x).coresRun = true ∧ (s.lane x).coreRuns 0 c = true ∧ (s.lane x).coreRuns 1 d = true ∧ c.kind = .store ∧ d.kind = .wfi ∧ pmpAllows c = true ∧ (s.lane x).trapWaits 0 = false ∧ (s.lane x).trapWaits 1 = false ∧ (s.lane x).cp.trap = false ∧ 0x20000000 ≤ c.addr.toNat ∧ c.addr.toNat < 0x20800000) ∧
    (∃ (x : LaneId) (s : State), ((s.lane x).up = false ∨ (s.lane x).coresRun = false ∨ ((s.lane x).lockstep && (s.lane x).throttled 0) = true)) ∧
    (∃ (x : LaneId) (c : CoreTxn) (s : State), (s.lane x).up = true ∧ (s.lane x).get Reg.CP_STAT_STATE = 0 ∧ (s.lane x).coresRun = true ∧ (s.lane x).throttled 0 = false ∧ (c.kind = .store ∨ c.kind = .load) ∧ c.ecc = .clean ∧ pmpAllows c = true ∧ c.csrReads = [] ∧ 0x20000000 ≤ c.addr.toNat ∧ c.addr.toNat < 0x20800000 ∧ (s.lane x).cp.journal.length < 1023 ∧ (s.lane x).cp.splitReq = none ∧ (s.lane x).cp.haltReq = [] ∧ (s.lane x).trapWaits 0 = true) :=
  ⟨⟨.A, storeTxn, (laneA []), by decide +kernel⟩,
    ⟨.A, (loadTxn 0x20000000), (laneA []), by decide +kernel⟩,
    ⟨.A, { storeTxn with machineMode := false }, (laneA []), by decide +kernel⟩,
    ⟨.A, { storeTxn with kind := .wfi }, { storeTxn with kind := .wfi }, (laneA []), by decide +kernel⟩,
    ⟨.A, (loadTxn 0x20000000), (loadTxn 0x20000004), 1, (laneA []), by decide +kernel⟩,
    ⟨.A, (loadTxn 0x20000000), (loadTxn 0x20000004), 1, (laneA [(fun L => { L with cp := { L.cp with inlog := ⟨[(1, 2)], []⟩ } })]), by decide +kernel⟩,
    ⟨.A, (loadTxn 0x20000000), (loadTxn 0x20000004), 1, (laneA [(fun L => { L with cp := { L.cp with events := [2, 2] } })]), by decide +kernel⟩,
    ⟨.A, storeTxn, { storeTxn with kind := .wfi }, (laneA [put Reg.CP_STAT_STATE 3]), by decide +kernel⟩,
    ⟨.A, (laneA [put Reg.CP_STAT_STATE 1]), by decide +kernel⟩,
    ⟨.A, storeTxn, (laneA [(fun L => { L with ts := { L.ts with target := ⟨{ irq := true }, {}⟩ } })]), by decide +kernel⟩⟩

theorem test_meets_PairEventsAndWfi :
    (∃ (x : LaneId) (s : State), (s.lane x).up = true ∧ (s.lane x).gateOpen = true ∧ (s.lane x).cp.events = []) ∧
    (∃ (x : LaneId) (late : Fin 2) (s : State), (s.lane x).up = true ∧ (s.lane x).gateOpen = true ∧ (s.lane x).cp.events = [late.val, late.val]) ∧
    (∃ (x : LaneId) (s : State), (s.lane x).up = true ∧ (s.lane x).get Reg.CP_STAT_STATE = 1 ∧ (s.lane x).get Reg.CP_STAT_ISOLATED = 0 ∧ (s.lane x).cp.haltReq = []) ∧
    (∃ (x : LaneId) (s : State), (s.lane x).up = true ∧ (s.lane x).lockstep = true) ∧
    (∃ (x : LaneId) (s : State), (s.lane x).up = true ∧ (s.lane x).lockstep = false) ∧
    (∃ (x : LaneId) (s : State), (s.lane x).up = true ∧ (s.lane x).wakePending = false) ∧
    (∃ (x : LaneId) (s : State), (s.lane x).up = true ∧ (s.lane x).wakePending = true) ∧
    (∃ (x : LaneId) (core : Fin 2) (s : State), (s.lane x).up = true ∧ (s.lane x).get Reg.CP_STAT_STATE = 1 ∧ (s.lane x).get Reg.CP_STAT_ISOLATED = 0 ∧ (s.lane x).cp.haltReq = [core.val]) ∧
    (∃ (x : LaneId) (s : State), (s.lane x).up = true ∧ (s.lane x).get Reg.CP_STAT_STATE = 1 ∧ (s.lane x).get Reg.CP_STAT_ISOLATED ≠ 0) :=
  ⟨⟨.A, (laneA []), by decide +kernel⟩,
    ⟨.A, 1, (laneA [(fun L => { L with cp := { L.cp with events := [1, 1] } })]), by decide +kernel⟩,
    ⟨.A, (laneA [put Reg.CP_STAT_STATE 1]), by decide +kernel⟩,
    ⟨.A, (laneA []), by decide +kernel⟩,
    ⟨.A, (laneA [put Reg.CP_STAT_STATE 3]), by decide +kernel⟩,
    ⟨.A, (laneA []), by decide +kernel⟩,
    ⟨.A, (laneA [(fun L => { L with cp := { L.cp with trap := true } })]), by decide +kernel⟩,
    ⟨.A, 1, (laneA [put Reg.CP_STAT_STATE 1, (fun L => { L with cp := { L.cp with haltReq := [1] } })]), by decide +kernel⟩,
    ⟨.A, (laneA [put Reg.CP_STAT_STATE 1, put Reg.CP_STAT_ISOLATED 1]), by decide +kernel⟩⟩

theorem test_meets_SplitRejoinAndDebug :
    (∃ (x : LaneId) (s : State), (s.lane x).up = true ∧ (s.lane x).permits .split = true ∧ (s.lane x).get Reg.CP_STAT_STATE = 0) ∧
    (∃ (x : LaneId) (s : State), (s.lane x).up = true ∧ (s.lane x).permits .split = false) ∧
    (∃ (x : LaneId) (s : State), (s.lane x).up = true ∧ (s.lane x).permits .split = true ∧ (s.lane x).get Reg.CP_STAT_STATE ≠ 0) ∧
    (∃ (x : LaneId) (s : State), (s.lane x).up = true ∧ (s.lane x).get Reg.CP_STAT_STATE = 3 ∧ (s.lane x).bit Reg.CP_STAT_HALT0 = false ∧ (s.lane x).bit Reg.CP_STAT_HALT1 = false) ∧
    (∃ (x : LaneId) (s : State), (s.lane x).up = true ∧ ((s.lane x).get Reg.CP_STAT_STATE ≠ 3 ∨ (s.lane x).bit Reg.CP_STAT_HALT0 = true ∨ (s.lane x).bit Reg.CP_STAT_HALT1 = true)) ∧
    (∃ (x : LaneId) (T : Nat) (p : Bool) (s : State), (s.lane x).up = true ∧ (s.lane x).cp.drainAt = some T ∧ p = (((s.lane x).target 1).fixed.isNone && ((s.lane x).target 1).drain && ((s.lane x).running 1).isSome)) ∧
    (∃ (x : LaneId) (s : State), (s.lane x).up = true ∧ (s.lane x).lockstep = true) ∧
    (∃ (x : LaneId) (core : Fin 2) (s : State), (s.lane x).up = true ∧ (s.lane x).lockstep = false ∧ (s.lane x).bitOf Reg.CP_STAT_ISOLATED core = false ∧ (s.lane x).bit (haltFld core) = false ∧ (s.lane x).bit Reg.CP_STAT_DEBUG_SPLIT = false) ∧
    (∃ (x : LaneId) (core : Fin 2) (s : State), (s.lane x).up = true ∧ (s.lane x).lockstep = false ∧ (s.lane x).bitOf Reg.CP_STAT_ISOLATED core = false ∧ (s.lane x).bit (haltFld core) = false ∧ (s.lane x).bit Reg.CP_STAT_DEBUG_SPLIT = true) ∧
    (∃ (x : LaneId) (core : Fin 2) (s : State), (s.lane x).up = true ∧ (s.lane x).lockstep = false ∧ ((s.lane x).bitOf Reg.CP_STAT_ISOLATED core = true ∨ (s.lane x).bit (haltFld core) = true)) ∧
    (∃ (x : LaneId) (core : Fin 2) (s : State), (s.lane x).up = true ∧ (s.lane x).lockstep = false ∧ (s.lane x).bit (haltFld core) = true) ∧
    (∃ (x : LaneId) (core : Fin 2) (s : State), (s.lane x).up = true ∧ (s.lane x).lockstep = false ∧ (s.lane x).bit (haltFld core) = true) ∧
    (∃ (x : LaneId) (core : Fin 2) (s : State), (s.lane x).up = true ∧ ((s.lane x).lockstep = true ∨ (s.lane x).bit (haltFld core) = false)) ∧
    (∃ (x : LaneId) (core : Fin 2) (s : State), (s.lane x).up = true ∧ ((s.lane x).lockstep = true ∨ (s.lane x).bit (haltFld core) = false)) ∧
    (∃ (x : LaneId) (isOpen : Bool) (s : State), (s.lane x).awake = true ∧ (s.lane x).cp.debugOpen ≠ isOpen) ∧
    (∃ (x : LaneId) (s : State), (s.lane x).awake = true) :=
  ⟨⟨.A, (laneA [put Reg.SYS_MODE_MODE 6]), by decide +kernel⟩,
    ⟨.A, (laneA []), by decide +kernel⟩,
    ⟨.A, (laneA [put Reg.SYS_MODE_MODE 6, put Reg.CP_STAT_STATE 3]), by decide +kernel⟩,
    ⟨.A, (laneA [put Reg.CP_STAT_STATE 3]), by decide +kernel⟩,
    ⟨.A, (laneA [put Reg.CP_STAT_STATE 3, put Reg.CP_STAT_HALT0 1]), by decide +kernel⟩,
    ⟨.A, 100, _, (laneA [(fun L => { L with cp := { L.cp with drainAt := some 100 } }), put Reg.TS_STAT_VALID1 1]), by decide +kernel, by decide +kernel, rfl⟩,
    ⟨.A, (laneA []), by decide +kernel⟩,
    ⟨.A, 1, (laneA [put Reg.CP_STAT_STATE 3]), by decide +kernel⟩,
    ⟨.A, 1, (laneA [put Reg.CP_STAT_STATE 3, put Reg.CP_STAT_DEBUG_SPLIT 1]), by decide +kernel⟩,
    ⟨.A, 1, (laneA [put Reg.CP_STAT_STATE 3, put Reg.CP_STAT_HALT1 1]), by decide +kernel⟩,
    ⟨.A, 1, (laneA [put Reg.CP_STAT_STATE 3, put Reg.CP_STAT_HALT1 1]), by decide +kernel⟩,
    ⟨.A, 1, (laneA [put Reg.CP_STAT_STATE 3, put Reg.CP_STAT_HALT1 1]), by decide +kernel⟩,
    ⟨.A, 1, (laneA [put Reg.CP_STAT_STATE 3]), by decide +kernel⟩,
    ⟨.A, 1, (laneA [put Reg.CP_STAT_STATE 3]), by decide +kernel⟩,
    ⟨.A, true, (laneA [(fun L => { L with run := .sleep })]), by decide +kernel⟩,
    ⟨.A, (laneA [(fun L => { L with run := .sleep })]), by decide +kernel⟩⟩

theorem test_meets_EventsFlagsAndDispatch :
    (∃ (x : LaneId) (e : Fin 256) (s : State), (s.lane x).up = true ∧ eventExists e = true) ∧
    (∃ (x : LaneId) (e : Fin 256) (s : State), (s.lane x).up = true ∧ (eventExists e && (s.lane x).bit (Reg.TS_ROUTE_EN e)) = false) ∧
    (∃ (x : LaneId) (s : State), (s.lane x).up = true) ∧
    (∃ (x : LaneId) (s : State), (s.lane x).up = true) ∧
    (∃ (x : LaneId) (k : Fin 2) (s : State), (s.lane x).up = true ∧ ((s.lane x).target k).irq = true ∧ ((s.lane x).target k).fixed = none) ∧
    (∃ (x : LaneId) (k : Fin 2) (s : State), (s.lane x).up = true ∧ (((s.lane x).target k).fixed ≠ none ∨ ((s.lane x).target k).irq = false)) ∧
    (∃ (x : LaneId) (k : Fin 2) (n : Fin 256) (s : State), (s.lane x).up = true ∧ ((s.lane x).target k).fixed = some (none, some n.val)) ∧
    (∃ (x : LaneId) (k : Fin 2) (m : Fin 256) (n : Fin 256) (s : State), (s.lane x).up = true ∧ m ≠ n ∧ ((s.lane x).target k).fixed = some (some m.val, some n.val) ∧ ((s.lane x).task m).disable = false ∧ ((s.lane x).target k).yielding ≠ some false) ∧
    (∃ (x : LaneId) (k : Fin 2) (m : Fin 256) (s : State), (s.lane x).up = true ∧ ((s.lane x).target k).fixed = some (some m.val, some m.val)) ∧
    (∃ (x : LaneId) (k : Fin 2) (s : State), (s.lane x).up = true ∧ ((s.lane x).target k).fixed = none) ∧
    (∃ (x : LaneId) (k : Fin 2) (s : State), (s.lane x).up = true ∧ ((s.lane x).running k).isSome = true) ∧
    (∃ (x : LaneId) (k : Fin 2) (s : State), (s.lane x).up = true ∧ ((s.lane x).running k).isSome = true) ∧
    (∃ (x : LaneId) (k : Fin 2) (s : State), (s.lane x).up = true ∧ (s.lane x).running k = none) ∧
    (∃ (x : LaneId) (k : Fin 2) (s : State), (s.lane x).up = true ∧ (s.lane x).running k = none) :=
  ⟨⟨.A, 198, (laneA [put (Reg.TS_ROUTE_EN 198) 1, put (Reg.TS_ROUTE_TASK 198) 255, put (Reg.TS_ROUTE_FLAG 198) 31]), by decide +kernel⟩,
    ⟨.A, 198, (laneA []), by decide +kernel⟩,
    ⟨.A, (laneA []), by decide +kernel⟩,
    ⟨.A, (laneA [put (Reg.TS_TASK_FLAGS_FLAGS 255) 0x80000001]), by decide +kernel⟩,
    ⟨.A, 1, (laneA [(fun L => { L with ts := { L.ts with target := ⟨{}, { irq := true }⟩ } })]), by decide +kernel⟩,
    ⟨.A, 1, (laneA []), by decide +kernel⟩,
    ⟨.A, 0, 255, (laneA [(fun L => { L with ts := { L.ts with target := ⟨{ irq := true, fixed := some (none, some 255) }, {}⟩ } })]), by decide +kernel⟩,
    ⟨.A, 0, 7, 255, (laneA [(fun L => { L with ts := { L.ts with target := ⟨{ irq := true, fixed := some (some 7, some 255) }, {}⟩ } })]), by decide +kernel⟩,
    ⟨.A, 0, 7, (laneA [(fun L => { L with ts := { L.ts with target := ⟨{ irq := true, fixed := some (some 7, some 7) }, {}⟩ } })]), by decide +kernel⟩,
    ⟨.A, 0, (laneA []), by decide +kernel⟩,
    ⟨.A, 1, (laneA [put Reg.TS_STAT_VALID1 1]), by decide +kernel⟩,
    ⟨.A, 0, (laneA [put Reg.TS_STAT_VALID0 1]), by decide +kernel⟩,
    ⟨.A, 1, (laneA []), by decide +kernel⟩,
    ⟨.A, 0, (laneA []), by decide +kernel⟩⟩

theorem test_meets_TaskCommands :
    (∃ (x : LaneId) (n : Fin 256) (s : State), (s.lane x).up = true ∧ (s.lane x).get (Reg.TS_TASK_STAT_STATE n) = 0) ∧
    (∃ (x : LaneId) (n : Fin 256) (s : State), (s.lane x).up = true ∧ (s.lane x).get (Reg.TS_TASK_STAT_STATE n) ≠ 0) ∧
    (∃ (x : LaneId) (n : Fin 256) (s : State), (s.lane x).up = true ∧ (s.lane x).get (Reg.TS_TASK_STAT_STATE n) = 4) ∧
    (∃ (x : LaneId) (n : Fin 256) (s : State), (s.lane x).up = true ∧ (s.lane x).get (Reg.TS_TASK_STAT_STATE n) ≠ 4) ∧
    (∃ (x : LaneId) (n : Fin 256) (s : State), (s.lane x).up = true ∧ (s.lane x).get (Reg.TS_TASK_STAT_STATE n) ≠ 3 ∧ (s.lane x).incoming n = false) ∧
    (∃ (x : LaneId) (n : Fin 256) (s : State), (s.lane x).up = true ∧ ((s.lane x).get (Reg.TS_TASK_STAT_STATE n) = 3 ∨ (s.lane x).incoming n = true)) :=
  ⟨⟨.A, 255, (laneA []), by decide +kernel⟩,
    ⟨.A, 255, (laneA [put (Reg.TS_TASK_STAT_STATE 255) 1]), by decide +kernel⟩,
    ⟨.A, 255, (laneA [put (Reg.TS_TASK_STAT_STATE 255) 4]), by decide +kernel⟩,
    ⟨.A, 255, (laneA [put (Reg.TS_TASK_STAT_STATE 255) 1]), by decide +kernel⟩,
    ⟨.A, 255, (laneA [put (Reg.TS_TASK_STAT_STATE 255) 2]), by decide +kernel⟩,
    ⟨.A, 255, (laneA [put (Reg.TS_TASK_STAT_STATE 255) 3, put Reg.TS_STAT_VALID0 1, put Reg.TS_STAT_RUN0 255]), by decide +kernel⟩⟩

theorem test_meets_QueuesAreFirstInFirstOut :
    (∃ (x : LaneId) (q : Fin 64) (s : State), (s.lane x).up = true ∧ (s.lane x).bit (Reg.TS_Q_CFG_EN q) = true ∧ (s.lane x).heldPush q = [] ∧ (s.lane x).queueFull q = false ∧ (s.lane x).emptyPops q = []) ∧
    (∃ (x : LaneId) (q : Fin 64) (e : HeldPush) (s : State), (s.lane x).up = true ∧ (s.lane x).bit (Reg.TS_Q_CFG_EN q) = true ∧ (s.lane x).heldPush q = [e] ∧ ((s.lane x).queue q).length + 1 < (s.lane x).queueCap q ∧ (s.lane x).emptyPops q = []) ∧
    (∃ (x : LaneId) (q : Fin 64) (s : State), (s.lane x).up = true ∧ (s.lane x).bit (Reg.TS_Q_CFG_EN q) = true ∧ (s.lane x).queueFull q = true) ∧
    (∃ (x : LaneId) (q : Fin 64) (s : State), (s.lane x).up = true ∧ (s.lane x).bit (Reg.TS_Q_CFG_EN q) = false) ∧
    (∃ (x : LaneId) (q : Fin 64) (s : State), (s.lane x).up = true ∧ (s.lane x).bit (Reg.TS_Q_CFG_EN q) = false) ∧
    (∃ (x : LaneId) (q : Fin 64) (d : Nat) (rest : List Nat) (s : State), (s.lane x).up = true ∧ (s.lane x).queue q = d :: rest) ∧
    (∃ (x : LaneId) (q : Fin 64) (s : State), (s.lane x).up = true ∧ (s.lane x).queue q = []) ∧
    (∃ (x : LaneId) (q : Fin 64) (e : HeldPush) (T : Nat) (s : State), (s.lane x).up = true ∧ (s.lane x).pushDue q = some T ∧ ((s.lane x).heldPush q).find? (·.core) = some e ∧ (s.lane x).queueFull q = true) ∧
    (∃ (x : LaneId) (q : Fin 64) (e : HeldPush) (rest : List HeldPush) (T : Nat) (s : State), (s.lane x).up = true ∧ (s.lane x).pushDue q = some T ∧ (s.lane x).heldPush q = e :: rest ∧ (s.lane x).queueFull q = false ∧ ((s.reach x T).lane x).emptyPops q = []) ∧
    (∃ (x : LaneId) (q : Fin 64) (e : HeldPush) (rest : List HeldPush) (s : State), (s.lane x).up = true ∧ (s.lane x).heldPush q = e :: rest ∧ (s.lane x).queueFull q = false ∧ (s.lane x).emptyPops q = []) ∧
    (∃ (x : LaneId) (q : Fin 64) (s : State), (s.lane x).up = true ∧ ((s.lane x).heldPush q = [] ∨ (s.lane x).queueFull q = true)) ∧
    (∃ (x : LaneId) (q : Fin 64) (r : Nat) (rest : List Nat) (s : State), (s.lane x).up = true ∧ (s.lane x).bit (Reg.TS_Q_CFG_EN q) = true ∧ (s.lane x).heldPush q = [] ∧ (s.lane x).queueFull q = false ∧ (s.lane x).emptyPops q = r :: rest) :=
  ⟨⟨.A, 63, (laneA [put (Reg.TS_Q_CFG_EN 63) 1]), by decide +kernel⟩,
    ⟨.A, 63, ⟨true, 0, 5, 9⟩, (laneA [put (Reg.TS_Q_CFG_EN 63) 1, (fun L => { L with ts := { L.ts with held := [(63, [⟨true, 0, 5, 9⟩])] } })]), by decide +kernel⟩,
    ⟨.A, 63, (laneA [put (Reg.TS_Q_CFG_EN 63) 1, (fun L => { L with ts := { L.ts with queues := [(63, List.replicate 64 1)] } })]), by decide +kernel⟩,
    ⟨.A, 63, (laneA []), by decide +kernel⟩,
    ⟨.A, 63, (laneA []), by decide +kernel⟩,
    ⟨.A, 63, 5, [6], (laneA [(fun L => { L with ts := { L.ts with queues := [(63, [5, 6])] } })]), by decide +kernel⟩,
    ⟨.A, 63, (laneA []), by decide +kernel⟩,
    ⟨.A, 63, ⟨true, 0, 5, 9⟩, 109, (laneA [put (Reg.TS_Q_CFG_EN 63) 1, (fun L => { L with ts := { L.ts with queues := [(63, List.replicate 64 1)], held := [(63, [⟨true, 0, 5, 9⟩])] } })]), by decide +kernel⟩,
    ⟨.A, 63, ⟨true, 0, 5, 9⟩, [], 109, (laneA [put (Reg.TS_Q_CFG_EN 63) 1, (fun L => { L with ts := { L.ts with held := [(63, [⟨true, 0, 5, 9⟩])] } })]), by decide +kernel⟩,
    ⟨.A, 63, ⟨true, 0, 5, 9⟩, [], (laneA [(fun L => { L with ts := { L.ts with held := [(63, [⟨true, 0, 5, 9⟩])] } }), put (Reg.TS_Q_CFG_EN 63) 1]), by decide +kernel⟩,
    ⟨.A, 63, (laneA [put (Reg.TS_Q_CFG_EN 63) 1]), by decide +kernel⟩,
    ⟨.A, 63, 0, [], (laneA [put (Reg.TS_Q_CFG_EN 63) 1, (fun L => { L with ts := { L.ts with popped := [(63, 0)] } })]), by decide +kernel⟩⟩

theorem test_meets_FlowsReleaseInOrder :
    (∃ (x : LaneId) (f : Fin 32) (iq : Nat) (d : Nat) (rest : List Nat) (s : State), (s.lane x).up = true ∧ iq = (s.lane x).get (Reg.TS_FLOW_CFG_IQ f) ∧ (s.lane x).queue iq = d :: rest ∧ (s.lane x).bit (Reg.TS_FLOW_CFG_EN f) = true ∧ ((s.lane x).flow f).length < 64) ∧
    (∃ (x : LaneId) (f : Fin 32) (s : State), (s.lane x).up = true ∧ ((s.lane x).queue ((s.lane x).get (Reg.TS_FLOW_CFG_IQ f)) = [] ∨ (s.lane x).bit (Reg.TS_FLOW_CFG_EN f) = false ∨ 64 ≤ ((s.lane x).flow f).length)) ∧
    (∃ (x : LaneId) (f : Fin 32) (v : Word) (l : List Ticket) (s : State), (s.lane x).up = true ∧ completeTicket (s.lane x).now (v.toNat / 2 ^ 24 % 2 ^ 7) (bitAt v.toNat 31, v.toNat % 2 ^ 24) ((s.lane x).flow f) = some l) ∧
    (∃ (x : LaneId) (f : Fin 32) (v : Word) (s : State), (s.lane x).up = true ∧ completeTicket (s.lane x).now (v.toNat / 2 ^ 24 % 2 ^ 7) (bitAt v.toNat 31, v.toNat % 2 ^ 24) ((s.lane x).flow f) = none) ∧
    (∃ (x : LaneId) (f : Fin 32) (id : Nat) (holder : Nat) (r : Nat) (oq : Nat) (drop : Bool) (fault : Option Nat) (rest : List Ticket) (s : State), (s.lane x).up = true ∧ (s.lane x).flow f = ⟨id, holder, some (drop, r), fault⟩ :: rest ∧ oq = (s.lane x).get (Reg.TS_FLOW_CFG_OQ f) ∧ (s.lane x).queueFull oq = false ∧ (s.lane x).bit (Reg.TS_Q_CFG_EN oq) = true ∧ (s.lane x).emptyPops oq = []) ∧
    (∃ (x : LaneId) (f : Fin 32) (k : Ticket) (rest : List Ticket) (s : State), (s.lane x).up = true ∧ (s.lane x).flow f = k :: rest ∧ k.done.isSome = true ∧ (s.lane x).queueFull ((s.lane x).get (Reg.TS_FLOW_CFG_OQ f)) = true) ∧
    (∃ (x : LaneId) (f : Fin 32) (s : State), (s.lane x).up = true ∧ headDone ((s.lane x).flow f) = false) :=
  ⟨⟨.A, 31, 0, 5, [], (laneA [put (Reg.TS_FLOW_CFG_EN 31) 1, (fun L => { L with ts := { L.ts with queues := [(0, [5])] } })]), by decide +kernel⟩,
    ⟨.A, 31, (laneA [put (Reg.TS_FLOW_CFG_EN 31) 1]), by decide +kernel⟩,
    ⟨.A, 31, 0x03000009, [⟨3, 7, some (false, 9), none⟩], (laneA [(fun L => { L with ts := { L.ts with flows := [(31, [⟨3, 7, none, none⟩])] } })]), by decide +kernel⟩,
    ⟨.A, 31, 0x03000009, (laneA []), by decide +kernel⟩,
    ⟨.A, 31, 3, 7, 9, 0, false, none, [], (laneA [put (Reg.TS_Q_CFG_EN 0) 1, (fun L => { L with ts := { L.ts with flows := [(31, [⟨3, 7, some (false, 9), none⟩])] } })]), by decide +kernel⟩,
    ⟨.A, 31, ⟨3, 7, some (false, 9), none⟩, [], (laneA [put (Reg.TS_Q_CFG_EN 0) 1, (fun L => { L with ts := { L.ts with flows := [(31, [⟨3, 7, some (false, 9), none⟩])], queues := [(0, List.replicate 64 1)] } })]), by decide +kernel⟩,
    ⟨.A, 31, (laneA []), by decide +kernel⟩⟩

theorem test_meets_TalliesGrantsAndWeights :
    (∃ (x : LaneId) (throughout : List (Nat × Nat)) (s : State), (s.lane x).up = true ∧ (s.lane x).underServed throughout = []) ∧
    (∃ (x : LaneId) (throughout : List (Nat × Nat)) (r : Nat) (s : State), (s.lane x).up = true ∧ (s.lane x).underServed throughout = [r]) ∧
    (∃ (x : LaneId) (q : IxReq) (v : Word) (s : State), (s.lane x).up = true ∧ 2 ≤ q.r.val ∧ q.write = true ∧ q.data = [v] ∧ 0x20000000 ≤ q.addr.toNat ∧ q.addr.toNat < 0x20800000) ∧
    (∃ (x : LaneId) (p : IxReq) (q : IxReq) (s : State), (s.lane x).up = true ∧ 2 ≤ p.r.val ∧ 2 ≤ q.r.val ∧ p.write = false ∧ q.write = false ∧ 0x20000000 ≤ p.addr.toNat ∧ p.addr.toNat < 0x20800000 ∧ 0x20000000 ≤ q.addr.toNat ∧ q.addr.toNat < 0x20800000 ∧ (s.lane x).get (Reg.IX_TALLY_TALLY 0 q.r) < (s.lane x).get (Reg.IX_TALLY_TALLY 0 p.r)) ∧
    (∃ (x : LaneId) (q : IxReq) (s : State), (s.lane x).up = true ∧ 2 ≤ q.r.val ∧ placeOf q.addr.toNat = .nothing) ∧
    (∃ (x : LaneId) (r : Fin 11) (v : Word) (s : State), (s.lane x).up = true ∧ r.val ≠ 1 ∧ (s.lane x).bit Reg.IX_CTRL_LOCK = false ∧ (s.lane x).weightSum - (s.lane x).get (Reg.IX_WEIGHT_W r) + v.toNat % 256 ≤ 240) ∧
    (∃ (x : LaneId) (r : Fin 11) (v : Word) (s : State), (s.lane x).up = true ∧ r.val ≠ 1 ∧ (s.lane x).bit Reg.IX_CTRL_LOCK = false ∧ 240 < (s.lane x).weightSum - (s.lane x).get (Reg.IX_WEIGHT_W r) + v.toNat % 256) ∧
    (∃ (x : LaneId) (r : Fin 11) (v : Word) (s : State), (s.lane x).up = true ∧ r.val ≠ 1 ∧ (s.lane x).bit Reg.IX_CTRL_LOCK = true ∧ v.toNat % 256 ≠ (s.lane x).get (Reg.IX_WEIGHT_W r)) ∧
    (∃ (x : LaneId) (s : State), (s.lane x).up = true) :=
  ⟨⟨.A, [], (laneA []), by decide +kernel⟩,
    ⟨.A, [(0, 10)], 10, (laneA [(fun L => { L with ix := { L.ix with given := [(10, 3)] } })]), by decide +kernel⟩,
    ⟨.A, ixWrite, 5, (laneA [put (Reg.IX_TALLY_TALLY 0 2) 8]), by decide +kernel⟩,
    ⟨.A, { ixWrite with write := false, r := 3 }, { ixWrite with write := false }, (laneA [put (Reg.IX_TALLY_TALLY 0 3) 8]), by decide +kernel⟩,
    ⟨.A, { ixWrite with addr := 0x50000000 }, (laneA []), by decide +kernel⟩,
    ⟨.A, 10, 0, (laneA []), by decide +kernel⟩,
    ⟨.A, 10, 255, (laneA []), by decide +kernel⟩,
    ⟨.A, 10, 0, (laneA [put Reg.IX_CTRL_LOCK 1, put (Reg.IX_WEIGHT_W 10) 9]), by decide +kernel⟩,
    ⟨.A, (laneA []), by decide +kernel⟩⟩

theorem test_meets_DomainsFollowTheirGrandmaster :
    (∃ (x : LaneId) (d : Fin 2) (port : Fin 2) (msg : AnnounceMsg) (s : State), (s.lane x).up = true ∧ (s.lane x).bit (Reg.TB_DOM_CFG_EN d) = true ∧ ((s.lane x).bit (Reg.TB_DOM_CFG_EXT d) = false ∨ (s.lane x).get (Reg.TB_DOM_CFG_SLAVE d) = port) ∧ (msg.path.map BitVec.toNat).contains (s.lane x).clockId = false ∧ msg.path.length ≤ 16) ∧
    (∃ (x : LaneId) (d : Fin 2) (s : State), (s.lane x).up = true ∧ (s.lane x).bit (Reg.TB_DOM_CFG_EN d) = false) ∧
    (∃ (x : LaneId) (d : Fin 2) (port : Fin 2) (msg : SyncMsg) (s : State), (s.lane x).up = true ∧ (s.lane x).bit (Reg.TB_DOM_CFG_EN d) = true ∧ (s.lane x).slavePort d = port ∧ (s.lane x).get (Reg.TB_DOM_STAT_STATE d) ≠ 0 ∧ msg.twoStep = true) ∧
    (∃ (x : LaneId) (d : Fin 2) (port : Fin 2) (msg : SyncMsg) (s : State), (s.lane x).up = true ∧ (s.lane x).bit (Reg.TB_DOM_CFG_EN d) = true ∧ (s.lane x).slavePort d = port ∧ (s.lane x).get (Reg.TB_DOM_STAT_STATE d) ≠ 0 ∧ msg.twoStep = false ∧ ((s.lane x).bit Reg.TB_STAT_VALID = false ∨ ((s.lane x).bit Reg.TB_STAT_HOLD = false ∧ (s.lane x).synced ((s.lane x).get Reg.TB_STAT_SRC) = true ∧ (s.lane x).tb.resumedAt ≠ some (s.lane x).now))) ∧
    (∃ (x : LaneId) (d : Fin 2) (port : Fin 2) (s : State), (s.lane x).up = true ∧ ((s.lane x).bit (Reg.TB_DOM_CFG_EN d) = false ∨ (s.lane x).slavePort d ≠ port ∨ (s.lane x).get (Reg.TB_DOM_STAT_STATE d) = 0)) ∧
    (∃ (x : LaneId) (d : Fin 2) (w : SyncMsg) (msg : SyncMsg) (s : State), (s.lane x).up = true ∧ ((s.lane x).dom d).waiting = some w ∧ w.seq = msg.seq ∧ ((s.lane x).followUpDue d).any (fun T => decide (T < (s.lane x).now)) = false ∧ ((s.lane x).bit Reg.TB_STAT_VALID = false ∨ ((s.lane x).bit Reg.TB_STAT_HOLD = false ∧ (s.lane x).synced ((s.lane x).get Reg.TB_STAT_SRC) = true ∧ (s.lane x).tb.resumedAt ≠ some (s.lane x).now))) ∧
    (∃ (x : LaneId) (d : Fin 2) (msg : SyncMsg) (s : State), (s.lane x).up = true ∧ (((s.lane x).dom d).waiting.all fun w => decide (w.seq ≠ msg.seq)) = true ∧ ((s.lane x).followUpDue d).any (fun T => decide (T < (s.lane x).now)) = false) ∧
    (∃ (x : LaneId) (d : Fin 2) (T : Nat) (s : State), (s.lane x).up = true ∧ (s.lane x).followUpDue d = some T) ∧
    (∃ (x : LaneId) (d : Fin 2) (T : Nat) (s : State), (s.lane x).up = true ∧ (s.lane x).receiptDue d = some T ∧ (s.lane x).bit Reg.TB_STAT_VALID = false ∧ (s.lane x).bit (Reg.FM_REACT_B 122) = false) ∧
    (∃ (x : LaneId) (d : Fin 2) (T : Nat) (s : State), (s.lane x).up = true ∧ (s.lane x).receiptDue d = some T ∧ (s.lane x).bit Reg.TB_STAT_VALID = true ∧ (s.lane x).bit Reg.TB_STAT_HOLD = false ∧ (s.lane x).get Reg.TB_STAT_SRC = d ∧ (s.lane x).synced (1 - d) = false ∧ (s.lane x).bit (Reg.FM_REACT_B 122) = false ∧ (s.lane x).bit (Reg.FM_REACT_B 123) = false) ∧
    (∃ (x : LaneId) (d : Fin 2) (s : State), (s.lane x).up = true ∧ (s.lane x).get (Reg.TB_DOM_STAT_STATE d) = 0) ∧
    (∃ (x : LaneId) (d : Fin 2) (port : Fin 2) (tTx : Nat) (m : SyncMsg) (s : State), (s.lane x).up = true ∧ ((s.lane x).dom d).relay = some m ∧ (s.lane x).mayRelay d port tTx = true ∧ (s.lane x).bit (linkFld port) = true ∧ ((s.reach x (tTx / 655360)).lane x).startTick port syncLen (tTx / 655360) = tTx / 655360) ∧
    (∃ (x : LaneId) (d : Fin 2) (port : Fin 2) (tTx : Nat) (s : State), (s.lane x).up = true ∧ (((s.lane x).dom d).relay = none ∨ (s.lane x).mayRelay d port tTx = false ∨ (s.lane x).bit (linkFld port) = false ∨ ((s.reach x (tTx / 655360)).lane x).startTick port syncLen (tTx / 655360) ≠ tTx / 655360)) ∧
    (∃ (x : LaneId) (s : State), (s.lane x).up = true) ∧
    (∃ (x : LaneId) (port : Fin 2) (s : State), (s.lane x).up = true ∧ ((s.lane x).port port).reqOut = true) ∧
    (∃ (x : LaneId) (port : Fin 2) (t1 : Nat) (s : State), (s.lane x).up = true ∧ ((s.lane x).port port).reqOut = true ∧ ((s.lane x).port port).t1 = some t1) ∧
    (∃ (x : LaneId) (s : State), (s.lane x).up = true) ∧
    (∃ (x : LaneId) (d : Fin 2) (port : Fin 2) (msg : AnnounceMsg) (s : State), (s.lane x).up = true ∧ ((msg.path.map BitVec.toNat).contains (s.lane x).clockId = true ∨ ((s.lane x).bit (Reg.TB_DOM_CFG_EXT d) = true ∧ (s.lane x).get (Reg.TB_DOM_CFG_SLAVE d) ≠ port))) ∧
    (∃ (x : LaneId) (d : Fin 2) (port : Fin 2) (msg : AnnounceMsg) (s : State), (s.lane x).up = true ∧ (s.lane x).bit (Reg.TB_DOM_CFG_EN d) = true ∧ ((s.lane x).bit (Reg.TB_DOM_CFG_EXT d) = false ∨ (s.lane x).get (Reg.TB_DOM_CFG_SLAVE d) = port) ∧ (msg.path.map BitVec.toNat).contains (s.lane x).clockId = false ∧ 16 < msg.path.length) ∧
    (∃ (x : LaneId) (d : Fin 2) (T : Nat) (s : State), (s.lane x).up = true ∧ (s.lane x).followUpDue d = some T ∧ T < (s.lane x).now) ∧
    (∃ (x : LaneId) (d : Fin 2) (T : Nat) (s : State), (s.lane x).up = true ∧ (s.lane x).receiptDue d = some T ∧ (s.lane x).bit Reg.TB_STAT_VALID = true ∧ (s.lane x).bit Reg.TB_STAT_HOLD = false ∧ (s.lane x).get Reg.TB_STAT_SRC = d ∧ (s.lane x).synced (1 - d) = true ∧ (s.lane x).bit (Reg.FM_REACT_B 122) = false ∧ (s.lane x).bit (Reg.FM_REACT_B 124) = false) :=
  ⟨⟨.A, 1, 1, ⟨300, [], 0⟩, (laneA [put (Reg.TB_DOM_CFG_EN 1) 1]), by decide +kernel⟩,
    ⟨.A, 1, (laneA [put (Reg.TB_DOM_CFG_EN 1) 0]), by decide +kernel⟩,
    ⟨.A, 1, 0, (syncMsg true), (laneA [put (Reg.TB_DOM_CFG_EN 1) 1, put (Reg.TB_DOM_STAT_STATE 1) 1]), by decide +kernel⟩,
    ⟨.A, 1, 0, (syncMsg false), (laneA [put (Reg.TB_DOM_CFG_EN 1) 1, put (Reg.TB_DOM_STAT_STATE 1) 1, put Reg.TB_CTRL_PRI 1]), by decide +kernel⟩,
    ⟨.A, 1, 0, (laneA []), by decide +kernel⟩,
    ⟨.A, 1, (syncMsg true), (syncMsg false), (laneA [(fun L => { L with tb := { L.tb with dom := ⟨{}, { waiting := some (syncMsg true) }⟩ } })]), by decide +kernel⟩,
    ⟨.A, 1, (syncMsg false), (laneA []), by decide +kernel⟩,
    ⟨.A, 1, 12500001, (laneA [(fun L => { L with tb := { L.tb with dom := ⟨{}, { waiting := some (syncMsg true) }⟩ } })]), by decide +kernel⟩,
    ⟨.A, 1, 0, (laneA [put (Reg.TB_DOM_STAT_STATE 1) 2]), by decide +kernel⟩,
    ⟨.A, 1, 0, (laneA [put (Reg.TB_DOM_STAT_STATE 1) 2, put Reg.TB_STAT_VALID 1, put Reg.TB_STAT_SRC 1]), by decide +kernel⟩,
    ⟨.A, 1, (laneA []), by decide +kernel⟩,
    ⟨.A, 1, 1, 7, (syncMsg false), (laneA [put Reg.VF_STAT_LINK1 1, (fun L => { L with tb := { L.tb with dom := ⟨{}, { relay := some (syncMsg false) }⟩ } })]), by decide +kernel⟩,
    ⟨.A, 1, 1, 7, (laneA []), by decide +kernel⟩,
    ⟨.A, (laneA [(fun L => { L with tb := { L.tb with port := ⟨{}, { reqOut := true }⟩ } })]), by decide +kernel⟩,
    ⟨.A, 1, (laneA [(fun L => { L with tb := { L.tb with port := ⟨{}, { reqOut := true }⟩ } })]), by decide +kernel⟩,
    ⟨.A, 1, 7, (laneA [(fun L => { L with tb := { L.tb with port := ⟨{}, { reqOut := true, t1 := some 7 }⟩ } })]), by decide +kernel⟩,
    ⟨.A, (laneA []), by decide +kernel⟩,
    ⟨.A, 1, 1, ⟨0, [0xFFFE000000], 0⟩, (laneA [put (Reg.TB_DOM_CFG_EN 1) 1]), by decide +kernel⟩,
    ⟨.A, 1, 1, ⟨0, List.replicate 17 1, 0⟩, (laneA [put (Reg.TB_DOM_CFG_EN 1) 1]), by decide +kernel⟩,
    ⟨.A, 1, 12500001, (laneA [(fun L => { L with tb := { L.tb with dom := ⟨{}, { waiting := some (syncMsg true) }⟩, local_ := 10000000000000 } })]), by decide +kernel⟩,
    ⟨.A, 1, 0, (laneA [put (Reg.TB_DOM_STAT_STATE 0) 2, put (Reg.TB_DOM_STAT_STATE 1) 2, put Reg.TB_STAT_VALID 1, put Reg.TB_STAT_SRC 1]), by decide +kernel⟩⟩

theorem test_meets_VehicleTimeComparatorsAndReads :
    (∃ (x : LaneId) (T : Nat) (s : State), (s.lane x).up = true ∧ (s.lane x).slewDue = some T) ∧
    (∃ (x : LaneId) (T : Nat) (s : State), (s.lane x).up = true ∧ (s.lane x).revertDue = some T ∧ (((s.reach x T).lane x).receiptDue ((s.lane x).get Reg.TB_CTRL_PRI)).any (fun u => decide (u ≤ ((s.reach x T).lane x).now)) = false) ∧
    (∃ (x : LaneId) (c : Fin 16) (T : Nat) (s : State), (s.lane x).up = true ∧ (s.lane x).cmpDue c = some T) ∧
    (∃ (x : LaneId) (b : Nat) (s : State), (s.lane x).up = true ∧ b < 5) ∧
    (∃ (x : LaneId) (base : Fin 8) (s : State), (s.lane x).up = true ∧ base.val < 5) ∧
    (∃ (x : LaneId) (base : Fin 8) (s : State), (s.lane x).up = true ∧ 5 ≤ base.val) ∧
    (∃ (x : LaneId) (d : Nat) (s : State), (s.lane x).up = true ∧ (s.lane x).bit Reg.VF_CTRL_EN = false ∧ (s.lane x).freshFollow = some d) ∧
    (∃ (x : LaneId) (s : State), (s.lane x).up = true ∧ (s.lane x).bit Reg.VF_CTRL_EN = true) ∧
    (∃ (x : LaneId) (s : State), (s.lane x).up = true ∧ (s.lane x).bit Reg.VF_CTRL_EN = false ∧ (∀ d, d < 2 → (s.lane x).synced d = false)) ∧
    (∃ (x : LaneId) (T : Nat) (s : State), (s.lane x).up = true ∧ (s.lane x).revertDue = some T ∧ (((s.reach x T).lane x).receiptDue ((s.lane x).get Reg.TB_CTRL_PRI)).any (fun u => decide (u ≤ ((s.reach x T).lane x).now)) = true) :=
  ⟨⟨.A, 2000001, (laneA [put Reg.TB_STAT_SLEWING 1, (fun L => { L with tb := { L.tb with veh := ⟨0, 65536000, 0⟩ } })]), by decide +kernel⟩,
    ⟨.A, 1000000000, (laneA [put Reg.TB_CTRL_REVERT 1, put Reg.TB_STAT_VALID 1, put Reg.TB_CTRL_PRI 1, put (Reg.TB_DOM_STAT_STATE 1) 2, (fun L => { L with tb := { L.tb with dom := ⟨{}, { annTicks := 1000000000000, syncAt := 10000000000000 }⟩ } })]), by decide +kernel⟩,
    ⟨.A, 15, 77, (laneA [put (Reg.TB_CMP_CFG_EN 15) 1, put (Reg.TB_CMP_LO_TIME 15) 77]), by decide +kernel⟩,
    ⟨.A, 4, (laneA []), by decide +kernel⟩,
    ⟨.A, 4, (laneA [(fun L => { L with tb := { L.tb with local_ := 4294967301 } })]), by decide +kernel⟩,
    ⟨.A, 5, (laneA [(fun L => { L with tb := { L.tb with local_ := 4294967301 } })]), by decide +kernel⟩,
    ⟨.A, 1, (laneA [put (Reg.TB_DOM_STAT_STATE 1) 2]), by decide +kernel⟩,
    ⟨.A, (laneA [put Reg.VF_CTRL_EN 1]), by decide +kernel⟩,
    ⟨.A, (laneA [put Reg.TB_STAT_VALID 1]), by decide +kernel⟩,
    ⟨.A, 1000000000, (laneA [put Reg.TB_CTRL_REVERT 1, put Reg.TB_STAT_VALID 1, put Reg.TB_CTRL_PRI 1, put (Reg.TB_DOM_STAT_STATE 1) 2]), by decide +kernel⟩⟩

theorem test_meets_MonitoredStopAndTorqueOff :
    (∃ (x : LaneId) (s : State), (s.lane x).up = true ∧ (s.lane x).permits .stop = false) ∧
    (∃ (x : LaneId) (s : State), (s.lane x).up = true ∧ (s.lane x).permits .stop = true ∧ (s.lane x).stopping = false) ∧
    (∃ (x : LaneId) (s : State), (s.lane x).up = true ∧ (s.lane x).permits .stop = true ∧ (s.lane x).stopping = true) ∧
    (∃ (x : LaneId) (b : Nat) (s : State), (s.lane x).up = true ∧ (s.lane x).permits .toff = true ∧ (s.lane x).stopping = false ∧ b < 2) ∧
    (∃ (x : LaneId) (b : Nat) (s : State), (s.lane x).up = true ∧ (s.lane x).permits .toff = true ∧ (s.lane x).stopping = true ∧ b < 2) ∧
    (∃ (x : LaneId) (s : State), (s.lane x).up = true ∧ (s.lane x).permits .toff = false) ∧
    (∃ (x : LaneId) (s : State), (s.lane x).up = true ∧ (s.lane x).noteHeld.releaseCode = 0) ∧
    (∃ (x : LaneId) (s : State), (s.lane x).up = true ∧ (s.lane x).releaseMode = false) ∧
    (∃ (x : LaneId) (s : State), (s.lane x).up = true ∧ (s.lane x).noteHeld.stopAbortCode = 0) ∧
    (∃ (x : LaneId) (s : State), (s.lane x).up = true ∧ (s.lane x).noteHeld.stopAbortCode ≠ 0) ∧
    (∃ (x : LaneId) (T : Nat) (M : Lane) (s : State), (s.lane x).awake = true ∧ (s.lane x).graceDue = some T ∧ M = ((s.reach x T).lane x).noteHeld.measure.watchStop ∧ M.graceDue.any (· ≤ M.now) = false) ∧
    (∃ (x : LaneId) (T : Nat) (M : Lane) (s : State), (s.lane x).awake = true ∧ (s.lane x).graceDue = some T ∧ M = ((s.reach x T).lane x).noteHeld.measure.watchStop ∧ M.graceDue.any (· ≤ M.now) = true) ∧
    (∃ (x : LaneId) (T : Nat) (M : Lane) (s : State), (s.lane x).awake = true ∧ (s.lane x).holdDue = some T ∧ M = ((s.reach x T).lane x).noteHeld.measure.watchStop ∧ M.holdDue.any (· ≤ M.now) = false) ∧
    (∃ (x : LaneId) (T : Nat) (M : Lane) (s : State), (s.lane x).awake = true ∧ (s.lane x).holdDue = some T ∧ M = ((s.reach x T).lane x).noteHeld.measure.watchStop ∧ M.holdDue.any (· ≤ M.now) = true) ∧
    (∃ (x : LaneId) (s : State), (s.lane x).up = true ∧ (s.lane x).releaseMode = true ∧ (s.lane x).noteHeld.assertsNow = true) :=
  ⟨⟨.A, (laneA []), by decide +kernel⟩,
    ⟨.A, (laneA [put Reg.SYS_MODE_MODE 6]), by decide +kernel⟩,
    ⟨.A, (laneA [put Reg.SYS_MODE_MODE 6, put Reg.SM_STOP_STAT_STATE 1]), by decide +kernel⟩,
    ⟨.A, 1, (laneA [put Reg.SYS_MODE_MODE 7]), by decide +kernel⟩,
    ⟨.A, 1, (laneA [put Reg.SYS_MODE_MODE 7, put Reg.SM_STOP_STAT_STATE 1]), by decide +kernel⟩,
    ⟨.A, (laneA []), by decide +kernel⟩,
    ⟨.A, (laneA [put Reg.SYS_MODE_MODE 7, put Reg.SM_STAT_TOFF 1]), by decide +kernel⟩,
    ⟨.A, (laneA []), by decide +kernel⟩,
    ⟨.A, (laneA [put Reg.SM_STOP_STAT_STATE 1]), by decide +kernel⟩,
    ⟨.A, (laneA [put Reg.SM_STOP_STAT_STATE 3]), by decide +kernel⟩,
    ⟨.A, 500000, _, (laneA [put Reg.SM_STOP_STAT_STATE 1, (fun L => { L with sm := { L.sm with act := ⟨{ exceeded := some 0 }, {}⟩ } })]), by decide +kernel, by decide +kernel, rfl, by decide +kernel⟩,
    ⟨.A, 500000, _, (laneA [put Reg.SM_STOP_STAT_STATE 1, (fun L => { L with sm := { L.sm with act := ⟨{ exceeded := some 0, mag := 5000, last := some 0 }, {}⟩ } })]), by decide +kernel, by decide +kernel, rfl, by decide +kernel⟩,
    ⟨.A, 0, _, (laneA [put Reg.SM_STOP_STAT_STATE 1, (fun L => { L with sm := { L.sm with slow := some 0, act := ⟨{ mag := 50000, last := some 0 }, {}⟩ } }), put Reg.SM_STOP_CFG2_HOLD 0]), by decide +kernel, by decide +kernel, rfl, by decide +kernel⟩,
    ⟨.A, 5000000, _, (laneA [put Reg.SM_STOP_STAT_STATE 1, (fun L => { L with sm := { L.sm with slow := some 0 } })]), by decide +kernel, by decide +kernel, rfl, by decide +kernel⟩,
    ⟨.A, (laneA [put Reg.SYS_MODE_MODE 7, (fun L => { L with sm := { L.sm with toffAt := some 0 } })]), by decide +kernel⟩⟩

theorem test_meets_TheDeputyMeasuresAndLimits :
    (∃ (x : LaneId) (b : Fin 2) (code : Fin 8) (held : Nat) (k : Nat × Bool) (s : State), (s.lane x).awake = true ∧ 50 ≤ held ∧ ((s.lane x).smAct b).known = true ∧ legalEdge (s.lane x).me ((s.lane x).smAct b).code code = some k ∧ (∀ c, c < 2 → ((s.lane x).smAct c).fused = false ∧ ((s.lane x).af.act.get c).ownLost = false)) ∧
    (∃ (x : LaneId) (b : Fin 2) (code : Fin 8) (held : Nat) (s : State), (s.lane x).awake = true ∧ 50 ≤ held ∧ (((s.lane x).smAct b).known = false ∨ legalEdge (s.lane x).me ((s.lane x).smAct b).code code = none) ∧ (∀ c, c < 2 → ((s.lane x).smAct c).fused = false ∧ ((s.lane x).af.act.get c).ownLost = false)) ∧
    (∃ (x : LaneId) (held : Nat) (s : State), (s.lane x).awake = true ∧ held < 50) ∧
    (∃ (x : LaneId) (b : Fin 2) (T : Nat) (M : Lane) (s : State), (s.lane x).awake = true ∧ ((s.lane x).smAct b).mag ≠ 0 ∧ ((s.lane x).smAct b).last = some T ∧ M = ((s.reach x (T + 10000000)).lane x).noteHeld) ∧
    (∃ (x : LaneId) (b : Fin 2) (T : Nat) (M : Lane) (s : State), (s.lane x).awake = true ∧ (s.lane x).rateReleaseDue b = some T ∧ M = ((s.reach x T).lane x).noteHeld) :=
  ⟨⟨.A, 1, 3, 50, (6, false), (laneA [(fun L => { L with sm := { L.sm with act := ⟨{}, { known := true, code := 1 }⟩ } })]), by decide +kernel⟩,
    ⟨.A, 1, 6, 50, (laneA [(fun L => { L with sm := { L.sm with act := ⟨{}, { known := true, code := 1 }⟩ } })]), by decide +kernel⟩,
    ⟨.A, 0, (laneA [(fun L => { L with sm := { L.sm with act := ⟨{}, { known := true, code := 1 }⟩ } })]), by decide +kernel⟩,
    ⟨.A, 1, 0, _, (laneA [(fun L => { L with sm := { L.sm with act := ⟨{}, { known := true, code := 1, mag := 5, last := some 0 }⟩ } })]), by decide +kernel, by decide +kernel, by decide +kernel, rfl⟩,
    ⟨.A, 1, 17779, _, (laneA [put Reg.SM_STAT_VIOL 32, (fun L => { L with sm := { L.sm with act := ⟨{}, { known := true, code := 1, mag := 5, last := some 0 }⟩ } }), put Reg.SYS_MODE_MODE 2, put (Reg.SM_RATE_EN 1) 1]), by decide +kernel, by decide +kernel, rfl⟩⟩

theorem test_meets_SafetyInputsAndTestPulses :
    (∃ (x : LaneId) (i : Nat) (T : Nat) (s : State), (s.lane x).awake = true ∧ (s.lane x).sampleDue = some T ∧ ((s.reach x T).lane x).blanked = false ∧ i < 8) ∧
    (∃ (x : LaneId) (i : Nat) (T : Nat) (s : State), (s.lane x).awake = true ∧ (s.lane x).sampleDue = some T ∧ ((s.reach x T).lane x).blanked = true ∧ i < 8) ∧
    (∃ (x : LaneId) (i : Fin 8) (T : Nat) (s : State), (s.lane x).awake = true ∧ (s.lane x).filterDue i = some T) ∧
    (∃ (x : LaneId) (n : Fin 4) (T : Nat) (s : State), (s.lane x).awake = true ∧ (s.lane x).pulseDue n = some T) ∧
    (∃ (x : LaneId) (n : Fin 4) (i : Nat) (T : Nat) (s : State), (s.lane x).awake = true ∧ (s.lane x).pulseEndDue n = some T ∧ i < 8 ∧ (s.lane x).bit (Reg.SM_SI_CFG_EN i) = true ∧ (s.lane x).get (Reg.SM_SI_CFG_TP i) ≠ 0 ∧ (s.lane x).inputFails ((s.lane x).levelsBefore T) i n = true) ∧
    (∃ (x : LaneId) (n : Fin 4) (i : Nat) (T : Nat) (s : State), (s.lane x).awake = true ∧ (s.lane x).pulseEndDue n = some T ∧ i < 8 ∧ (s.lane x).bit (Reg.SM_SI_CFG_EN i) = true ∧ (s.lane x).get (Reg.SM_SI_CFG_TP i) ≠ 0 ∧ (s.lane x).inputFails ((s.lane x).levelsBefore T) i n = false) ∧
    (∃ (x : LaneId) (i : Nat) (s : State), (s.lane x).up = true ∧ i < 8) :=
  ⟨⟨.A, 7, 0, (laneA []), by decide +kernel⟩,
    ⟨.A, 7, 0, (laneA [put Reg.SM_TP_CFG_EN 1, (fun L => { L with sm := { L.sm with pulses := [(0, some ⟨0, 10, false⟩)] } })]), by decide +kernel⟩,
    ⟨.A, 7, 500000, (laneA [put (Reg.SM_SI_CFG_EN 7) 1, (fun L => { L with sm := { L.sm with inp := [(7, { level := true, since := some 0 })] } })]), by decide +kernel⟩,
    ⟨.A, 3, 7500000, (laneA [put Reg.SM_TP_CFG_EN 8, put Reg.SM_TP_CFG_PERIOD 100]), by decide +kernel⟩,
    ⟨.A, 3, 7, 100, (laneA [put (Reg.SM_SI_CFG_EN 7) 1, put (Reg.SM_SI_CFG_TP 7) 4, (fun L => { L with sm := { L.sm with raw := 128, pulses := [(3, some ⟨0, 100, false⟩)], inp := [(7, { before := true })] } })]), by decide +kernel⟩,
    ⟨.A, 3, 7, 100, (laneA [put (Reg.SM_SI_CFG_EN 7) 1, put (Reg.SM_SI_CFG_TP 7) 4, (fun L => { L with sm := { L.sm with raw := 0, pulses := [(3, some ⟨0, 100, false⟩)], inp := [(7, { before := true })] } })]), by decide +kernel⟩,
    ⟨.A, 7, (laneA [put Reg.SM_SI_STAT_FAULT 0x80, (fun L => { L with sm := { L.sm with inp := [(7, { passed := 2 })] } })]), by decide +kernel⟩⟩

theorem test_meets_SafetyUnits :
    (∃ (x : LaneId) (v : Word) (c : Nat) (len : Nat) (s : State), (s.lane x).up = true ∧ c = Reg.SX_SEND_CONN.of v.toNat ∧ len = Reg.SX_SEND_LEN.of v.toNat ∧ (s.lane x).isProducer c = true ∧ len ≤ 48) ∧
    (∃ (x : LaneId) (v : Word) (s : State), (s.lane x).up = true ∧ ((s.lane x).isProducer (Reg.SX_SEND_CONN.of v.toNat) = false ∨ 48 < Reg.SX_SEND_LEN.of v.toNat)) ∧
    (∃ (x : LaneId) (b : Byte) (u : List Byte) (c : Nat) (s : State), (s.lane x).up = true ∧ c = b.toNat % 64 ∧ (s.lane x).isConsumer c = true ∧ u.length < 11) ∧
    (∃ (x : LaneId) (b : Byte) (l : Byte) (u : List Byte) (c : Nat) (s : State), (s.lane x).up = true ∧ c = b.toNat % 64 ∧ (s.lane x).isConsumer c = true ∧ ofBe (slice (b :: l :: u) (8 + l.toNat) 4) ≠ (s.lane x).unitCheck c ((b :: l :: u).take (8 + l.toNat))) ∧
    (∃ (x : LaneId) (route : Fin 3) (u : List Byte) (c : Nat) (len : Nat) (seq : Nat) (ts : Nat) (d : Nat) (age : Int) (s : State), (s.lane x).up = true ∧ c = ofBe (slice u 0 1) % 64 ∧ (s.lane x).isConsumer c = true ∧ u.length = 12 + len ∧ ofBe (slice u 0 1) / 64 = 1 ∧ len = ofBe (slice u 1 1) ∧ len ≤ 48 ∧ seq = ofBe (slice u 2 2) ∧ ts = ofBe (slice u 4 4) ∧ ((s.lane x).get (Reg.SX_CONN_CFG_ROUTE c) = 3 ∨ (s.lane x).get (Reg.SX_CONN_CFG_ROUTE c) = route) ∧ ofBe (slice u (8 + len) 4) = (s.lane x).unitCheck c (u.take (8 + len)) ∧ (s.lane x).bit Reg.TB_STAT_VALID = true ∧ age = sgn 32 (uns 32 (((s.lane x).vehUs : Int) - ts)) ∧ -((10 * (s.lane x).get (Reg.SX_CONN_CFG_SKEW c) : Nat) : Int) ≤ age ∧ age ≤ (250 * (s.lane x).get (Reg.SX_CONN_CFG_EXPECT c) : Nat) ∧ d = (seq + 2 ^ 16 - (s.lane x).get (Reg.SX_CONN_STAT_LAST_SEQ c)) % 2 ^ 16 ∧ d ≠ 0 ∧ ((1 ≤ d ∧ d ≤ (s.lane x).get (Reg.SX_CONN_CFG_SEQWIN c)) ∨ (s.lane x).sxState c = 1 ∨ (s.lane x).sxState c = 3) ∧ ((s.lane x).bit Reg.HL_MOTION_CFG_EN = false ∨ (s.lane x).motionConn ≠ c)) ∧
    (∃ (x : LaneId) (b : Byte) (s : State), (s.lane x).up = true ∧ (s.lane x).isConsumer (b.toNat % 64) = false) ∧
    (∃ (x : LaneId) (c : Fin 64) (T : Nat) (s : State), (s.lane x).up = true ∧ (s.lane x).expiryDue c = some T ∧ (s.lane x).bit (Reg.FM_REACT_B 136) = false ∧ (s.lane x).bit Reg.HL_MOTION_CFG_EN = false) ∧
    (∃ (x : LaneId) (c : Fin 64) (k : Nat) (T : Nat) (s : State), (s.lane x).up = true ∧ (s.lane x).expiryDue c = some T ∧ (s.lane x).bit (Reg.FM_REACT_B 136) = false ∧ (s.lane x).bit Reg.HL_MOTION_CFG_EN = true ∧ (s.lane x).motionConn = c ∧ k = (if (s.lane x).bit Reg.HL_STAT_SELECT then (s.lane x).get Reg.HL_MOTION_CFG_PCONN else (s.lane x).get Reg.HL_MOTION_CFG_SCONN) ∧ k ≠ c.val ∧ (s.lane x).sxState k = 2 ∧ (s.lane x).bit (Reg.FM_REACT_B 163) = false) ∧
    (∃ (x : LaneId) (route : Fin 3) (u : List Byte) (c : Nat) (len : Nat) (age : Int) (s : State), (s.lane x).up = true ∧ c = ofBe (slice u 0 1) % 64 ∧ (s.lane x).isConsumer c = true ∧ u.length = 12 + len ∧ ofBe (slice u 0 1) / 64 = 1 ∧ len = ofBe (slice u 1 1) ∧ len ≤ 48 ∧ ((s.lane x).get (Reg.SX_CONN_CFG_ROUTE c) = 3 ∨ (s.lane x).get (Reg.SX_CONN_CFG_ROUTE c) = route) ∧ ofBe (slice u (8 + len) 4) = (s.lane x).unitCheck c (u.take (8 + len)) ∧ (s.lane x).bit Reg.TB_STAT_VALID = true ∧ age = sgn 32 (uns 32 (((s.lane x).vehUs : Int) - ofBe (slice u 4 4))) ∧ -((10 * (s.lane x).get (Reg.SX_CONN_CFG_SKEW c) : Nat) : Int) ≤ age ∧ age ≤ (250 * (s.lane x).get (Reg.SX_CONN_CFG_EXPECT c) : Nat) ∧ ofBe (slice u 2 2) = (s.lane x).get (Reg.SX_CONN_STAT_LAST_SEQ c)) :=
  ⟨⟨.A, 0x8030003F, 63, 48, (laneA [put (Reg.SX_CONN_CFG_EN 63) 1, put (Reg.SX_CONN_CFG_DIR 63) 1]), by decide +kernel⟩,
    ⟨.A, 0x8031003F, (laneA [put (Reg.SX_CONN_CFG_EN 63) 1, put (Reg.SX_CONN_CFG_DIR 63) 1]), by decide +kernel⟩,
    ⟨.A, 0x7F, [1], 63, (laneA [put (Reg.SX_CONN_CFG_EN 63) 1]), by decide +kernel⟩,
    ⟨.A, 0x7F, 0, [1], 63, (laneA [put (Reg.SX_CONN_CFG_EN 63) 1]), by decide +kernel⟩,
    ⟨.A, 2, [0x7F, 0, 0, 1, 0, 0, 0, 0, 0x38, 0x65, 0x7C, 0x30], _, _, _, _, _, _, (laneA [put (Reg.SX_CONN_CFG_EN 63) 1, put (Reg.SX_CONN_CFG_ROUTE 63) 3, put Reg.TB_STAT_VALID 1, put (Reg.SX_CONN_STAT_STATE 63) 1]), by decide +kernel, rfl, by decide +kernel, by decide +kernel, by decide +kernel, rfl, by decide +kernel, rfl, rfl, by decide +kernel, by decide +kernel, by decide +kernel, rfl, by decide +kernel, by decide +kernel, rfl, by decide +kernel⟩,
    ⟨.A, 0x7F, (laneA []), by decide +kernel⟩,
    ⟨.A, 63, 10000000, (laneA [put (Reg.SX_CONN_CFG_EN 63) 1, put (Reg.SX_CONN_STAT_STATE 63) 2]), by decide +kernel⟩,
    ⟨.A, 63, _, 10000000, (laneA [put (Reg.SX_CONN_CFG_EN 63) 1, put (Reg.SX_CONN_STAT_STATE 63) 2, put Reg.HL_MOTION_CFG_EN 1, put Reg.HL_MOTION_CFG_PCONN 63, put Reg.HL_MOTION_CFG_SCONN 5, put (Reg.SX_CONN_STAT_STATE 5) 2]), by decide +kernel, by decide +kernel, by decide +kernel, by decide +kernel, by decide +kernel, rfl, by decide +kernel⟩,
    ⟨.A, 2, [0x7F, 0, 0, 1, 0, 0, 0, 0, 0x38, 0x65, 0x7C, 0x30], _, _, _, (laneA [put (Reg.SX_CONN_CFG_EN 63) 1, put (Reg.SX_CONN_CFG_ROUTE 63) 3, put Reg.TB_STAT_VALID 1, put (Reg.SX_CONN_STAT_STATE 63) 1, put (Reg.SX_CONN_STAT_LAST_SEQ 63) 1]), by decide +kernel, rfl, by decide +kernel, by decide +kernel, by decide +kernel, rfl, by decide +kernel, by decide +kernel, by decide +kernel, by decide +kernel, rfl, by decide +kernel⟩⟩

theorem test_meets_OrdersThatActAtOnce :
    (∃ (x : LaneId) (via : FrameVia) (syms : List Sym) (h : OrderHdr) (s : State), Accepted x 0x01 via syms h [] s) ∧
    (∃ (x : LaneId) (via : FrameVia) (syms : List Sym) (h : OrderHdr) (a : Word) (n : Word) (s : State), Accepted x 0x02 via syms h [a, n] s ∧ 0 < n.toNat ∧ n.toNat ≤ (if h.route = 2 then 14 else 62) ∧ 0x20000000 ≤ a.toNat ∧ a.toNat + 4 * n.toNat ≤ 0x20800000) ∧
    (∃ (x : LaneId) (via : FrameVia) (syms : List Sym) (h : OrderHdr) (a : Word) (n : Word) (s : State), Accepted x 0x02 via syms h [a, n] s ∧ (n.toNat = 0 ∨ (if h.route = 2 then 14 else 62) < n.toNat)) ∧
    (∃ (x : LaneId) (via : FrameVia) (syms : List Sym) (h : OrderHdr) (a : Word) (vs : List Word) (s : State), Accepted x 0x03 via syms h (a :: vs) s ∧ 0x20000000 ≤ a.toNat ∧ a.toNat + 4 * vs.length ≤ 0x20800000 ∧ ((s.lane x).mode = 1 ∨ (s.lane x).mode = 6 ∨ (s.lane x).mode = 7)) ∧
    (∃ (x : LaneId) (via : FrameVia) (syms : List Sym) (h : OrderHdr) (args : List Word) (s : State), Accepted x 0x03 via syms h args s ∧ (s.lane x).mode ≠ 1 ∧ (s.lane x).mode ≠ 6 ∧ (s.lane x).mode ≠ 7) ∧
    (∃ (x : LaneId) (via : FrameVia) (syms : List Sym) (h : OrderHdr) (a : Word) (s : State), Accepted x 0x0C via syms h [a] s) ∧
    (∃ (x : LaneId) (via : FrameVia) (syms : List Sym) (h : OrderHdr) (g : Word) (v : Word) (i : Nat) (s : State), Accepted x 0x0D via syms h [g, v] s ∧ i < 32) ∧
    (∃ (x : LaneId) (via : FrameVia) (syms : List Sym) (h : OrderHdr) (a : Word) (s : State), Accepted x 0x08 via syms h [a] s ∧ h.scope = false) ∧
    (∃ (x : LaneId) (via : FrameVia) (syms : List Sym) (h : OrderHdr) (s : State), Accepted x 0x05 via syms h [] s ∧ h.scope = false ∧ (s.lane x).toffCode = 0) ∧
    (∃ (x : LaneId) (via : FrameVia) (syms : List Sym) (h : OrderHdr) (s : State), Accepted x 0x05 via syms h [] s ∧ h.scope = false ∧ (s.lane x).toffCode ≠ 0) ∧
    (∃ (x : LaneId) (via : FrameVia) (syms : List Sym) (h : OrderHdr) (s : State), Accepted x 0x07 via syms h [] s ∧ h.scope = false ∧ (((s.lane x).noteHeld.takeFrame via syms).acceptTag h 0x07).releaseCode = 0) ∧
    (∃ (x : LaneId) (via : FrameVia) (syms : List Sym) (h : OrderHdr) (s : State), Accepted x 0x07 via syms h [] s ∧ h.scope = false ∧ (((s.lane x).noteHeld.takeFrame via syms).acceptTag h 0x07).releaseCode ≠ 0) :=
  ⟨⟨.A, (viaOf (frame 0)), (order 0x01 (frame 0) []), (frame 0), (laneA [linked 0]), ⟨⟨by decide +kernel, by decide +kernel, by decide +kernel, by decide +kernel⟩, by decide +kernel⟩⟩,
    ⟨.A, (viaOf (frame 2)), (order 0x02 (frame 2) [(0x20000000), (1)]), (frame 2), 0x20000000, 1, (laneA [linked 0]), ⟨⟨by decide +kernel, by decide +kernel, by decide +kernel, by decide +kernel⟩, by decide +kernel⟩, by decide +kernel⟩,
    ⟨.A, (viaOf (frame 2)), (order 0x02 (frame 2) [(0x20000000), (0)]), (frame 2), 0x20000000, 0, (laneA [linked 0]), ⟨⟨by decide +kernel, by decide +kernel, by decide +kernel, by decide +kernel⟩, by decide +kernel⟩, by decide +kernel⟩,
    ⟨.A, (viaOf (frame 2)), (order 0x03 (frame 2) ((0x207FFFFC) :: ([7]))), (frame 2), 0x207FFFFC, [7], (laneA [linked 3, put Reg.SYS_MODE_MODE 7]), ⟨⟨by decide +kernel, by decide +kernel, by decide +kernel, by decide +kernel⟩, by decide +kernel⟩, by decide +kernel⟩,
    ⟨.A, (viaOf (frame 2)), (order 0x03 (frame 2) ([5, 7])), (frame 2), [5, 7], (laneA [linked 3, put Reg.SYS_MODE_MODE 2]), ⟨⟨by decide +kernel, by decide +kernel, by decide +kernel, by decide +kernel⟩, by decide +kernel⟩, by decide +kernel⟩,
    ⟨.A, (viaOf (frame 1)), (order 0x0C (frame 1) [(3)]), (frame 1), 3, (laneA [linked 0]), ⟨⟨by decide +kernel, by decide +kernel, by decide +kernel, by decide +kernel⟩, by decide +kernel⟩⟩,
    ⟨.A, (viaOf (frame 2)), (order 0x0D (frame 2) [(5), (0x80000000)]), (frame 2), 5, 0x80000000, 31, (laneA [linked 2, put (Reg.FM_STATUS_STATUS 5) 0x80000000]), ⟨⟨by decide +kernel, by decide +kernel, by decide +kernel, by decide +kernel⟩, by decide +kernel⟩, by decide +kernel⟩,
    ⟨.A, (viaOf (frame 1)), (order 0x08 (frame 1) [(3)]), (frame 1), 3, (laneA [linked 1]), ⟨⟨by decide +kernel, by decide +kernel, by decide +kernel, by decide +kernel⟩, by decide +kernel⟩, by decide +kernel⟩,
    ⟨.A, (viaOf (frame 0)), (order 0x05 (frame 0) []), (frame 0), (laneA [linked 2, put Reg.SYS_MODE_MODE 7]), ⟨⟨by decide +kernel, by decide +kernel, by decide +kernel, by decide +kernel⟩, by decide +kernel⟩, by decide +kernel⟩,
    ⟨.A, (viaOf (frame 0)), (order 0x05 (frame 0) []), (frame 0), (laneA [linked 2]), ⟨⟨by decide +kernel, by decide +kernel, by decide +kernel, by decide +kernel⟩, by decide +kernel⟩, by decide +kernel⟩,
    ⟨.A, (viaOf (frame 0)), (order 0x07 (frame 0) []), (frame 0), (laneA [linked 2, put Reg.SYS_MODE_MODE 7, put Reg.SM_STAT_TOFF 1]), ⟨⟨by decide +kernel, by decide +kernel, by decide +kernel, by decide +kernel⟩, by decide +kernel⟩, by decide +kernel⟩,
    ⟨.A, (viaOf (frame 0)), (order 0x07 (frame 0) []), (frame 0), (laneA [linked 2, put Reg.SYS_MODE_MODE 2]), ⟨⟨by decide +kernel, by decide +kernel, by decide +kernel, by decide +kernel⟩, by decide +kernel⟩, by decide +kernel⟩⟩

theorem test_meets_OrdersThatStartOperations :
    (∃ (x : LaneId) (via : FrameVia) (syms : List Sym) (h : OrderHdr) (s : State), Accepted x 0x06 via syms h [] s ∧ h.scope = false ∧ (s.lane x).full4 h.part = false ∧ (s.lane x).stopCode = 0 ∧ (s.lane x).stopping = false) ∧
    (∃ (x : LaneId) (via : FrameVia) (syms : List Sym) (h : OrderHdr) (s : State), Accepted x 0x06 via syms h [] s ∧ h.scope = false ∧ (s.lane x).full4 h.part = false ∧ (s.lane x).stopCode = 0 ∧ (s.lane x).stopping = true) ∧
    (∃ (x : LaneId) (via : FrameVia) (syms : List Sym) (h : OrderHdr) (a : Word) (s : State), Accepted x 0x0E via syms h [a] s ∧ (s.lane x).full4 h.part = false ∧ 2 ≤ a.toNat ∧ (s.lane x).mode = 7 ∧ (s.lane x).bit Reg.PM_STAT_ENTERING = false ∧ (s.lane x).bit Reg.PM_STAT_EXITING = false) ∧
    (∃ (x : LaneId) (via : FrameVia) (syms : List Sym) (h : OrderHdr) (a : Word) (s : State), Accepted x 0x0E via syms h [a] s ∧ (s.lane x).full4 h.part = false ∧ a.toNat < 2 ∧ (s.lane x).bit Reg.PM_STAT_ENTERING = false ∧ (s.lane x).bit Reg.PM_STAT_EXITING = false) ∧
    (∃ (x : LaneId) (via : FrameVia) (syms : List Sym) (h : OrderHdr) (a : Word) (s : State), Accepted x 0x0E via syms h [a] s ∧ (s.lane x).full4 h.part = false ∧ 2 ≤ a.toNat ∧ (s.lane x).mode ≠ 7) ∧
    (∃ (x : LaneId) (via : FrameVia) (syms : List Sym) (h : OrderHdr) (a : Word) (s : State), Accepted x 0x11 via syms h [a] s ∧ (s.lane x).full4 h.part = false ∧ (s.lane x).hl.run = none ∧ ((s.lane x).script a.toNat).runnable = true) ∧
    (∃ (x : LaneId) (via : FrameVia) (syms : List Sym) (h : OrderHdr) (a : Word) (s : State), Accepted x 0x12 via syms h [a] s ∧ (s.lane x).full4 h.part = false ∧ (s.lane x).recordCode a.toNat ((s.memOf x).word (s.lane x).stageAddr) ((s.memOf x).word ((s.lane x).stageAddr + 8)) = 0 ∧ (s.lane x).nvOpen = true ∧ (s.lane x).rs.writing = none ∧ (s.lane x).rs.pend = []) ∧
    (∃ (x : LaneId) (via : FrameVia) (syms : List Sym) (h : OrderHdr) (a : Word) (s : State), Accepted x 0x13 via syms h [a] s ∧ (s.lane x).full4 h.part = false ∧ bistMode (s.lane x).mode = true ∧ (s.lane x).st.bist = none) ∧
    (∃ (x : LaneId) (k : Nat) (via : FrameVia) (syms : List Sym) (h : OrderHdr) (args : List Word) (s : State), (k = 5 ∨ k = 13 ∨ k = 15 ∨ k = 16 ∨ k = 17) ∧ Accepted x (ordOp k) via syms h args s ∧ h.scope = false ∧ (s.lane x).full4 h.part = true) ∧
    (∃ (x : LaneId) (via : FrameVia) (syms : List Sym) (h : OrderHdr) (w : Word) (ws : List Word) (i : Nat) (slot : Nat) (off : Nat) (s : State), Accepted x 0x10 via syms h (w :: ws) s ∧ slot = bitsOf w.toNat 9 8 ∧ off = w.toNat % 2 ^ 8 ∧ ((s.lane x).hl.run.all fun r => decide (r.slot ≠ slot)) = true ∧ bitAt w.toNat 31 = false ∧ off + ws.length ≤ 256 ∧ i < ws.length) ∧
    (∃ (x : LaneId) (via : FrameVia) (syms : List Sym) (h : OrderHdr) (w : Word) (ws : List Word) (whole : List Nat) (slot : Nat) (off : Nat) (s : State), Accepted x 0x10 via syms h (w :: ws) s ∧ slot = bitsOf w.toNat 9 8 ∧ off = w.toNat % 2 ^ 8 ∧ ((s.lane x).hl.run.all fun r => decide (r.slot ≠ slot)) = true ∧ bitAt w.toNat 31 = true ∧ off + ws.length ≤ 256 ∧ whole = ((List.range off).map fun i => (s.lane x).get (Reg.HL_SCRIPT_WORD slot i)) ++ ws.map (·.toNat)) :=
  ⟨⟨.A, (viaOf (frame 0)), (order 0x06 (frame 0) []), (frame 0), (laneA [linked 2, put Reg.SYS_MODE_MODE 6]), ⟨⟨by decide +kernel, by decide +kernel, by decide +kernel, by decide +kernel⟩, by decide +kernel⟩, by decide +kernel⟩,
    ⟨.A, (viaOf (frame 0)), (order 0x06 (frame 0) []), (frame 0), (laneA [linked 2, put Reg.SYS_MODE_MODE 6, put Reg.SM_STOP_STAT_STATE 1]), ⟨⟨by decide +kernel, by decide +kernel, by decide +kernel, by decide +kernel⟩, by decide +kernel⟩, by decide +kernel⟩,
    ⟨.A, (viaOf (frame 1)), (order 0x0E (frame 1) [(4)]), (frame 1), 4, (laneA [linked 2, put Reg.SYS_MODE_MODE 7]), ⟨⟨by decide +kernel, by decide +kernel, by decide +kernel, by decide +kernel⟩, by decide +kernel⟩, by decide +kernel⟩,
    ⟨.A, (viaOf (frame 1)), (order 0x0E (frame 1) [(1)]), (frame 1), 1, (laneA [linked 2]), ⟨⟨by decide +kernel, by decide +kernel, by decide +kernel, by decide +kernel⟩, by decide +kernel⟩, by decide +kernel⟩,
    ⟨.A, (viaOf (frame 1)), (order 0x0E (frame 1) [(4)]), (frame 1), 4, (laneA [linked 2]), ⟨⟨by decide +kernel, by decide +kernel, by decide +kernel, by decide +kernel⟩, by decide +kernel⟩, by decide +kernel⟩,
    ⟨.A, (viaOf (frame 1)), (order 0x11 (frame 1) [(3)]), (frame 1), 3, (laneA [linked 2, (fun L => { L with hl := { L.hl with scripts := [(3, ⟨true, 0⟩)] } })]), ⟨⟨by decide +kernel, by decide +kernel, by decide +kernel, by decide +kernel⟩, by decide +kernel⟩, by decide +kernel⟩,
    ⟨.A, (viaOf (frame 1)), (order 0x12 (frame 1) [(2)]), (frame 1), 2, (laneA [linked 3, put Reg.TM_STAT_NVOPEN 1]), ⟨⟨by decide +kernel, by decide +kernel, by decide +kernel, by decide +kernel⟩, by decide +kernel⟩, by decide +kernel⟩,
    ⟨.A, (viaOf (frame 1)), (order 0x13 (frame 1) [(255)]), (frame 1), 255, (laneA [linked 3, put Reg.SYS_MODE_MODE 1]), ⟨⟨by decide +kernel, by decide +kernel, by decide +kernel, by decide +kernel⟩, by decide +kernel⟩, by decide +kernel⟩,
    ⟨.A, 5, (viaOf (frame 0)), (order (ordOp (5)) (frame 0) ([])), (frame 0), [], (laneA [linked 2, put Reg.SYS_MODE_MODE 6, (fun L => { L with hl := { L.hl with ops := [⟨0, 0, 0, .stop, false⟩, ⟨1, 0, 0, .stop, false⟩, ⟨2, 0, 0, .stop, false⟩, ⟨3, 0, 0, .stop, false⟩] } })]), by decide +kernel, ⟨⟨by decide +kernel, by decide +kernel, by decide +kernel, by decide +kernel⟩, by decide +kernel⟩, by decide +kernel⟩,
    ⟨.A, (viaOf (frame 2)), (order 0x10 (frame 2) ((0x3FF) :: ([7]))), (frame 2), 0x3FF, [7], 0, 3, 255, (laneA [linked 3]), ⟨⟨by decide +kernel, by decide +kernel, by decide +kernel, by decide +kernel⟩, by decide +kernel⟩, by decide +kernel⟩,
    ⟨.A, (viaOf (frame 2)), (order 0x10 (frame 2) ((0x800003FF) :: ([7]))), (frame 2), 0x800003FF, [7], _, _, _, (laneA [linked 3]), ⟨⟨by decide +kernel, by decide +kernel, by decide +kernel, by decide +kernel⟩, by decide +kernel⟩, rfl, rfl, by decide +kernel, by decide +kernel, by decide +kernel, rfl⟩⟩

theorem test_meets_AbortsReachTheirOwners :
    (∃ (x : LaneId) (via : FrameVia) (syms : List Sym) (h : OrderHdr) (a : Word) (s : State), Accepted x 0x09 via syms h [a] s ∧ h.scope = false ∧ (((s.lane x).findOp ((s.lane x).ownOpid a.toNat)).all fun p => decide (p.part ≠ h.part.val)) = true) ∧
    (∃ (x : LaneId) (via : FrameVia) (syms : List Sym) (h : OrderHdr) (a : Word) (p : Op) (s : State), Accepted x 0x09 via syms h [a] s ∧ h.scope = false ∧ (s.lane x).findOp ((s.lane x).ownOpid a.toNat) = some p ∧ p.part = h.part ∧ p.committed = true) ∧
    (∃ (x : LaneId) (via : FrameVia) (syms : List Sym) (h : OrderHdr) (a : Word) (p : Op) (s : State), Accepted x 0x09 via syms h [a] s ∧ h.scope = false ∧ (s.lane x).findOp ((s.lane x).ownOpid a.toNat) = some p ∧ p.part = h.part ∧ p.kind = .stop ∧ p.committed = false ∧ (s.lane x).stopAbortCode = 0) ∧
    (∃ (x : LaneId) (via : FrameVia) (syms : List Sym) (h : OrderHdr) (a : Word) (p : Op) (s : State), Accepted x 0x09 via syms h [a] s ∧ h.scope = false ∧ (s.lane x).findOp ((s.lane x).ownOpid a.toNat) = some p ∧ p.part = h.part ∧ p.kind = .ramp ∧ p.committed = false ∧ ((s.lane x).hl.ramps.any fun r => decide (r.opid = some p.id) && (s.lane x).rampCommitted r) = false) ∧
    (∃ (x : LaneId) (via : FrameVia) (syms : List Sym) (h : OrderHdr) (a : Word) (p : Op) (s : State), Accepted x 0x09 via syms h [a] s ∧ h.scope = false ∧ (s.lane x).findOp ((s.lane x).ownOpid a.toNat) = some p ∧ p.part = h.part ∧ p.kind = .power ∧ p.committed = false ∧ (s.lane x).pm.qop = some p.id) ∧
    (∃ (x : LaneId) (via : FrameVia) (syms : List Sym) (h : OrderHdr) (a : Word) (p : Op) (s : State), Accepted x 0x09 via syms h [a] s ∧ h.scope = false ∧ (s.lane x).findOp ((s.lane x).ownOpid a.toNat) = some p ∧ p.part = h.part ∧ p.kind = .power ∧ p.committed = false ∧ (s.lane x).pm.qop ≠ some p.id) ∧
    (∃ (x : LaneId) (via : FrameVia) (syms : List Sym) (h : OrderHdr) (a : Word) (p : Op) (r : ScriptRun) (s : State), Accepted x 0x09 via syms h [a] s ∧ h.scope = false ∧ (s.lane x).findOp ((s.lane x).ownOpid a.toNat) = some p ∧ p.part = h.part ∧ p.kind = .script ∧ p.committed = false ∧ (s.lane x).hl.run = some r ∧ r.opid = p.id ∧ r.waiting = none) ∧
    (∃ (x : LaneId) (via : FrameVia) (syms : List Sym) (h : OrderHdr) (a : Word) (p : Op) (n : Nat) (w : RsWrite) (s : State), Accepted x 0x09 via syms h [a] s ∧ h.scope = false ∧ (s.lane x).findOp ((s.lane x).ownOpid a.toNat) = some p ∧ p.part = h.part ∧ p.kind = .record n ∧ p.committed = false ∧ (s.lane x).rs.pend = [] ∧ (s.lane x).rs.writing = some w ∧ w.slot = n ∧ w.op = some p.id) ∧
    (∃ (x : LaneId) (via : FrameVia) (syms : List Sym) (h : OrderHdr) (a : Word) (p : Op) (b : Bist) (s : State), Accepted x 0x09 via syms h [a] s ∧ h.scope = false ∧ (s.lane x).findOp ((s.lane x).ownOpid a.toNat) = some p ∧ p.part = h.part ∧ p.kind = .bist ∧ p.committed = false ∧ (s.lane x).st.bist = some b) :=
  ⟨⟨.A, (viaOf (frame 1)), (order 0x09 (frame 1) [(0)]), (frame 1), 0, (laneA [linked 2]), ⟨⟨by decide +kernel, by decide +kernel, by decide +kernel, by decide +kernel⟩, by decide +kernel⟩, by decide +kernel⟩,
    ⟨.A, (viaOf (frame 1)), (order 0x09 (frame 1) [(0)]), (frame 1), 0, ⟨0, 0, 0, .bist, true⟩, (laneA [linked 2, (fun L => { L with hl := { L.hl with ops := [⟨0, 0, 0, .bist, true⟩] } })]), ⟨⟨by decide +kernel, by decide +kernel, by decide +kernel, by decide +kernel⟩, by decide +kernel⟩, by decide +kernel⟩,
    ⟨.A, (viaOf (frame 1)), (order 0x09 (frame 1) [(0)]), (frame 1), 0, ⟨0, 0, 0, .stop, false⟩, (laneA [linked 2, (fun L => { L with hl := { L.hl with ops := [⟨0, 0, 0, .stop, false⟩] } }), put Reg.SM_STOP_STAT_STATE 1, (fun L => { L with sm := { L.sm with stopOp := some 0 } })]), ⟨⟨by decide +kernel, by decide +kernel, by decide +kernel, by decide +kernel⟩, by decide +kernel⟩, by decide +kernel⟩,
    ⟨.A, (viaOf (frame 1)), (order 0x09 (frame 1) [(0)]), (frame 1), 0, ⟨0, 0, 0, .ramp, false⟩, (laneA [linked 2, (fun L => { L with hl := { L.hl with ops := [⟨0, 0, 0, .ramp, false⟩] } })]), ⟨⟨by decide +kernel, by decide +kernel, by decide +kernel, by decide +kernel⟩, by decide +kernel⟩, by decide +kernel⟩,
    ⟨.A, (viaOf (frame 1)), (order 0x09 (frame 1) [(0)]), (frame 1), 0, ⟨0, 0, 0, .power, false⟩, (laneA [linked 2, (fun L => { L with hl := { L.hl with ops := [⟨0, 0, 0, .power, false⟩] } }), (fun L => { L with pm := { L.pm with qop := some 0 } })]), ⟨⟨by decide +kernel, by decide +kernel, by decide +kernel, by decide +kernel⟩, by decide +kernel⟩, by decide +kernel⟩,
    ⟨.A, (viaOf (frame 1)), (order 0x09 (frame 1) [(0)]), (frame 1), 0, ⟨0, 0, 0, .power, false⟩, (laneA [linked 2, (fun L => { L with hl := { L.hl with ops := [⟨0, 0, 0, .power, false⟩] } })]), ⟨⟨by decide +kernel, by decide +kernel, by decide +kernel, by decide +kernel⟩, by decide +kernel⟩, by decide +kernel⟩,
    ⟨.A, (viaOf (frame 1)), (order 0x09 (frame 1) [(0)]), (frame 1), 0, ⟨0, 0, 0, .script, false⟩, script0, (laneA [linked 2, (fun L => { L with hl := { L.hl with ops := [⟨0, 0, 0, .script, false⟩], run := some script0 } })]), ⟨⟨by decide +kernel, by decide +kernel, by decide +kernel, by decide +kernel⟩, by decide +kernel⟩, by decide +kernel⟩,
    ⟨.A, (viaOf (frame 1)), (order 0x09 (frame 1) [(0)]), (frame 1), 0, ⟨0, 0, 0, .record 2, false⟩, 2, ⟨2, 0, [1, 2], false, some 0⟩, (laneA [linked 2, (fun L => { L with hl := { L.hl with ops := [⟨0, 0, 0, .record 2, false⟩] } }), (fun L => { L with rs := { L.rs with writing := some ⟨2, 0, [1, 2], false, some 0⟩ } })]), ⟨⟨by decide +kernel, by decide +kernel, by decide +kernel, by decide +kernel⟩, by decide +kernel⟩, by decide +kernel⟩,
    ⟨.A, (viaOf (frame 1)), (order 0x09 (frame 1) [(0)]), (frame 1), 0, ⟨0, 0, 0, .bist, false⟩, ⟨some 0, [5], 0, false⟩, (laneA [linked 2, (fun L => { L with hl := { L.hl with ops := [⟨0, 0, 0, .bist, false⟩] } }), (fun L => { L with st := { L.st with bist := some ⟨some 0, [5], 0, false⟩ } })]), ⟨⟨by decide +kernel, by decide +kernel, by decide +kernel, by decide +kernel⟩, by decide +kernel⟩, by decide +kernel⟩⟩

theorem test_meets_OrdersThatReachTheOtherLanes :
    (∃ (x : LaneId) (via : FrameVia) (syms : List Sym) (h : OrderHdr) (a : Word) (s : State), Accepted x 0x04 via syms h [a] s ∧ (s.lane x).commandLane = some (s.lane x).me ∧ (s.lane x).changePending = false) ∧
    (∃ (x : LaneId) (via : FrameVia) (syms : List Sym) (h : OrderHdr) (a : Word) (s : State), Accepted x 0x04 via syms h [a] s ∧ (s.lane x).commandLane = some (s.lane x).me ∧ (s.lane x).changePending = true) ∧
    (∃ (x : LaneId) (via : FrameVia) (syms : List Sym) (h : OrderHdr) (a : Word) (c : LaneId) (s : State), Accepted x 0x04 via syms h [a] s ∧ (s.lane x).commandLane = some c ∧ c ≠ (s.lane x).me ∧ (s.lane x).relayCode [a.toNat] = 0) ∧
    (∃ (x : LaneId) (via : FrameVia) (syms : List Sym) (h : OrderHdr) (a : Word) (s : State), Accepted x 0x04 via syms h [a] s ∧ (s.lane x).commandLane = none) ∧
    (∃ (x : LaneId) (via : FrameVia) (syms : List Sym) (h : OrderHdr) (a : Word) (b : Word) (c : Word) (d : Word) (s : State), Accepted x 0x0A via syms h [a, b, c, d] s ∧ (s.lane x).bit Reg.HL_ELEM_EN = true ∧ (s.lane x).hl.relayQ.length < 16 ∧ (s.lane x).full4 h.part = false ∧ (s.lane x).permits .motion = true ∧ a.toNat < (s.lane x).targetWords) ∧
    (∃ (x : LaneId) (via : FrameVia) (syms : List Sym) (h : OrderHdr) (a : Word) (s : State), Accepted x 0x0B via syms h [a] s ∧ (s.lane x).bit Reg.HL_ELEM_EN = true ∧ (s.lane x).hl.relayQ.length < 16 ∧ (s.lane x).get Reg.HL_STAT_SELECT ≠ a.toNat ∧ (a.toNat = 1 ∨ (s.lane x).sxState ((s.lane x).motionHost 0) = 2) ∧ (s.lane x).bit (Reg.FM_REACT_B 163) = false) ∧
    (∃ (x : LaneId) (via : FrameVia) (syms : List Sym) (h : OrderHdr) (a : Word) (s : State), Accepted x 0x0B via syms h [a] s ∧ (s.lane x).bit Reg.HL_ELEM_EN = true ∧ (s.lane x).hl.relayQ.length < 16 ∧ a.toNat = 0 ∧ (s.lane x).sxState ((s.lane x).motionHost 0) ≠ 2) ∧
    (∃ (x : LaneId) (via : FrameVia) (syms : List Sym) (h : OrderHdr) (s : State), Accepted x 0x05 via syms h [] s ∧ h.scope = true ∧ (s.lane x).relayCode [] = 0 ∧ (s.lane x).toffCode = 0) ∧
    (∃ (x : LaneId) (via : FrameVia) (syms : List Sym) (h : OrderHdr) (s : State), Accepted x 0x06 via syms h [] s ∧ h.scope = true ∧ (s.lane x).relayCode [] = 0 ∧ (s.lane x).full4 h.part = false ∧ (s.lane x).stopCode = 0 ∧ (s.lane x).stopping = false) ∧
    (∃ (x : LaneId) (via : FrameVia) (syms : List Sym) (h : OrderHdr) (s : State), Accepted x 0x07 via syms h [] s ∧ h.scope = true ∧ (s.lane x).relayCode [] = 0 ∧ (((s.lane x).noteHeld.takeFrame via syms).acceptTag h 0x07).releaseCode = 0) ∧
    (∃ (x : LaneId) (via : FrameVia) (syms : List Sym) (h : OrderHdr) (a : Word) (s : State), Accepted x 0x08 via syms h [a] s ∧ h.scope = true ∧ (s.lane x).relayCode [a.toNat] = 0) ∧
    (∃ (x : LaneId) (via : FrameVia) (syms : List Sym) (h : OrderHdr) (a : Word) (p : Op) (b : Bist) (s : State), Accepted x 0x09 via syms h [a] s ∧ h.scope = true ∧ (s.lane x).relayCode [a.toNat] = 0 ∧ (s.lane x).findOp ((s.lane x).ownOpid a.toNat) = some p ∧ p.part = h.part ∧ p.kind = .bist ∧ p.committed = false ∧ (s.lane x).st.bist = some b) ∧
    (∃ (x : LaneId) (k : Nat) (via : FrameVia) (syms : List Sym) (h : OrderHdr) (args : List Word) (s : State), (k = 9 ∨ k = 10 ∨ (4 ≤ k ∧ k ≤ 8 ∧ h.scope = true)) ∧ Accepted x (ordOp k) via syms h args s ∧ (s.lane x).relayCode (args.map (·.toNat)) ≠ 0) :=
  ⟨⟨.A, (viaOf (frame 1)), (order 0x04 (frame 1) [(5)]), (frame 1), 5, (laneA [linked 2, commands]), ⟨⟨by decide +kernel, by decide +kernel, by decide +kernel, by decide +kernel⟩, by decide +kernel⟩, by decide +kernel⟩,
    ⟨.A, (viaOf (frame 1)), (order 0x04 (frame 1) [(5)]), (frame 1), 5, (laneA [linked 2, commands, (fun L => { L with md := { L.md with publish := some ⟨5, 0, none⟩ } })]), ⟨⟨by decide +kernel, by decide +kernel, by decide +kernel, by decide +kernel⟩, by decide +kernel⟩, by decide +kernel⟩,
    ⟨.A, (viaOf (frame 1)), (order 0x04 (frame 1) [(5)]), (frame 1), 5, .B, (laneA [linked 2, put Reg.HL_ELEM_EN 1, (fun L => { L with xf := { L.xf with peer := { L.xf.peer with b := { health := some 0x3E00000 } } } })]), ⟨⟨by decide +kernel, by decide +kernel, by decide +kernel, by decide +kernel⟩, by decide +kernel⟩, by decide +kernel⟩,
    ⟨.A, (viaOf (frame 1)), (order 0x04 (frame 1) [(5)]), (frame 1), 5, (laneA [linked 2]), ⟨⟨by decide +kernel, by decide +kernel, by decide +kernel, by decide +kernel⟩, by decide +kernel⟩, by decide +kernel⟩,
    ⟨.A, (viaOf (frame 4)), (order 0x0A (frame 4) [(0), (1), (2), (3)]), (frame 4), 0, 1, 2, 3, (laneA [laneMan, linked 1, put Reg.HL_ELEM_EN 1, put Reg.SYS_MODE_MODE 1]), ⟨⟨by decide +kernel, by decide +kernel, by decide +kernel, by decide +kernel⟩, by decide +kernel⟩, by decide +kernel⟩,
    ⟨.A, (viaOf (frame 1)), (order 0x0B (frame 1) [(1)]), (frame 1), 1, (laneA [linked 2, put Reg.HL_ELEM_EN 1]), ⟨⟨by decide +kernel, by decide +kernel, by decide +kernel, by decide +kernel⟩, by decide +kernel⟩, by decide +kernel⟩,
    ⟨.A, (viaOf (frame 1)), (order 0x0B (frame 1) [(0)]), (frame 1), 0, (laneA [linked 2, put Reg.HL_ELEM_EN 1]), ⟨⟨by decide +kernel, by decide +kernel, by decide +kernel, by decide +kernel⟩, by decide +kernel⟩, by decide +kernel⟩,
    ⟨.A, (viaOf ({ frame 0 with scope := true })), (order 0x05 ({ frame 0 with scope := true }) []), { frame 0 with scope := true }, (laneA [linked 2, put Reg.HL_ELEM_EN 1, put Reg.SYS_MODE_MODE 7]), ⟨⟨by decide +kernel, by decide +kernel, by decide +kernel, by decide +kernel⟩, by decide +kernel⟩, by decide +kernel⟩,
    ⟨.A, (viaOf ({ frame 0 with scope := true })), (order 0x06 ({ frame 0 with scope := true }) []), { frame 0 with scope := true }, (laneA [linked 2, put Reg.HL_ELEM_EN 1, put Reg.SYS_MODE_MODE 6]), ⟨⟨by decide +kernel, by decide +kernel, by decide +kernel, by decide +kernel⟩, by decide +kernel⟩, by decide +kernel⟩,
    ⟨.A, (viaOf ({ frame 0 with scope := true })), (order 0x07 ({ frame 0 with scope := true }) []), { frame 0 with scope := true }, (laneA [linked 2, put Reg.HL_ELEM_EN 1, put Reg.SYS_MODE_MODE 7, put Reg.SM_STAT_TOFF 1]), ⟨⟨by decide +kernel, by decide +kernel, by decide +kernel, by decide +kernel⟩, by decide +kernel⟩, by decide +kernel⟩,
    ⟨.A, (viaOf ({ frame 1 with scope := true })), (order 0x08 ({ frame 1 with scope := true }) [(3)]), { frame 1 with scope := true }, 3, (laneA [linked 1, put Reg.HL_ELEM_EN 1]), ⟨⟨by decide +kernel, by decide +kernel, by decide +kernel, by decide +kernel⟩, by decide +kernel⟩, by decide +kernel⟩,
    ⟨.A, (viaOf ({ frame 1 with scope := true })), (order 0x09 ({ frame 1 with scope := true }) [(0)]), { frame 1 with scope := true }, 0, ⟨0, 0, 0, .bist, false⟩, ⟨some 0, [5], 0, false⟩, (laneA [linked 2, put Reg.HL_ELEM_EN 1, (fun L => { L with hl := { L.hl with ops := [⟨0, 0, 0, .bist, false⟩] } }), (fun L => { L with st := { L.st with bist := some ⟨some 0, [5], 0, false⟩ } })]), ⟨⟨by decide +kernel, by decide +kernel, by decide +kernel, by decide +kernel⟩, by decide +kernel⟩, by decide +kernel⟩,
    ⟨.A, 9, (viaOf (frame 4)), (order (ordOp (9)) (frame 4) ([0, 0, 0, 0])), (frame 4), [0, 0, 0, 0], (laneA [linked 1]), by decide +kernel, ⟨⟨by decide +kernel, by decide +kernel, by decide +kernel, by decide +kernel⟩, by decide +kernel⟩, by decide +kernel⟩⟩

theorem test_meets_FramesResponsesAndLinks :
    (∃ (x : LaneId) (route : Fin 3) (p : Nat) (i : Nat) (e : Response) (s : State), (s.lane x).awake = true ∧ (s.lane x).responseReady route = some (p, i, e)) ∧
    (∃ (x : LaneId) (p : Nat) (i : Nat) (el : Nat) (e : Response) (s : State), (s.lane x).awake = true ∧ (s.lane x).responseReady 1 = some (p, i, e) ∧ (s.lane x).hostElem = some el) ∧
    (∃ (x : LaneId) (route : Fin 3) (s : State), (s.lane x).awake = true ∧ (s.lane x).responseReady route = none) ∧
    (∃ (x : LaneId) (route : Fin 3) (q : Report) (rest : List Report) (s : State), (s.lane x).awake = true ∧ (s.lane x).responseReady route = none ∧ spGet [] route.val (s.lane x).hl.reports = q :: rest ∧ (s.lane x).canSend route (q.args.length + 2) = true) ∧
    (∃ (x : LaneId) (route : Fin 3) (s : State), (s.lane x).awake = true ∧ ((s.lane x).responseReady route ≠ none ∨ spGet [] route.val (s.lane x).hl.reports = [])) ∧
    (∃ (x : LaneId) (s : State), (s.lane x).awake = true ∧ (s.lane x).bit Reg.HL_STAT_SYNC = false) ∧
    (∃ (x : LaneId) (s : State), (s.lane x).awake = true ∧ (s.lane x).bit Reg.HL_STAT_SYNC = true) ∧
    (∃ (x : LaneId) (s : State), (s.lane x).awake = true) ∧
    (∃ (x : LaneId) (s : State), (s.lane x).awake = true ∧ ((s.lane x).bit Reg.HL_STAT_SYNC = false ∨ (s.lane x).routeUp 0 = true)) ∧
    (∃ (x : LaneId) (route : Fin 3) (s : State), (s.lane x).awake = true ∧ (route ≠ 0 ∨ ((s.lane x).bit Reg.HL_STAT_SYNC = true ∧ (s.lane x).routeUp 0 = false))) ∧
    (∃ (x : LaneId) (s : State), (s.lane x).awake = true ∧ (s.lane x).hl.canState ≠ .passive) ∧
    (∃ (x : LaneId) (s : State), (s.lane x).awake = true ∧ (s.lane x).hl.canState ≠ .busOff) ∧
    (∃ (x : LaneId) (s : State), (s.lane x).awake = true ∧ (s.lane x).hl.canState ≠ .active) ∧
    (∃ (x : LaneId) (s : State), (s.lane x).awake = true) ∧
    (∃ (x : LaneId) (a : Await) (k : Tag) (T : Nat) (s : State), (s.lane x).awake = true ∧ (s.lane x).hl.await = [a] ∧ a.script = false ∧ (s.lane x).md.fwAt = none ∧ (s.lane x).relayDue = some T ∧ awaitLost ((s.reach x T).lane x).now a = true ∧ (s.lane x).hl.tags.find? (fun k => k.part = a.part && k.tag = a.tag) = some k) ∧
    (∃ (x : LaneId) (t0 : Nat) (s : State), (s.lane x).awake = true ∧ (s.lane x).hl.await = [] ∧ (s.lane x).md.fwAt = some t0 ∧ t0 + 1200000 ≤ ((s.reach x (t0 + 1200000)).lane x).now) ∧
    (∃ (via : FrameVia) (w : Nat) (args : List Word), w < 2 ^ 32 ∧ args.length = w % 64 ∧ args.length ≤ 62 ∧ via.route = 2 ∧ args.length ≤ 14) ∧
    (∃ (via : FrameVia) (w : Nat) (args : List Word), w < 2 ^ 32 ∧ args.length = w % 64 ∧ args.length ≤ 62 ∧ via.route ≠ 2) ∧
    (∃ (x : LaneId) (k : Nat) (via : FrameVia) (syms : List Sym) (s : State), (s.lane x).awake = true ∧ k < 18 ∧ (s.lane x).frameReaches via syms = false ∧ (s.lane x).cutFrame via = false) ∧
    (∃ (x : LaneId) (k : Nat) (via : FrameVia) (syms : List Sym) (s : State), (s.lane x).awake = true ∧ k < 18 ∧ (s.lane x).frameReaches via syms = false ∧ (s.lane x).cutFrame via = true) ∧
    (∃ (x : LaneId) (k : Nat) (via : FrameVia) (syms : List Sym) (s : State), (s.lane x).awake = true ∧ k < 18 ∧ (s.lane x).frameReaches via syms = true ∧ readFrame via syms = none) ∧
    (∃ (x : LaneId) (k : Nat) (op : Nat) (via : FrameVia) (syms : List Sym) (h : OrderHdr) (args : List Word) (s : State), (s.lane x).awake = true ∧ k < 18 ∧ (s.lane x).frameReaches via syms = true ∧ readFrame via syms = some (op, h, args) ∧ (s.lane x).refuseReason h ≠ 0) ∧
    (∃ (x : LaneId) (k : Nat) (op : Nat) (c : Nat) (via : FrameVia) (syms : List Sym) (h : OrderHdr) (args : List Word) (s : State), k < 18 ∧ Taken x op via syms h args s ∧ c = (s.lane x).orderCode ((s.lane x).orderOf op h args) ∧ c ≠ 0 ∧ op ≠ 0x04) ∧
    (∃ (x : LaneId) (k : Nat) (c : Nat) (via : FrameVia) (syms : List Sym) (h : OrderHdr) (args : List Word) (s : State), k < 18 ∧ Taken x 0x04 via syms h args s ∧ c = (s.lane x).orderCode ((s.lane x).orderOf 0x04 h args) ∧ c ≠ 0) :=
  ⟨⟨.A, 0, 0, 0, ⟨0, 0x01100000, [5]⟩, (laneA [linked 0, (fun L => { L with hl := { L.hl with resp := [(0, [⟨0, 0x01100000, [5]⟩])] } })]), by decide +kernel⟩,
    ⟨.A, 0, 0, 0, ⟨1, 0x01100000, [5]⟩, (laneA [(fun L => { L with hl := { L.hl with resp := [(0, [⟨1, 0x01100000, [5]⟩])], linkUp := 2 } }), put Reg.VF_MAN_VALID 1, put (Reg.VF_MANIFEST_WORD 0) 0x10100, put (Reg.VF_MANIFEST_WORD 5) 0x803F]), by decide +kernel⟩,
    ⟨.A, 0, (laneA [linked 0]), by decide +kernel⟩,
    ⟨.A, 0, ⟨7, [5]⟩, [], (laneA [linked 0, (fun L => { L with hl := { L.hl with reports := [(0, [⟨7, [5]⟩])] } })]), by decide +kernel⟩,
    ⟨.A, 0, (laneA [linked 0]), by decide +kernel⟩,
    ⟨.A, (laneA [linked 0]), by decide +kernel⟩,
    ⟨.A, (laneA [put Reg.HL_STAT_SYNC 1]), by decide +kernel⟩,
    ⟨.A, (laneA [linked 0]), by decide +kernel⟩,
    ⟨.A, (laneA []), by decide +kernel⟩,
    ⟨.A, 1, (laneA []), by decide +kernel⟩,
    ⟨.A, (laneA []), by decide +kernel⟩,
    ⟨.A, (laneA []), by decide +kernel⟩,
    ⟨.A, (laneA [(fun L => { L with hl := { L.hl with canState := .passive } })]), by decide +kernel⟩,
    ⟨.A, (laneA []), by decide +kernel⟩,
    ⟨.A, ⟨0, 0, 5, [.A, .B], [(.A, 0, 0)], none, 16, false⟩, ⟨0, 0, 5, 0⟩, 0, (laneA [(fun L => { L with hl := { L.hl with await := [⟨0, 0, 5, [.A, .B], [(.A, 0, 0)], none, 16, false⟩], tags := [⟨0, 0, 5, 0⟩] } })]), by decide +kernel⟩,
    ⟨.A, 0, (laneA [(fun L => { L with md := { L.md with fwAt := some 0 } })]), by decide +kernel⟩,
    ⟨⟨2, 0, 0⟩, 0, [], by decide +kernel⟩,
    ⟨⟨0, 0, 0⟩, 0, [], by decide +kernel⟩,
    ⟨.A, 0, ⟨0, 0, 0⟩, [], (laneA []), by decide +kernel⟩,
    ⟨.A, 0, ⟨0, 0, 0⟩, [], (laneA [put Reg.HL_CTRL_ROUTE_EN 1, (fun L => { L with hl := { L.hl with lostAt := some 0 } })]), by decide +kernel⟩,
    ⟨.A, 0, ⟨0, 0, 0⟩, [], (laneA [linked 0]), by decide +kernel⟩,
    ⟨.A, 0, 1, ⟨0, 0, 0⟩, (order 1 (frame 0) []), (frame 0), [], (laneA [put Reg.HL_CTRL_ROUTE_EN 1, (fun L => { L with hl := { L.hl with linkUp := 1 } })]), by decide +kernel⟩,
    ⟨.A, 0, 1, _, (viaOf ({ frame 0 with resv := true })), (order (1) ({ frame 0 with resv := true }) ([])), { frame 0 with resv := true }, [], (laneA [linked 0]), by decide +kernel, ⟨by decide +kernel, by decide +kernel, by decide +kernel, by decide +kernel⟩, rfl, by decide +kernel⟩,
    ⟨.A, 0, _, (viaOf ({ frame 1 with resv := true })), (order 0x04 ({ frame 1 with resv := true }) ([0])), { frame 1 with resv := true }, [0], (laneA [linked 0]), by decide +kernel, ⟨by decide +kernel, by decide +kernel, by decide +kernel, by decide +kernel⟩, rfl, by decide +kernel⟩⟩

theorem test_meets_ScriptSteps :
    (∃ (x : LaneId) (r : ScriptRun) (s : State), (s.lane x).awake = true ∧ (s.lane x).atStep 0 = some r ∧ ((s.lane x).stepOrder r).op = 0x01 ∧ (s.lane x).orderCode ((s.lane x).stepOrder r) = 0) ∧
    (∃ (x : LaneId) (r : ScriptRun) (s : State), (s.lane x).awake = true ∧ (s.lane x).atStep 0 = some r ∧ ((s.lane x).stepOrder r).op = 0x05 ∧ (s.lane x).orderCode ((s.lane x).stepOrder r) = 0 ∧ ((s.lane x).stepOrder r).scope = false ∧ (s.lane x).toffCode = 0 ∧ (s.lane x).stopping = false) ∧
    (∃ (x : LaneId) (r : ScriptRun) (c : Nat) (w : Nat) (s : State), (s.lane x).awake = true ∧ (s.lane x).atStep 0 = some r ∧ c = (s.lane x).orderCode ((s.lane x).stepOrder r) ∧ c ≠ 0 ∧ w = (s.lane x).scriptWord r (r.pc + 2 + ((s.lane x).stepOrder r).narg) ∧ bitsOf w 31 28 = 3 ∧ bitsOf w 23 16 = c) ∧
    (∃ (x : LaneId) (r : ScriptRun) (c : Nat) (w : Nat) (s : State), (s.lane x).awake = true ∧ (s.lane x).atStep 0 = some r ∧ c = (s.lane x).orderCode ((s.lane x).stepOrder r) ∧ c ≠ 0 ∧ w = (s.lane x).scriptWord r (r.pc + 2 + ((s.lane x).stepOrder r).narg) ∧ (bitsOf w 31 28 ≠ 3 ∨ bitsOf w 23 16 ≠ c)) ∧
    (∃ (x : LaneId) (r : ScriptRun) (s : State), (s.lane x).awake = true ∧ (s.lane x).atStep 1 = some r) ∧
    (∃ (x : LaneId) (r : ScriptRun) (T : Nat) (s : State), (s.lane x).awake = true ∧ (s.lane x).hl.run = some r ∧ r.waiting = some (false, T)) ∧
    (∃ (x : LaneId) (r : ScriptRun) (s : State), (s.lane x).awake = true ∧ (s.lane x).atStep 2 = some r) ∧
    (∃ (x : LaneId) (r : ScriptRun) (T : Nat) (s : State), (s.lane x).awake = true ∧ (s.lane x).hl.run = some r ∧ r.waiting = some (true, T) ∧ r.opDone = some true) ∧
    (∃ (x : LaneId) (r : ScriptRun) (T : Nat) (w : Nat) (s : State), (s.lane x).awake = true ∧ (s.lane x).hl.run = some r ∧ (s.lane x).opDue = some T ∧ r.opDone ≠ some true ∧ w = (s.lane x).scriptWord r (r.pc + 1) ∧ bitsOf w 31 28 = 3 ∧ bitsOf w 23 16 = 0x0D) ∧
    (∃ (x : LaneId) (r : ScriptRun) (T : Nat) (w : Nat) (s : State), (s.lane x).awake = true ∧ (s.lane x).hl.run = some r ∧ (s.lane x).opDue = some T ∧ r.opDone ≠ some true ∧ w = (s.lane x).scriptWord r (r.pc + 1) ∧ (bitsOf w 31 28 ≠ 3 ∨ bitsOf w 23 16 ≠ 0x0D)) ∧
    (∃ (x : LaneId) (r : ScriptRun) (w : Nat) (next : Nat) (s : State), (s.lane x).awake = true ∧ (s.lane x).atStep 3 = some r ∧ w = (s.lane x).scriptWord r r.pc ∧ (next = (if r.code = bitsOf w 23 16 ↔ bitAt w 24 = false then (s.lane x).afterSteps r (r.pc + 1) (w % 2 ^ 8) else r.pc + 1))) ∧
    (∃ (x : LaneId) (r : ScriptRun) (s : State), (s.lane x).awake = true ∧ (s.lane x).atStep 4 = some r) ∧
    (∃ (x : LaneId) (r : ScriptRun) (s : State), (s.lane x).awake = true ∧ (s.lane x).atStep 5 = some r) ∧
    (∃ (x : LaneId) (s : State), (s.lane x).awake = true ∧ (s.lane x).atStep 0 = none) :=
  ⟨⟨.A, script0, (laneA [atScript 0 0x01100000]), by decide +kernel⟩,
    ⟨.A, script0, (laneA [linked 3, atScript 0 0x05000000, put Reg.SYS_MODE_MODE 7]), by decide +kernel⟩,
    ⟨.A, script0, _, _, (laneA [atScript 0 0x05000000, put (Reg.HL_SCRIPT_WORD 0 2) 0x30020000]), by decide +kernel, by decide +kernel, rfl, by decide +kernel, rfl, by decide +kernel⟩,
    ⟨.A, script0, _, _, (laneA [atScript 0 0x05000000]), by decide +kernel, by decide +kernel, rfl, by decide +kernel, rfl, by decide +kernel⟩,
    ⟨.A, script0, (laneA [atScript 0x10000005 0]), by decide +kernel⟩,
    ⟨.A, { script0 with waiting := some (false, 50) }, 50, (laneA [(fun L => { L with hl := { L.hl with run := some { script0 with waiting := some (false, 50) } } })]), by decide +kernel⟩,
    ⟨.A, script0, (laneA [atScript 0x20000005 0]), by decide +kernel⟩,
    ⟨.A, { script0 with waiting := some (true, 50), opDone := some true }, 50, (laneA [(fun L => { L with hl := { L.hl with run := some { script0 with waiting := some (true, 50), opDone := some true } } })]), by decide +kernel⟩,
    ⟨.A, { script0 with waiting := some (true, 50) }, 50, _, (laneA [(fun L => { L with hl := { L.hl with run := some { script0 with waiting := some (true, 50) } } }), put (Reg.HL_SCRIPT_WORD 0 1) 0x300D0000]), by decide +kernel, by decide +kernel, by decide +kernel, by decide +kernel, rfl, by decide +kernel⟩,
    ⟨.A, { script0 with waiting := some (true, 50) }, 50, _, (laneA [(fun L => { L with hl := { L.hl with run := some { script0 with waiting := some (true, 50) } } })]), by decide +kernel, by decide +kernel, by decide +kernel, by decide +kernel, rfl, by decide +kernel⟩,
    ⟨.A, script0, _, _, (laneA [atScript 0x30000001 0x10000005]), by decide +kernel, by decide +kernel, rfl, rfl⟩,
    ⟨.A, script0, (laneA [atScript 0x40000000 0]), by decide +kernel⟩,
    ⟨.A, script0, (laneA [atScript 0x50000000 0]), by decide +kernel⟩,
    ⟨.A, (laneA []), by decide +kernel⟩⟩

theorem test_meets_PowerStates :
    (∃ (x : LaneId) (target : Fin 8) (s : State), (s.lane x).up = true ∧ 2 ≤ target.val ∧ target.val ≤ 4 ∧ (s.lane x).mode = 7 ∧ (s.lane x).bit Reg.PM_STAT_ENTERING = false ∧ (s.lane x).bit Reg.PM_STAT_EXITING = false) ∧
    (∃ (x : LaneId) (target : Fin 8) (s : State), (s.lane x).up = true ∧ 4 < target.val) ∧
    (∃ (x : LaneId) (target : Fin 8) (s : State), (s.lane x).up = true ∧ 2 ≤ target.val ∧ target.val ≤ 4 ∧ (s.lane x).mode ≠ 7) ∧
    (∃ (x : LaneId) (target : Fin 8) (s : State), (s.lane x).up = true ∧ target.val ≤ 1 ∧ (s.lane x).bit Reg.PM_STAT_ENTERING = false ∧ ((s.lane x).bit Reg.PM_STAT_EXITING = false ∨ target.val = 0)) ∧
    (∃ (x : LaneId) (target : Fin 8) (s : State), (s.lane x).up = true ∧ target.val ≤ 1 ∧ (s.lane x).bit Reg.PM_STAT_ENTERING = true ∧ target.val ≠ (s.lane x).get Reg.PM_STAT_TARGET) ∧
    (∃ (x : LaneId) (target : Fin 8) (s : State), (s.lane x).up = true ∧ (s.lane x).bit Reg.PM_STAT_ENTERING = true ∧ target.val = (s.lane x).get Reg.PM_STAT_TARGET ∧ target.val ≤ 4 ∧ ((s.lane x).mode = 7 ∨ target.val ≤ 1)) ∧
    (∃ (x : LaneId) (target : Fin 8) (s : State), (s.lane x).up = true ∧ 2 ≤ target.val ∧ target.val ≤ 4 ∧ (s.lane x).mode = 7 ∧ (((s.lane x).bit Reg.PM_STAT_ENTERING = true ∧ target.val ≠ (s.lane x).get Reg.PM_STAT_TARGET) ∨ ((s.lane x).bit Reg.PM_STAT_ENTERING = false ∧ (s.lane x).bit Reg.PM_STAT_EXITING = true))) ∧
    (∃ (x : LaneId) (s : State), (s.lane x).awake = true ∧ (s.lane x).bit Reg.PM_STAT_ENTERING = true ∧ (s.lane x).pm.passed = 0 ∧ (s.lane x).recalled = false ∧ (s.lane x).mode = 7 ∧ (∀ b, b < 2 → (s.lane x).get (Reg.FC_BR_STAT_STATE b) = 0) ∧ (s.lane x).stopping = false) ∧
    (∃ (x : LaneId) (s : State), (s.lane x).awake = true ∧ (s.lane x).bit Reg.PM_STAT_ENTERING = true ∧ (s.lane x).pm.passed = 1 ∧ (s.lane x).recalled = false ∧ (s.lane x).mode = 7 ∧ (s.lane x).st.slice = false ∧ ((s.lane x).cp.pmReq = false ∨ ((s.lane x).lockstep = false ∨ (s.lane x).cp.wfi = true))) ∧
    (∃ (x : LaneId) (b : Nat) (s : State), (s.lane x).awake = true ∧ (s.lane x).bit Reg.PM_STAT_ENTERING = true ∧ (s.lane x).pm.passed = 2 ∧ (s.lane x).recalled = false ∧ (s.lane x).mode = 7 ∧ (s.lane x).get Reg.PM_STAT_TARGET ≠ 4 ∧ b < 2) ∧
    (∃ (x : LaneId) (b : Nat) (s : State), (s.lane x).awake = true ∧ (s.lane x).bit Reg.PM_STAT_ENTERING = true ∧ (s.lane x).pm.passed = 2 ∧ (s.lane x).recalled = false ∧ (s.lane x).mode = 7 ∧ (s.lane x).get Reg.PM_STAT_TARGET = 4 ∧ (s.lane x).nvOpen = true ∧ b < 2) ∧
    (∃ (x : LaneId) (s : State), (s.lane x).awake = true ∧ (s.lane x).bit Reg.PM_STAT_ENTERING = true ∧ (s.lane x).recalled = false ∧ (s.lane x).mode = 7 ∧ (s.lane x).get Reg.PM_STAT_TARGET = 4 ∧ (((s.lane x).pm.passed = 2 ∧ (s.lane x).nvOpen = false) ∨ ((s.lane x).pm.passed = 3 ∧ ([4, 5, 6].any (s.lane x).recordBusy) = true))) ∧
    (∃ (x : LaneId) (s : State), (s.lane x).awake = true ∧ (s.lane x).bit Reg.PM_STAT_ENTERING = true ∧ (s.lane x).pm.passed = 3 ∧ (s.lane x).recalled = false ∧ (s.lane x).mode = 7 ∧ ((s.lane x).get Reg.PM_STAT_TARGET ≠ 4 ∨ ([4, 5, 6].any (s.lane x).recordBusy) = false)) ∧
    (∃ (x : LaneId) (s : State), (s.lane x).awake = true ∧ (s.lane x).bit Reg.PM_STAT_ENTERING = true ∧ (s.lane x).pm.passed < 4 ∧ ((s.lane x).get Reg.PM_STAT_TARGET ≠ 4 ∨ (s.lane x).pm.passed ≠ 3) ∧ ((s.lane x).recalled = true ∨ (s.lane x).mode ≠ 7 ∨ ((s.lane x).pm.passed = 0 ∧ ((s.lane x).stopping = true ∨ ((s.lane x).get (Reg.FC_BR_STAT_STATE 0) ≠ 0 ∨ (s.lane x).get (Reg.FC_BR_STAT_STATE 1) ≠ 0))))) ∧
    (∃ (x : LaneId) (s : State), (s.lane x).awake = true ∧ (s.lane x).bit Reg.PM_STAT_ENTERING = true ∧ (s.lane x).pm.passed = 3 ∧ (s.lane x).get Reg.PM_STAT_TARGET = 4 ∧ ((s.lane x).recalled = true ∨ (s.lane x).mode ≠ 7) ∧ (s.lane x).nvOpen = true) ∧
    (∃ (x : LaneId) (s : State), (s.lane x).awake = true ∧ ((s.lane x).bit Reg.PM_STAT_ENTERING = false ∨ 4 ≤ (s.lane x).pm.passed)) ∧
    (∃ (x : LaneId) (target : Nat) (T : Nat) (s : State), (s.lane x).awake = true ∧ (s.lane x).bit Reg.PM_STAT_ENTERING = true ∧ (s.lane x).pm.passed = 4 ∧ target = (s.lane x).get Reg.PM_STAT_TARGET ∧ 2 ≤ target ∧ target ≤ 4 ∧ T = (if (s.lane x).pm.ops.any (s.lane x).reportQueued then (s.lane x).pm.ap4At + 500000 else (s.lane x).now) ∧ (((s.lane x).pm.wakes ≠ 0 ∨ (s.lane x).pm.recalledBy = true) ∨ (target ≠ 2 ∨ (s.lane x).get Reg.PM_STAT_QUEUED ≤ 2))) ∧
    (∃ (x : LaneId) (T : Nat) (s : State), (s.lane x).awake = true ∧ (s.lane x).bit Reg.PM_STAT_ENTERING = true ∧ (s.lane x).pm.passed = 4 ∧ (s.lane x).get Reg.PM_STAT_TARGET = 2 ∧ (s.lane x).pm.wakes = 0 ∧ (s.lane x).pm.recalledBy = false ∧ (s.lane x).bit Reg.PM_STAT_QVALID = true ∧ 2 < (s.lane x).get Reg.PM_STAT_QUEUED ∧ T = (if (s.lane x).pm.ops.any (s.lane x).reportQueued then (s.lane x).pm.ap4At + 500000 else (s.lane x).now)) ∧
    (∃ (x : LaneId) (s : State), (s.lane x).awake = true ∧ ((s.lane x).bit Reg.PM_STAT_ENTERING = false ∨ (s.lane x).pm.passed ≠ 4)) ∧
    (∃ (x : LaneId) (src : Fin 6) (k : Nat) (s : State), (s.lane x).lowState = some k ∧ (s.lane x).wakeActs k src = true ∧ (s.lane x).bit Reg.PM_STAT_ENTERING = false ∧ (s.lane x).bit Reg.PM_STAT_EXITING = false) ∧
    (∃ (x : LaneId) (s : State), (s.lane x).awake = true ∧ (s.lane x).bit Reg.PM_STAT_ENTERING = true) ∧
    (∃ (x : LaneId) (src : Fin 6) (s : State), ((s.lane x).awake = false ∨ (s.lane x).bit Reg.PM_STAT_ENTERING = false) ∧ ((s.lane x).bit Reg.PM_STAT_EXITING = true ∨ ((s.lane x).lowState.all fun k => !(s.lane x).wakeActs k src) = true)) ∧
    (∃ (x : LaneId) (k : Nat) (T : Nat) (s : State), (s.lane x).lowState = some k ∧ (s.lane x).wakeActs k 3 = true ∧ (s.lane x).bit Reg.PM_STAT_ENTERING = false ∧ (s.lane x).bit Reg.PM_STAT_EXITING = false ∧ (s.lane x).get Reg.PM_WAKE_TIME_MS ≠ 0 ∧ T = (s.lane x).pm.enteredAt + (s.lane x).get Reg.PM_WAKE_TIME_MS * 100000) ∧
    (∃ (x : LaneId) (s : State), ((s.lane x).lowState = none ∨ (s.lane x).get Reg.PM_WAKE_TIME_MS = 0)) ∧
    (∃ (x : LaneId) (s : State), (s.lane x).bit Reg.PM_STAT_EXITING = true ∧ (s.lane x).run = .sleep) ∧
    (∃ (x : LaneId) (s : State), (s.lane x).bit Reg.PM_STAT_EXITING = true ∧ ((s.lane x).run = .deep ∨ (s.lane x).run = .off)) ∧
    (∃ (x : LaneId) (s : State), (s.lane x).bit Reg.PM_STAT_EXITING = false) ∧
    (∃ (x : LaneId) (s : State), (s.lane x).up = true) ∧
    (∃ (x : LaneId) (s : State), (s.lane x).awake = true ∧ (s.lane x).bit Reg.PM_STAT_ENTERING = true ∧ (s.lane x).pm.passed = 1 ∧ (s.lane x).recalled = false ∧ (s.lane x).mode = 7 ∧ ((s.lane x).st.slice = true ∨ ((s.lane x).cp.pmReq = true ∧ ((s.lane x).lockstep = true ∧ (s.lane x).cp.wfi = false)))) :=
  ⟨⟨.A, 4, (laneA [put Reg.SYS_MODE_MODE 7]), by decide +kernel⟩,
    ⟨.A, 5, (laneA []), by decide +kernel⟩,
    ⟨.A, 4, (laneA [put Reg.SYS_MODE_MODE 2]), by decide +kernel⟩,
    ⟨.A, 1, (laneA []), by decide +kernel⟩,
    ⟨.A, 1, (laneA [put Reg.PM_STAT_ENTERING 1, put Reg.PM_STAT_TARGET 2]), by decide +kernel⟩,
    ⟨.A, 2, (laneA [put Reg.SYS_MODE_MODE 7, put Reg.PM_STAT_ENTERING 1, put Reg.PM_STAT_TARGET 2]), by decide +kernel⟩,
    ⟨.A, 4, (laneA [put Reg.SYS_MODE_MODE 7, put Reg.PM_STAT_ENTERING 1, put Reg.PM_STAT_TARGET 2]), by decide +kernel⟩,
    ⟨.A, (laneA [put Reg.SYS_MODE_MODE 7, put Reg.PM_STAT_ENTERING 1, put Reg.PM_STAT_TARGET 2]), by decide +kernel⟩,
    ⟨.A, (laneA [put Reg.SYS_MODE_MODE 7, put Reg.PM_STAT_ENTERING 1, put Reg.PM_STAT_TARGET 2, (fun L => { L with pm := { L.pm with passed := 1 } })]), by decide +kernel⟩,
    ⟨.A, 1, (laneA [put Reg.SYS_MODE_MODE 7, put Reg.PM_STAT_ENTERING 1, put Reg.PM_STAT_TARGET 2, (fun L => { L with pm := { L.pm with passed := 2 } })]), by decide +kernel⟩,
    ⟨.A, 1, (laneA [put Reg.SYS_MODE_MODE 7, put Reg.PM_STAT_ENTERING 1, put Reg.PM_STAT_TARGET 4, (fun L => { L with pm := { L.pm with passed := 2 } }), put Reg.TM_STAT_NVOPEN 1]), by decide +kernel⟩,
    ⟨.A, (laneA [put Reg.SYS_MODE_MODE 7, put Reg.PM_STAT_ENTERING 1, put Reg.PM_STAT_TARGET 4, (fun L => { L with pm := { L.pm with passed := 2 } })]), by decide +kernel⟩,
    ⟨.A, (laneA [put Reg.SYS_MODE_MODE 7, put Reg.PM_STAT_ENTERING 1, put Reg.PM_STAT_TARGET 4, (fun L => { L with pm := { L.pm with passed := 3 } })]), by decide +kernel⟩,
    ⟨.A, (laneA [put Reg.SYS_MODE_MODE 7, put Reg.PM_STAT_ENTERING 1, put Reg.PM_STAT_TARGET 4, put Reg.SM_STOP_STAT_STATE 1]), by decide +kernel⟩,
    ⟨.A, (laneA [put Reg.SYS_MODE_MODE 7, put Reg.PM_STAT_ENTERING 1, put Reg.PM_STAT_TARGET 4, (fun L => { L with pm := { L.pm with passed := 3, wakes := 1 } }), put Reg.TM_STAT_NVOPEN 1]), by decide +kernel⟩,
    ⟨.A, (laneA [(fun L => { L with pm := { L.pm with passed := 4 } })]), by decide +kernel⟩,
    ⟨.A, 3, _, (laneA [put Reg.PM_STAT_ENTERING 1, put Reg.PM_STAT_TARGET 3, (fun L => { L with pm := { L.pm with passed := 4 } })]), by decide +kernel, by decide +kernel, by decide +kernel, by decide +kernel, by decide +kernel, by decide +kernel, rfl, by decide +kernel⟩,
    ⟨.A, _, (laneA [put Reg.PM_STAT_ENTERING 1, put Reg.PM_STAT_TARGET 2, (fun L => { L with pm := { L.pm with passed := 4 } }), put Reg.PM_STAT_QVALID 1, put Reg.PM_STAT_QUEUED 3]), by decide +kernel, by decide +kernel, by decide +kernel, by decide +kernel, by decide +kernel, by decide +kernel, by decide +kernel, by decide +kernel, rfl⟩,
    ⟨.A, (laneA [put Reg.PM_STAT_ENTERING 1, (fun L => { L with pm := { L.pm with passed := 3 } })]), by decide +kernel⟩,
    ⟨.A, 0, 4, (laneA [(fun L => { L with run := .off })]), by decide +kernel⟩,
    ⟨.A, (laneA [put Reg.PM_STAT_ENTERING 1, put Reg.PM_STAT_TARGET 4]), by decide +kernel⟩,
    ⟨.A, 1, (laneA [(fun L => { L with run := .off })]), by decide +kernel⟩,
    ⟨.A, 2, 500000, (laneA [(fun L => { L with run := .sleep }), put Reg.PM_CFG_WAKE_EN 8, put Reg.PM_WAKE_TIME_MS 5]), by decide +kernel⟩,
    ⟨.A, (laneA [(fun L => { L with run := .sleep })]), by decide +kernel⟩,
    ⟨.A, (laneA [(fun L => { L with run := .sleep }), put Reg.PM_STAT_EXITING 1, put Reg.SYS_MODE_MODE 7, put Reg.PM_STAT_STATE 2, (fun L => { L with pm := { L.pm with wakes := 1 } })]), by decide +kernel⟩,
    ⟨.A, (laneA [(fun L => { L with run := .deep }), put Reg.PM_STAT_EXITING 1, put Reg.SYS_MODE_MODE 7, put Reg.PM_STAT_STATE 3]), by decide +kernel⟩,
    ⟨.A, (laneA [(fun L => { L with run := .sleep })]), by decide +kernel⟩,
    ⟨.A, (laneA [put Reg.PM_STAT_PADHOLD 1]), by decide +kernel⟩,
    ⟨.A, (laneA [put Reg.SYS_MODE_MODE 7, put Reg.PM_STAT_ENTERING 1, put Reg.PM_STAT_TARGET 2, (fun L => { L with pm := { L.pm with passed := 1 } }), (fun L => { L with st := { L.st with slice := true } })]), by decide +kernel⟩⟩

theorem test_meets_TemperatureAndRecords :
    (∃ (x : LaneId) (codes : List (BitVec 12)) (i : Nat) (T : Nat) (M : Lane) (s : State), ((s.lane x).run = .on ∨ (s.lane x).run = .sleep) ∧ (s.lane x).tmDue = some T ∧ i < 8 ∧ codes.length = 8 ∧ M = (((s.reach x T).lane x).noteHeld.sample codes).thermalWarning.thermalLevel.thermalCutoff.raiseCore ∧ M.mustShut = false) ∧
    (∃ (x : LaneId) (codes : List (BitVec 12)) (T : Nat) (M : Lane) (s : State), ((s.lane x).run = .on ∨ (s.lane x).run = .sleep) ∧ (s.lane x).tmDue = some T ∧ M = (((s.reach x T).lane x).noteHeld.sample codes).thermalWarning.thermalLevel.thermalCutoff.raiseCore ∧ M.mustShut = true) ∧
    (∃ (x : LaneId) (codes : List (BitVec 12)) (T : Nat) (M : Lane) (s : State), (s.lane x).run = .held ∧ (s.lane x).tmDue = some T ∧ M = ((s.reach x T).lane x).noteHeld.sample codes ∧ M.tm.hold = true ∧ M.tm.tj ≤ 1120 ∧ M.pins.crystal = true) ∧
    (∃ (x : LaneId) (codes : List (BitVec 12)) (i : Nat) (T : Nat) (M : Lane) (s : State), ((s.lane x).run = .deep ∨ (s.lane x).run = .held) ∧ (s.lane x).tmDue = some T ∧ i < 8 ∧ codes.length = 8 ∧ M = ((s.reach x T).lane x).noteHeld.sample codes ∧ ((s.lane x).run = .deep ∨ (M.tm.hold = false ∨ (1120 < M.tm.tj ∨ M.pins.crystal = false)))) ∧
    (∃ (x : LaneId) (s : State), ((s.lane x).run = .off ∨ (s.lane x).run = .unpowered)) ∧
    (∃ (x : LaneId) (t0 : Nat) (s : State), (s.lane x).awake = true ∧ (s.lane x).nvOpen = false ∧ (s.lane x).tm.nvSince = some t0) ∧
    (∃ (x : LaneId) (s : State), ((s.lane x).nvOpen = true ∨ (s.lane x).tm.nvSince = none)) ∧
    (∃ (x : LaneId) (t0 : Nat) (T : Nat) (s : State), (s.lane x).up = true ∧ (s.lane x).ix.throttleEnd = false ∧ (s.lane x).ix.renewed = some t0 ∧ T = t0 + (s.lane x).get Reg.TM_STAT_LEVEL * 100) ∧
    (∃ (x : LaneId) (s : State), ((s.lane x).ix.throttleEnd = true ∨ (s.lane x).ix.renewed = none)) ∧
    (∃ (x : LaneId) (slot : Fin 64) (c : Nat) (s : State), (s.lane x).up = true ∧ c = (s.lane x).recordCode slot ((s.memOf x).word (s.lane x).stageAddr) ((s.memOf x).word ((s.lane x).stageAddr + 8)) ∧ c ≠ 0) ∧
    (∃ (x : LaneId) (slot : Fin 64) (s : State), (s.lane x).up = true ∧ (s.lane x).recordCode slot ((s.memOf x).word (s.lane x).stageAddr) ((s.memOf x).word ((s.lane x).stageAddr + 8)) = 0 ∧ (s.lane x).nvOpen = true) ∧
    (∃ (x : LaneId) (slot : Fin 64) (s : State), (s.lane x).up = true ∧ (s.lane x).recordCode slot ((s.memOf x).word (s.lane x).stageAddr) ((s.memOf x).word ((s.lane x).stageAddr + 8)) = 0 ∧ (s.lane x).nvOpen = false) ∧
    (∃ (x : LaneId) (slot : Fin 64) (p : RsPend) (s : State), (s.lane x).up = true ∧ (s.lane x).rsPend slot = some p) ∧
    (∃ (x : LaneId) (slot : Fin 64) (w : RsWrite) (s : State), (s.lane x).up = true ∧ (s.lane x).rsPend slot = none ∧ (s.lane x).rs.writing = some w ∧ w.slot = slot) ∧
    (∃ (x : LaneId) (slot : Fin 64) (s : State), (s.lane x).up = true ∧ (s.lane x).recordBusy slot = false) ∧
    (∃ (x : LaneId) (w : RsWrite) (i : Nat) (s : State), (s.lane x).awake = true ∧ (s.lane x).rs.writing = some w ∧ i < w.image.length) ∧
    (∃ (x : LaneId) (w : RsWrite) (s : State), (s.lane x).awake = true ∧ (s.lane x).rs.writing = some w ∧ w.repeated = false) ∧
    (∃ (x : LaneId) (w : RsWrite) (s : State), (s.lane x).awake = true ∧ (s.lane x).rs.writing = some w ∧ w.repeated = true) ∧
    (∃ (x : LaneId) (s : State), (s.lane x).awake = true ∧ (s.lane x).rs.writing = none) :=
  ⟨⟨.A, (List.replicate 8 200), 7, 0, _, (laneA []), by decide +kernel, by decide +kernel, by decide +kernel, by decide +kernel, rfl, by decide +kernel⟩,
    ⟨.A, (List.replicate 8 1400), 0, _, (laneA []), by decide +kernel, by decide +kernel, rfl, by decide +kernel⟩,
    ⟨.A, (List.replicate 8 200), 0, _, (laneA [(fun L => { L with run := .held }), (fun L => { L with tm := { L.tm with hold := true } })]), by decide +kernel, by decide +kernel, rfl, by decide +kernel⟩,
    ⟨.A, (List.replicate 8 1400), 7, 0, _, (laneA [(fun L => { L with run := .held }), (fun L => { L with tm := { L.tm with hold := true } })]), by decide +kernel, by decide +kernel, by decide +kernel, by decide +kernel, rfl, by decide +kernel⟩,
    ⟨.A, (laneA [(fun L => { L with run := .off })]), by decide +kernel⟩,
    ⟨.A, 0, (laneA [(fun L => { L with tm := { L.tm with nvSince := some 0 } })]), by decide +kernel⟩,
    ⟨.A, (laneA []), by decide +kernel⟩,
    ⟨.A, 0, 0, (laneA [(fun L => { L with ix := { L.ix with renewed := some 0 } })]), by decide +kernel⟩,
    ⟨.A, (laneA []), by decide +kernel⟩,
    ⟨.A, 7, _, (laneA [put Reg.TM_STAT_NVOPEN 1]), by decide +kernel, rfl, by decide +kernel⟩,
    ⟨.A, 2, (laneA [put Reg.TM_STAT_NVOPEN 1]), by decide +kernel⟩,
    ⟨.A, 2, (laneA []), by decide +kernel⟩,
    ⟨.A, 2, ⟨[1, 2], none⟩, (laneA [(fun L => { L with rs := { L.rs with pend := [(2, some ⟨[1, 2], none⟩)] } })]), by decide +kernel⟩,
    ⟨.A, 2, ⟨2, 0, [1, 2], false, none⟩, (laneA [(fun L => { L with rs := { L.rs with writing := some ⟨2, 0, [1, 2], false, none⟩ } })]), by decide +kernel⟩,
    ⟨.A, 2, (laneA []), by decide +kernel⟩,
    ⟨.A, ⟨2, 0, [1, 2], false, none⟩, 0, (laneA [(fun L => { L with rs := { L.rs with writing := some ⟨2, 0, [1, 2], false, none⟩ } })]), by decide +kernel⟩,
    ⟨.A, ⟨2, 0, [1, 2], false, none⟩, (laneA [(fun L => { L with rs := { L.rs with writing := some ⟨2, 0, [1, 2], false, none⟩ } })]), by decide +kernel⟩,
    ⟨.A, ⟨2, 0, [1, 2], true, none⟩, (laneA [(fun L => { L with rs := { L.rs with writing := some ⟨2, 0, [1, 2], true, none⟩ } })]), by decide +kernel⟩,
    ⟨.A, (laneA []), by decide +kernel⟩⟩

theorem test_meets_SelfTestAndRepair :
    (∃ (x : LaneId) (T : Nat) (s : State), (s.lane x).up = true ∧ (s.lane x).canaryDue = some T) ∧
    (∃ (x : LaneId) (s : State), (s.lane x).canaryDue = none) ∧
    (∃ (x : LaneId) (s : State), (s.lane x).up = true ∧ (s.lane x).st.slice = true) ∧
    (∃ (x : LaneId) (s : State), (s.lane x).up = true ∧ (s.lane x).st.slice = true) ∧
    (∃ (x : LaneId) (b : Bist) (s : State), (s.lane x).up = true ∧ (s.lane x).st.slice = false ∧ (s.lane x).st.bist = some b ∧ b.slices ≠ []) ∧
    (∃ (x : LaneId) (b : Bist) (s : State), (s.lane x).up = true ∧ (s.lane x).st.slice = false ∧ (s.lane x).st.bist = some b ∧ b.slices ≠ []) ∧
    (∃ (x : LaneId) (s : State), (s.lane x).up = true ∧ (s.lane x).st.slice = false ∧ ((s.lane x).st.bist.all fun b => b.slices.isEmpty) = true) ∧
    (∃ (x : LaneId) (b : Bist) (s : State), (s.lane x).up = true ∧ (s.lane x).st.bist = some b ∧ b.slices = [] ∧ (s.lane x).st.slice = false) ∧
    (∃ (x : LaneId) (s : State), (s.lane x).up = true ∧ ((s.lane x).st.slice = true ∨ ((s.lane x).st.bist.all fun b => !b.slices.isEmpty) = true)) ∧
    (∃ (x : LaneId) (s : State), (s.lane x).up = true ∧ (s.lane x).permits .logicTest = true ∧ (s.lane x).get Reg.CP_STAT_STATE = 3 ∧ (s.lane x).st.lbist = none) ∧
    (∃ (x : LaneId) (s : State), (s.lane x).up = true ∧ (s.lane x).permits .logicTest = false) ∧
    (∃ (x : LaneId) (s : State), (s.lane x).up = true ∧ (s.lane x).permits .logicTest = true ∧ ((s.lane x).get Reg.CP_STAT_STATE ≠ 3 ∨ (s.lane x).st.lbist ≠ none)) ∧
    (∃ (x : LaneId) (core : Nat) (s : State), (s.lane x).up = true ∧ (s.lane x).st.lbist = some core) ∧
    (∃ (x : LaneId) (s : State), (s.lane x).up = true ∧ (s.lane x).st.lbist = none) ∧
    (∃ (x : LaneId) (s : State), (s.lane x).up = true ∧ (s.lane x).st.burn = none ∧ (s.lane x).permits .fuseRepair = true ∧ (s.lane x).burnFit = true) ∧
    (∃ (x : LaneId) (s : State), (s.lane x).up = true ∧ (s.lane x).st.burn = none ∧ (s.lane x).permits .fuseRepair = true ∧ (s.lane x).burnFit = false) ∧
    (∃ (x : LaneId) (s : State), (s.lane x).up = true ∧ (s.lane x).st.burn = none ∧ (s.lane x).permits .fuseRepair = false) ∧
    (∃ (x : LaneId) (s : State), (s.lane x).up = true ∧ (s.lane x).st.burn ≠ none) ∧
    (∃ (x : LaneId) (es : List Nat) (s : State), (s.lane x).up = true ∧ (s.lane x).st.burn = some es ∧ (s.lane x).nvOpen = true) ∧
    (∃ (x : LaneId) (es : List Nat) (s : State), (s.lane x).up = true ∧ (s.lane x).st.burn = some es ∧ (s.lane x).nvOpen = false) ∧
    (∃ (x : LaneId) (s : State), (s.lane x).up = true ∧ (s.lane x).st.burn = none) :=
  ⟨⟨.A, 0, (laneA [put Reg.ST_CTRL_CANARY 1]), by decide +kernel⟩,
    ⟨.A, (laneA [put Reg.ST_CTRL_CANARY 0]), by decide +kernel⟩,
    ⟨.A, (laneA [(fun L => { L with st := { L.st with slice := true, next := 2047 } })]), by decide +kernel⟩,
    ⟨.A, (laneA [(fun L => { L with st := { L.st with slice := true, next := 2047 } })]), by decide +kernel⟩,
    ⟨.A, ⟨none, [5, 6], 0, false⟩, (laneA [(fun L => { L with st := { L.st with bist := some ⟨none, [5, 6], 0, false⟩ } })]), by decide +kernel⟩,
    ⟨.A, ⟨none, [5, 6], 0, false⟩, (laneA [(fun L => { L with st := { L.st with bist := some ⟨none, [5, 6], 0, false⟩ } })]), by decide +kernel⟩,
    ⟨.A, (laneA []), by decide +kernel⟩,
    ⟨.A, ⟨none, [], 0, false⟩, (laneA [(fun L => { L with st := { L.st with bist := some ⟨none, [], 0, false⟩ } })]), by decide +kernel⟩,
    ⟨.A, (laneA []), by decide +kernel⟩,
    ⟨.A, (laneA [put Reg.SYS_MODE_MODE 7, put Reg.CP_STAT_STATE 3]), by decide +kernel⟩,
    ⟨.A, (laneA []), by decide +kernel⟩,
    ⟨.A, (laneA [put Reg.SYS_MODE_MODE 7]), by decide +kernel⟩,
    ⟨.A, 1, (laneA [(fun L => { L with st := { L.st with lbist := some 1 } })]), by decide +kernel⟩,
    ⟨.A, (laneA []), by decide +kernel⟩,
    ⟨.A, (laneA [put Reg.SYS_MODE_MODE 6, warm]), by decide +kernel⟩,
    ⟨.A, (laneA [put Reg.SYS_MODE_MODE 6]), by decide +kernel⟩,
    ⟨.A, (laneA []), by decide +kernel⟩,
    ⟨.A, (laneA [(fun L => { L with st := { L.st with burn := some [5] } })]), by decide +kernel⟩,
    ⟨.A, [5], (laneA [(fun L => { L with st := { L.st with burn := some [5], repair := [5] } }), put Reg.TM_STAT_NVOPEN 1]), by decide +kernel⟩,
    ⟨.A, [5], (laneA [(fun L => { L with st := { L.st with burn := some [5], repair := [5] } })]), by decide +kernel⟩,
    ⟨.A, (laneA []), by decide +kernel⟩⟩

theorem test_meets_FaultCollection :
    (∃ (x : LaneId) (g : Fin 6) (v : Word) (i : Nat) (s : State), (s.lane x).awake = true ∧ (s.lane x).bit Reg.FM_CTRL_FENABLE = true ∧ i < 32 ∧ v.toNat = 2 ^ i ∧ sourceExists (32 * g.val + i) = true) ∧
    (∃ (x : LaneId) (v : Word) (i : Nat) (s : State), (s.lane x).awake = true ∧ (s.lane x).bit Reg.FM_CTRL_FENABLE = true ∧ v ≠ 0 ∧ i < 32) ∧
    (∃ (x : LaneId) (v : Word) (s : State), (s.lane x).awake = true ∧ (s.lane x).bit Reg.FM_CTRL_FENABLE = false ∧ v ≠ 0) ∧
    (∃ (x : LaneId) (s : State), (s.lane x).awake = true) ∧
    (∃ (x : LaneId) (i : Nat) (s : State), (s.lane x).awake = true ∧ i < 32) ∧
    (∃ (x : LaneId) (l : List Nat) (s : State), (s.lane x).awake = true ∧ (s.lane x).fm.trapSet = some l) ∧
    (∃ (x : LaneId) (s : State), (s.lane x).awake = true ∧ (s.lane x).fm.trapSet = none) ∧
    (∃ (x : LaneId) (t0 : Nat) (s : State), (s.lane x).awake = true ∧ (s.lane x).fm.lastE = some t0 ∧ t0 < (s.lane x).now) ∧
    (∃ (x : LaneId) (s : State), (s.lane x).awake = true ∧ ((s.lane x).fm.lastE.all fun t0 => decide ((s.lane x).now ≤ t0)) = true) ∧
    (∃ (x : LaneId) (t0 : Nat) (s : State), (s.lane x).awake = true ∧ (s.lane x).fm.lastE = some t0 ∧ ((s.reach x (t0 + 10000)).lane x).errpLow = false) ∧
    (∃ (x : LaneId) (t0 : Nat) (s : State), (s.lane x).awake = true ∧ (s.lane x).fm.lastE = some t0 ∧ ((s.reach x (t0 + 10000)).lane x).errpLow = true) ∧
    (∃ (x : LaneId) (s : State), (s.lane x).fm.lastE = none) ∧
    (∃ (x : LaneId) (n : Fin 192) (T : Nat) (s : State), (s.lane x).awake = true ∧ (s.lane x).quietDue n = some T) ∧
    (∃ (x : LaneId) (n : Fin 192) (s : State), (s.lane x).quietDue n = none) :=
  ⟨⟨.A, 0, 0x200, 9, (laneA [put Reg.FM_CTRL_FENABLE 1]), by decide +kernel⟩,
    ⟨.A, 0x200, 9, (laneA [put Reg.FM_CTRL_FENABLE 1]), by decide +kernel⟩,
    ⟨.A, 1, (laneA []), by decide +kernel⟩,
    ⟨.A, (laneA []), by decide +kernel⟩,
    ⟨.A, 9, (laneA [put (Reg.FM_STATUS_STATUS 0) 0x200]), by decide +kernel⟩,
    ⟨.A, [9], (laneA [(fun L => { L with fm := { L.fm with trapSet := some [9], trapBits := [9, 7] } })]), by decide +kernel⟩,
    ⟨.A, (laneA [(fun L => { L with fm := { L.fm with trapBits := [9] } })]), by decide +kernel⟩,
    ⟨.A, 5, (laneA [(fun L => { L with fm := { L.fm with lastE := some 5 } }), (fun L => { L with tb := { L.tb with local_ := 6 } })]), by decide +kernel⟩,
    ⟨.A, (laneA [(fun L => { L with fm := { L.fm with lastE := some 5 } })]), by decide +kernel⟩,
    ⟨.A, 5, (laneA [(fun L => { L with fm := { L.fm with lastE := some 5, prel := true } })]), by decide +kernel⟩,
    ⟨.A, 5, (laneA [(fun L => { L with fm := { L.fm with lastE := some 5 } })]), by decide +kernel⟩,
    ⟨.A, (laneA []), by decide +kernel⟩,
    ⟨.A, 9, 100000, (laneA [put (Reg.FM_REACT_COMPAT 9) 1, put (Reg.FM_STATUS_STATUS 0) 0x200]), by decide +kernel⟩,
    ⟨.A, 9, (laneA []), by decide +kernel⟩⟩

theorem test_meets_WritesOnTheBus :
    (∃ (x : LaneId) (addr : Word) (s : State), (s.lane x).up = true ∧ ((placeOf addr.toNat = .mram ∨ placeOf addr.toNat = .sram ∨ placeOf addr.toNat = .retention))) ∧
    (∃ (x : LaneId) (addr : Word) (s : State), (s.lane x).up = true ∧ (placeOf addr.toNat = .nothing ∨ placeOf addr.toNat = .records)) ∧
    (∃ (x : LaneId) (addr : Word) (s : State), (s.lane x).up = true ∧ (placeOf addr.toNat = .rom ∨ (addr.toNat / 0x10000 = 0x4012 ∨ (addr.toNat / 0x10000 = 0x4014 ∨ (regFields x (addr.toNat / 4 * 4) = none ∧ (addr.toNat / 0x10000 = 0x400E ∨ addr.toNat / 0x10000 = 0x4002)))))) ∧
    (∃ (x : LaneId) (addr : Word) (v : Word) (fs : List Fld) (s : State), (s.lane x).up = true ∧ regFields (s.lane x).me (addr.toNat / 4 * 4) = some fs ∧ ((addr.toNat / 0x10000 = 0x400E ∧ ((s.lane x).bit Reg.TM_CFG_LOCK && (s.lane x).changesLocked fs v.toNat) = false) ∨ ((addr.toNat / 0x10000 = 0x4000 ∧ (addr.toNat / 4 * 4 ≠ 0x40000108 ∧ (addr.toNat / 4 * 4 ≠ 0x40008004 ∧ ((s.lane x).bit Reg.SYS_MODE_CFG_LOCK && (s.lane x).changesLocked fs v.toNat) = false))) ∨ (addr.toNat / 0x10000 = 0x4002 ∧ (addr.toNat % 0x10000 < 0x10 ∨ 0x3C ≤ addr.toNat % 0x10000))))) ∧
    (∃ (x : LaneId) (addr : Word) (v : Word) (fs : List Fld) (s : State), (s.lane x).up = true ∧ regFields (s.lane x).me (addr.toNat / 4 * 4) = some fs ∧ addr.toNat / 0x10000 = 0x400E ∧ (s.lane x).bit Reg.TM_CFG_LOCK = true ∧ (s.lane x).changesLocked fs v.toNat = true) ∧
    (∃ (x : LaneId) (addr : Word) (v : Word) (fs : List Fld) (s : State), (s.lane x).up = true ∧ regFields (s.lane x).me (addr.toNat / 4 * 4) = some fs ∧ addr.toNat / 0x10000 = 0x4000 ∧ addr.toNat / 4 * 4 ≠ 0x40000108 ∧ addr.toNat / 4 * 4 ≠ 0x40008004 ∧ (s.lane x).bit Reg.SYS_MODE_CFG_LOCK = true ∧ (s.lane x).changesLocked fs v.toNat = true) ∧
    (∃ (x : LaneId) (addr : Word) (s : State), (s.lane x).up = true ∧ placeOf addr.toNat = .registers) :=
  ⟨⟨.A, 0x103BFFFF, (laneA []), by decide +kernel⟩,
    ⟨.A, 0x00010000, (laneA []), by decide +kernel⟩,
    ⟨.A, 0x0000FFFF, (laneA []), by decide +kernel⟩,
    ⟨.A, 0x400E0004, 5, [Reg.TM_CFG_LOCK, Reg.TM_CFG_TPRIO], (laneA []), by decide +kernel⟩,
    ⟨.A, 0x400E0004, 5, [Reg.TM_CFG_LOCK, Reg.TM_CFG_TPRIO], (laneA [put Reg.TM_CFG_LOCK 1]), by decide +kernel⟩,
    ⟨.A, 0x4000010C, 0x80000005, [{ addr := 1073742092, lo := 31, width := 1, acc := Sys2Proof.Machine.Acc.w1s, por := 0, lrst := some 0, fix := Sys2Proof.Machine.Fix.any }, { addr := 1073742092, lo := 16, width := 4, acc := Sys2Proof.Machine.Acc.rwl, por := 3, lrst := some 3, fix := Sys2Proof.Machine.Fix.any }, { addr := 1073742092, lo := 6, width := 10, acc := Sys2Proof.Machine.Acc.rwl, por := 500, lrst := some 500, fix := Sys2Proof.Machine.Fix.clamp 1 1023 }, { addr := 1073742092, lo := 5, width := 1, acc := Sys2Proof.Machine.Acc.rwl, por := 0, lrst := some 0, fix := Sys2Proof.Machine.Fix.any }, { addr := 1073742092, lo := 4, width := 1, acc := Sys2Proof.Machine.Acc.rwl, por := 0, lrst := some 0, fix := Sys2Proof.Machine.Fix.any }, { addr := 1073742092, lo := 3, width := 1, acc := Sys2Proof.Machine.Acc.rwl, por := 0, lrst := some 0, fix := Sys2Proof.Machine.Fix.any }, { addr := 1073742092, lo := 2, width := 1, acc := Sys2Proof.Machine.Acc.rwl, por := 0, lrst := some 0, fix := Sys2Proof.Machine.Fix.any }, { addr := 1073742092, lo := 1, width := 1, acc := Sys2Proof.Machine.Acc.rwl, por := 1, lrst := some 1, fix := Sys2Proof.Machine.Fix.any }], (laneA [put Reg.SYS_MODE_CFG_LOCK 1]), by decide +kernel⟩,
    ⟨.A, 0x4014FFFF, (laneA []), by decide +kernel⟩⟩

end Sys2Proof.Tests
end

section
/-! The loop engine's instructions: what one instruction of the running program does to the machine (R135, R137, R148 to R158). The two shapes
are `RunBecomes` (the running program alone changes) and `Writes` (words of the signal store change with it); each is reached from the meaning
of an instruction by one theorem, `Running.becomes` and `Running.writes`. -/

namespace Sys2Proof.Machine

/-! ### The stores of a lane that has noted its held causes -/

@[simp] theorem Lane.noteHeld_now (L : Lane) : L.noteHeld.now = L.now := rfl
@[simp] theorem Lane.noteHeld_prog (L : Lane) (i : Nat) : L.noteHeld.prog i = L.prog i := rfl
@[simp] theorem Lane.noteHeld_sig (L : Lane) (a : Nat) : L.noteHeld.sig a = L.sig a := rfl
@[simp] theorem Lane.noteHeld_sigI (L : Lane) (a : Nat) : L.noteHeld.sigI a = L.sigI a := rfl

/-! ### Operands and arithmetic -/

theorem dOf_lt (w : Nat) : dOf w < 4096 := Nat.mod_lt _ (by decide)

/-- A word read as signed lies in the signed 32-bit range. -/
theorem sgn32_natAbs_le (v : Nat) : (sgn 32 v).natAbs ≤ 2 ^ 31 := by
  unfold sgn; split <;> omega

theorem Lane.sigI_natAbs_le (L : Lane) (a : Nat) : (L.sigI a).natAbs ≤ 2 ^ 31 := sgn32_natAbs_le _

/-- The term a MAC adds is the exact product of R149, for each choice of sign, of factor and of the factor's format by MOD[3:1]. -/
theorem Lane.macTerm_eq_product (L : Lane) (w : Nat) : L.macTerm w = L.product w := by
  funext i
  unfold Lane.macTerm Lane.product
  cases bitAt (modOf w) 3 <;> cases bitAt (modOf w) 2 <;> cases bitAt (modOf w) 1 <;> simp [Int.mul_assoc, Int.neg_mul]

/-- An accumulator of its own holds one product of two signal words without a limit, so that the product is rounded once (R151). -/
theorem sumRound_one {p : Int} (h : p.natAbs ≤ 2 ^ 31 * 2 ^ 31) :
    sumRound [p] = (satW 32 (roundDiv p (2 ^ 30)), satHit 32 (roundDiv p (2 ^ 30))) := by
  have hacc : accAdd (0, false) p = (p, false) := by
    unfold accAdd accLim
    simp only [Int.zero_add]
    rw [if_neg (by omega), if_neg (by omega)]
  simp [sumRound, accSum, hacc, accRound]

/-! ### Words written to the signal store -/

theorem Lane.sig_setSig (L : Lane) (a b v : Nat) :
    (L.setSig a v).sig b = if b % 4096 = a % 4096 then v % 2 ^ 32 else L.sig b := spGet_set ..

/-- Words written change the signal store alone. -/
theorem Lane.setSigs_eq (ws : List Nat) : ∀ (L : Lane) (a : Nat),
    L.setSigs a ws = { L with le := { L.le with sig := (L.setSigs a ws).le.sig } } := by
  induction ws with
  | nil => intros; rfl
  | cons v t ih => intro L a; exact ih (L.setSig a v) (a + 1)

/-- Words written leave the words beside them. -/
theorem Lane.sig_setSigs_other (ws : List Nat) : ∀ (L : Lane) (d a : Nat),
    (∀ i, i < ws.length → (d + i) % 4096 ≠ a % 4096) → (L.setSigs d ws).sig a = L.sig a := by
  induction ws with
  | nil => intros; rfl
  | cons v t ih =>
    intro L d a h
    have htail : ∀ i, i < t.length → (d + 1 + i) % 4096 ≠ a % 4096 := fun i hi => by
      have := h (i + 1) (Nat.succ_lt_succ hi); rwa [Nat.add_right_comm]
    have hhead : a % 4096 ≠ d % 4096 := (h 0 (Nat.succ_pos _)).symm
    exact (ih _ _ _ htail).trans ((L.sig_setSig d a v).trans (if_neg hhead))

/-- Words written below the end of the store read as they were written. -/
theorem Lane.sig_setSigs_same (ws : List Nat) : ∀ (L : Lane) (d i : Nat), d + ws.length ≤ 4096 → i < ws.length →
    (L.setSigs d ws).sig (d + i) = nth ws i % 2 ^ 32 := by
  induction ws with
  | nil => intro L d i _ hi; exact absurd hi (Nat.not_lt_zero _)
  | cons v t ih =>
    intro L d i hd hi
    rw [List.length_cons] at hd hi
    cases i with
    | zero =>
      have hout : ∀ j, j < t.length → (d + 1 + j) % 4096 ≠ (d + 0) % 4096 := by intro j hj; omega
      exact (Lane.sig_setSigs_other t _ _ _ hout).trans ((L.sig_setSig d d v).trans (if_pos rfl))
    | succ j =>
      have := ih (L.setSig d v) (d + 1) j (by omega) (by omega)
      rwa [Nat.add_right_comm] at this

/-! ### The watch of the end-stop bits (R268) -/

/-- The fields that the end of a declared lock may change. -/
abbrev lockRegs : Nat → Bool := fields [] [Reg.FC_BR_STAT_LOCKED 0, Reg.FC_BR_STAT_LOCKED 1]

/-- What `Lane.esWatch` does for one bridge. -/
def Lane.esWatchBr (L L0 : Lane) (b : Nat) : Lane := if L.endStop b || L0.endStop b then L.lockRestart b else L

theorem Lane.esWatch_eq (L L0 : Lane) : L.esWatch L0 = (L.esWatchBr L0 0).esWatchBr L0 1 := rfl

theorem Lane.lockRestart_touches (L : Lane) {b : Nat} (h : b < 2) : Touches [.fc] lockRegs L (L.lockRestart b) := by
  have hkey : ∀ b, b < 2 → lockRegs (Reg.FC_BR_STAT_LOCKED b).key = true := by decide
  exact (Touches.of_fc (by decide) _).trans (Touches.set 0 (hkey b h))

theorem Lane.esWatchBr_touches (L L0 : Lane) {b : Nat} (h : b < 2) : Touches [.fc] lockRegs L (L.esWatchBr L0 b) := by
  unfold Lane.esWatchBr
  split
  · exact L.lockRestart_touches h
  · exact Touches.refl ..

theorem Lane.esWatch_touches (L L0 : Lane) : Touches [.fc] lockRegs L (L.esWatch L0) :=
  (L.esWatchBr_touches L0 (by decide)).trans (Lane.esWatchBr_touches _ L0 (by decide))

@[simp] theorem Lane.esWatch_le (L L0 : Lane) : (L.esWatch L0).le = L.le :=
  (L.esWatch_touches L0).le.resolve_left (by decide)

theorem Lane.sig_of_le {L M : Lane} (h : M.le = L.le) (a : Nat) : M.sig a = L.sig a := by simp [Lane.sig, h]

@[simp] theorem Lane.esWatch_sig (L L0 : Lane) (a : Nat) : (L.esWatch L0).sig a = L.sig a := Lane.sig_of_le (L.esWatch_le L0) a

theorem lockRegs_lockTime : ∀ b, b < 2 →
    ∀ f ∈ [Reg.FC_LOCK_TIME_EN_ES b, Reg.FC_LOCK_TIME_ESADDR b, Reg.FC_LOCK_TIME_ESBIT b], lockRegs f.key = false := by
  decide

/-- The watch itself moves no end-stop bit. -/
theorem Lane.esWatch_endStop (L L0 : Lane) {b : Nat} (h : b < 2) : (L.esWatch L0).endStop b = L.endStop b := by
  have hget : ∀ f ∈ [Reg.FC_LOCK_TIME_EN_ES b, Reg.FC_LOCK_TIME_ESADDR b, Reg.FC_LOCK_TIME_ESBIT b], (L.esWatch L0).get f = L.get f :=
    fun f hf => (L.esWatch_touches L0).regs f (lockRegs_lockTime b h f hf)
  simp only [List.forall_mem_cons] at hget
  obtain ⟨hen, haddr, hbit, -⟩ := hget
  simp only [Lane.endStop, Lane.bit, hen, haddr, hbit, Lane.esWatch_sig]

/-- With no end-stop bit set before or now the watch does nothing. -/
theorem Lane.esWatch_idle {L L0 : Lane} (h : ∀ b, b < 2 → L0.endStop b = false ∧ L.endStop b = false) : L.esWatch L0 = L := by
  have hbr : ∀ b, b < 2 → L.esWatchBr L0 b = L := fun b hb => by simp [Lane.esWatchBr, h b hb]
  rw [Lane.esWatch_eq, hbr 0 (by decide), hbr 1 (by decide)]

/-! ### What an instruction writes -/

/-- A write that lies wholly above the input window stores its words, sets the flags, moves on and looks at the end-stop bits. -/
theorem Lane.leWrite_above (L : Lane) (r : LeRun) (rest : List LeRun) {d : Nat} {out : List Nat} (sat : Option Bool)
    (hd : 128 ≤ d) (hn : d + out.length ≤ 4096) :
    L.leWrite r rest d out [] sat = ((L.setSigs d out).setRuns (r.wrote (nth out 0) sat :: rest)).esWatch L := by
  have hwin : ((List.range out.length).map fun i => (d + i) % 4096).any (· < 128) = false := by
    simp only [List.any_map, List.any_eq_false, List.mem_range, Function.comp_apply, decide_eq_true_eq]
    intro i hi
    omega
  simp only [Lane.leWrite, List.map_nil, List.append_nil, hwin, Bool.false_eq_true, if_false, List.foldl_nil, Lane.goOn, LeRun.wrote]

/-- A write of one word into the input window is refused (R137). -/
theorem Lane.leWrite_window (L : Lane) (r : LeRun) (rest : List LeRun) {d : Nat} (v : Nat) (sat : Option Bool) (hd : d < 128) :
    L.leWrite r rest d [v] [] sat = (L.goOn r rest 1).raise 35 := by
  have hmod : d % 4096 < 128 := by omega
  simp [Lane.leWrite, hmod]

/-- The words written, the run moved on and the end-stop bits watched make up `Writes`. -/
theorem Writes.of_leWrite (x : LaneId) (s : State) (r : LeRun) (rest : List LeRun) {d : Nat} {out : List Nat} (sat : Option Bool)
    (hd : 128 ≤ d) (hn : d + out.length ≤ 4096) :
    Writes x s (s.setLane x ((s.lane x).noteHeld.leWrite r rest d out [] sat)) r rest d out sat := by
  rw [Lane.leWrite_above _ r rest sat hd hn]
  generalize hM : ((s.lane x).noteHeld.setSigs d out).setRuns (r.wrote (nth out 0) sat :: rest) = M
  have hle : M = { (s.lane x).noteHeld with
      le := { (s.lane x).le with sig := M.le.sig, runs := r.wrote (nth out 0) sat :: rest } } := by
    rw [← hM, Lane.setSigs_eq]; rfl
  have hsig : ∀ a, M.sig a = ((s.lane x).noteHeld.setSigs d out).sig a := fun a => by rw [← hM]; rfl
  have htouch : Touches [.le, .fm] noRegs (s.lane x) M := by
    rw [hle]
    exact (Touches.noteHeld _ _ (by decide) _).trans (Touches.of_le (by decide) _)
  refine ⟨OnlyLane.setLane .., ?touches, ?free, ?words, ?others, ?le⟩ <;> rw [State.lane_setLane_same]
  case touches =>
    exact (htouch.mono (by decide) fun _ _ => rfl).trans ((M.esWatch_touches _).mono (by decide) fun _ h => h)
  case free =>
    intro hstop
    have hidle : M.esWatch (s.lane x).noteHeld = M :=
      Lane.esWatch_idle fun b hb => ⟨(hstop b hb).1, (M.esWatch_endStop _ hb).symm.trans (hstop b hb).2⟩
    rwa [hidle]
  case words =>
    intro i hi
    rw [Lane.esWatch_sig, hsig, Lane.sig_setSigs_same _ _ _ _ hn hi]
  case others =>
    intro a ha
    rw [Lane.esWatch_sig, hsig, Lane.sig_setSigs_other _ _ _ _ ha, Lane.noteHeld_sig]
  case le =>
    rw [Lane.esWatch_le]
    exact congrArg Lane.le hle

/-! ### One instruction of the running program -/

section Instruction
variable {x : LaneId} {op : Nat} {s : State} {r : LeRun} {rest : List LeRun} {w : Nat}
  {i : Instr} {body : Lane → LeRun → List LeRun → Nat → Lane}

/-- The program that runs in a lane runs its instruction, once the lane has noted its held causes. -/
theorem Running.leStep_eq (h : Running x op s r rest w) :
    leStep x op .clean body s = .next (s.setLane x (body (s.lane x).noteHeld r rest w)) := by
  obtain ⟨hup, hruns, hdl, hwait, hword, hop⟩ := h
  have hnow : ¬ r.deadline ≤ (s.lane x).now := Nat.not_le.mpr hdl
  rw [leStep, onUp_eq hup]
  simp [hruns, hwait, hnow, hword, hop]

/-- An instruction whose meaning replaces the running program does nothing else. -/
theorem Running.becomes {q : LeRun} (h : Running x op s r rest w) (hi : exec i s = leStep x op .clean body s)
    (hb : body (s.lane x).noteHeld r rest w = (s.lane x).noteHeld.setRuns (q :: rest)) :
    ∃ t, exec i s = .next t ∧ RunBecomes x s t q rest := by
  rw [hi, h.leStep_eq, hb]
  refine ⟨_, rfl, OnlyLane.setLane .., ?touches, ?le⟩ <;> rw [State.lane_setLane_same]
  case touches => exact (Touches.noteHeld _ _ (by decide) _).trans (Touches.of_le (by decide) _)
  case le => rfl

/-- An instruction whose meaning is a write above the input window writes its words and sets its flags. -/
theorem Running.writes {d : Nat} {out : List Nat} {sat : Option Bool} (h : Running x op s r rest w)
    (hi : exec i s = leStep x op .clean body s)
    (hb : body (s.lane x).noteHeld r rest w = (s.lane x).noteHeld.leWrite r rest d out [] sat)
    (hd : 128 ≤ d) (hn : d + out.length ≤ 4096) :
    ∃ t, exec i s = .next t ∧ Writes x s t r rest d out sat := by
  rw [hi, h.leStep_eq, hb]
  exact ⟨_, rfl, Writes.of_leWrite x s r rest sat hd hn⟩

/-- An instruction whose meaning is a write of one word into the input window raises "LE write refused" and goes on (R137). -/
theorem Running.writeRefused {d v : Nat} {sat : Option Bool} (h : Running x op s r rest w) (hi : exec i s = leStep x op .clean body s)
    (hb : body (s.lane x).noteHeld r rest w = (s.lane x).noteHeld.leWrite r rest d [v] [] sat) (hd : d < 128) :
    ∃ t, exec i s = .next t ∧ OnlyLane x s t ∧ Raised 35 (s.lane x) (t.lane x) ∧
      (t.lane x).le = { (s.lane x).le with runs := { r with pc := (r.pc + 1) % 4096 } :: rest } ∧
      Touches (.le :: raiseParts 35) (raiseRegs 35) (s.lane x) (t.lane x) := by
  rw [hi, h.leStep_eq, hb, Lane.leWrite_window _ r rest v sat hd]
  obtain ⟨hraised, htouch, -⟩ := ((s.lane x).noteHeld.goOn r rest 1).raise_effect (n := 35) (by decide) 0
  refine ⟨_, rfl, OnlyLane.setLane .., ?raised, ?le, ?touches⟩ <;> rw [State.lane_setLane_same]
  case raised => exact ⟨hraised.status, hraised.tally, hraised.others⟩
  case le => exact htouch.le.resolve_left (by decide)
  case touches =>
    have hbefore : Touches (.le :: raiseParts 35) (raiseRegs 35) (s.lane x) ((s.lane x).noteHeld.goOn r rest 1) :=
      (Touches.noteHeld _ _ (by decide) _).trans (Touches.of_le (by decide) _)
    exact hbefore.trans (htouch.mono (List.subset_cons_self ..) fun _ h => h)

/-- The write of one word at s[D]. -/
theorem Running.writesWord {v : Nat} {sat : Option Bool} (h : Running x op s r rest w) (hi : exec i s = leStep x op .clean body s)
    (hb : body (s.lane x).noteHeld r rest w = (s.lane x).noteHeld.leWrite r rest (dOf w) [v] [] sat) (hd : 128 ≤ dOf w) :
    ∃ t, exec i s = .next t ∧ Writes x s t r rest (dOf w) [v] sat :=
  h.writes hi hb hd (dOf_lt w)

end Instruction

/-! ### The meanings of the instructions (Table 3.7) -/

section Arms
variable (x : LaneId) (e : Ecc) (s : State)

theorem exec_leNop : exec (.leNop x e) s = execLeNop x e s := rfl
theorem exec_leClr : exec (.leClr x e) s = execLeClr x e s := rfl
theorem exec_leLda : exec (.leLda x e) s = execLeLda x e s := rfl
theorem exec_leMac : exec (.leMac x e) s = execLeMac x e s := rfl
theorem exec_leMacr : exec (.leMacr x e) s = execLeMacr x e s := rfl
theorem exec_leSta : exec (.leSta x e) s = execLeSta x e s := rfl
theorem exec_leMov : exec (.leMov x e) s = execLeMov x e s := rfl
theorem exec_leLdc : exec (.leLdc x e) s = execLeLdc x e s := rfl
theorem exec_leAdd : exec (.leAdd x e) s = execLeAdd x e s := rfl
theorem exec_leMul : exec (.leMul x e) s = execLeMul x e s := rfl
theorem exec_leSat : exec (.leSat x e) s = execLeSat x e s := rfl
theorem exec_leSel : exec (.leSel x e) s = execLeSel x e s := rfl

end Arms

/-! ### The obligations -/

/-- Settles O20: each meaning is `goOn` of the run with its new accumulator; MAC and MACR add the products of R149 by `macTerm_eq_product`. -/
theorem leAccumulatorInstructions : Obligations.LeAccumulatorInstructions := by
  unfold Obligations.LeAccumulatorInstructions
  refine ⟨?nop, ?clr, ?lda, ?mac, ?macr⟩ <;> intro x s r rest w h
  case nop => exact h.becomes (exec_leNop x .clean s) rfl
  case clr => exact h.becomes (exec_leClr x .clean s) rfl
  case lda => exact h.becomes (exec_leLda x .clean s) rfl
  case mac =>
    refine h.becomes (exec_leMac x .clean s) ?_
    simp only [Lane.macTerm_eq_product]
    rfl
  case macr =>
    refine h.becomes (exec_leMacr x .clean s) ?_
    simp only [Lane.macTerm_eq_product]
    rfl

/-- Settles O21: each meaning is one `leWrite` at s[D], which `Running.writesWord` follows above the input window and `Running.writeRefused` in it. -/
theorem leWordInstructions : Obligations.LeWordInstructions := by
  unfold Obligations.LeWordInstructions
  refine ⟨?sta, ?mov, ?ldc, ?add, ?sub, ?mul, ?sat, ?sel, ?refused⟩ <;> intro x s r rest w h hd
  case sta => exact h.writesWord (exec_leSta x .clean s) rfl hd
  case mov => exact h.writesWord (exec_leMov x .clean s) rfl hd
  case ldc => exact h.writesWord (exec_leLdc x .clean s) rfl hd
  case add =>
    intro hm
    refine h.writesWord (exec_leAdd x .clean s) ?_ hd
    simp [hm, satWord]
  case sub =>
    intro hm
    refine h.writesWord (exec_leAdd x .clean s) ?_ hd
    simp [hm, satWord, Int.sub_eq_add_neg]
  case mul =>
    have hp : ((s.lane x).sigI (aOf w) * (s.lane x).sigI (bOf w)).natAbs ≤ 2 ^ 31 * 2 ^ 31 := by
      rw [Int.natAbs_mul]
      exact Nat.mul_le_mul (Lane.sigI_natAbs_le _ _) (Lane.sigI_natAbs_le _ _)
    refine h.writesWord (exec_leMul x .clean s) ?_ hd
    simp only [Lane.noteHeld_sigI, sumRound_one hp]
  case sat =>
    intro hm
    refine h.writesWord (exec_leSat x .clean s) ?_ hd
    simp [Lane.windupWord, hm]
  case sel => exact h.writesWord (exec_leSel x .clean s) rfl hd
  case refused => exact h.writeRefused (exec_leMov x .clean s) rfl hd

end Sys2Proof.Machine
end

section
/-! Field control: what the carrier write, the requests of a bridge, catch, the locked rotor and the offset calibration do to a lane (R224, R251 to
R257, R267, R275). A command acts by `onUp_acts` or `atDue_acts`; what raises a source goes by `Touches.thenRaise`; a bridge stops by the laws of
`Lane.toOff`, and no event of a source sets it going again (`Lane.raise_staysOff`). -/

namespace Sys2Proof.Machine

/-! ### A command that acts on one lane -/

theorem onUp_acts {x : LaneId} {s : State} {i : Instr} {f : Lane → Lane} (hup : (s.lane x).up = true) (hi : exec i s = onUp x f s) :
    ∃ t, exec i s = .next t ∧ OnlyLane x s t ∧ t.lane x = f (s.lane x).noteHeld :=
  ⟨_, hi.trans (onUp_eq hup f), OnlyLane.setLane .., State.lane_setLane_same ..⟩

theorem atDue_acts {x : LaneId} {s : State} {i : Instr} {due : Lane → Option Nat} {f : Lane → Lane} {T : Nat} (hup : (s.lane x).up = true)
    (hdue : due (s.lane x) = some T) (hi : exec i s = atDue x due f s) :
    ∃ t, exec i s = .next t ∧ OnlyLane x (s.reach x T) t ∧ t.lane x = f ((s.reach x T).lane x).noteHeld :=
  ⟨_, hi.trans (atDue_eq hup hdue f), OnlyLane.setLane .., State.lane_setLane_same ..⟩

/-! ### Registers and lists of updates -/

theorem Lane.bit_set_one (L : Lane) {f : Fld} (h : 0 < f.width) : (L.set f 1).bit f = true := by
  have : 1 < 2 ^ f.width := Nat.one_lt_two_pow (Nat.pos_iff_ne_zero.mp h)
  simp [Lane.bit, Nat.mod_eq_of_lt this]

theorem Lane.bit_of_get {L M : Lane} {f : Fld} (h : M.get f = L.get f) : M.bit f = L.bit f := by rw [Lane.bit, h, Lane.bit]

theorem Lane.get_count_same (L : Lane) (f : Fld) : (L.count f).get f = min (L.get f + 1) (2 ^ f.width - 1) := by
  unfold Lane.count
  split
  · next h => rw [Lane.get_set_same, Nat.mod_eq_of_lt h]; omega
  · have hpos := Nat.two_pow_pos f.width
    have hlt := L.get_lt f
    rw [Lane.get_set_same, Nat.mod_eq_of_lt (by omega)]; omega

theorem Lane.event_get (L : Lane) (e : Nat) {f : Fld} (h : tsRegs f.key = false) : (L.event e).get f = L.get f :=
  (L.event_touches e).regs f h

/-- What each update of a list keeps, all of them keep. -/
theorem Lane.forEach_keeps {α : Type} {p : Lane → Prop} {f : α → Lane → Lane} {l : List α} (hf : ∀ a ∈ l, ∀ M, p M → p (f a M))
    {L : Lane} (h : p L) : p (L.forEach l f) := by
  induction l generalizing L with
  | nil => exact h
  | cons a t ih => exact ih (fun b hb => hf b (List.mem_cons_of_mem a hb)) (hf a List.mem_cons_self L h)

/-- What one update of a list brings about and the others keep holds after all of them; `q` holds throughout. -/
theorem Lane.forEach_establishes {α : Type} {p q : Lane → Prop} {f : α → Lane → Lane} {a : α} (hq : ∀ a M, q M → q (f a M))
    (hset : ∀ M, q M → p (f a M)) (hkeep : ∀ a M, q M → p M → p (f a M))
    {l : List α} (hmem : a ∈ l) {L : Lane} (h : q L) : p (L.forEach l f) := by
  induction l generalizing L with
  | nil => exact absurd hmem List.not_mem_nil
  | cons c t ih =>
    rcases List.mem_cons.mp hmem with rfl | ht
    · exact (Lane.forEach_keeps (p := fun M => q M ∧ p M) (fun b _ M hM => ⟨hq b M hM.1, hkeep b M hM.1 hM.2⟩)
        (L := f a L) ⟨hq a L h, hset L h⟩).2
    · exact ih ht (hq c L h)

/-! ### What a source raised at the end of an update changes -/

theorem Touches.of_noteHeld {P : List Part} {w : Nat → Bool} {L M : Lane} (hp : Part.fm ∈ P) (h : Touches P w L.noteHeld M) : Touches P w L M :=
  (Touches.noteHeld P w hp L).trans h

theorem Touches.raisedNow_eq {P : List Part} {w : Nat → Bool} {L M : Lane} (h : Touches P w L M) (hfm : Part.fm ∉ P) (htb : Part.tb ∉ P) (n : Nat) :
    M.raisedNow n = L.raisedNow n := by
  unfold Lane.raisedNow Lane.now
  rw [h.fm.resolve_left hfm, h.tb.resolve_left htb]

theorem fields_tally {wins : List Nat} {flds : List Fld} (hw : 0x400C ∉ wins) (hf : ∀ f ∈ flds, f.key / 0x200000 ≠ 0x400C) {k : Nat} (hk : k < 192) :
    fields wins flds (Reg.FM_TALLY_TALLY k).key = false := by
  have hwin : (Reg.FM_TALLY_TALLY k).key / 0x200000 = 0x400C := by simp [Reg.FM_TALLY_TALLY, Fld.key]; omega
  simp only [fields, hwin, Bool.or_eq_false_iff, List.any_eq_false, List.contains_eq_mem, decide_eq_false_iff_not, decide_eq_true_eq]
  exact ⟨hw, fun f hmem he => hf f hmem (he ▸ hwin)⟩

theorem Touches.ite {P : List Part} {w : Nat → Bool} {L M : Lane} {c : Prop} [Decidable c] (h : Touches P w L M) :
    Touches P w L (if c then M else L) := by
  split
  · exact h
  · exact Touches.refl ..

/-- A lane that has noted its held causes, taken to `M` outside FM and LOCAL, then raises a source: it is raised once, and what the two together
change is what each changes. -/
theorem Touches.thenRaise {P : List Part} {wins : List Nat} {flds : List Fld} {w : Nat → Bool} {L M : Lane} {n : Nat}
    (h : Touches P (fields wins flds) L.noteHeld M) (hn : n < 192) (hfm : Part.fm ∉ P) (htb : Part.tb ∉ P) (hP : P ⊆ raiseParts n)
    (hwin : 0x400C ∉ wins) (hflds : ∀ f ∈ flds, f.key / 0x200000 ≠ 0x400C)
    (hw : ∀ k, w k = false → raiseRegs n k = false ∧ fields wins flds k = false) (d : Nat) :
    Raised n L (M.raise n d) ∧ Touches (raiseParts n) w L (M.raise n d) := by
  obtain ⟨hraised, htouch, -⟩ := M.raise_effect hn d
  have hnow : M.raisedNow n = L.raisedNow n := h.raisedNow_eq hfm htb n
  have htally : ∀ k, k < 192 → M.get (Reg.FM_TALLY_TALLY k) = L.get (Reg.FM_TALLY_TALLY k) :=
    fun k hk => h.regs _ (fields_tally hwin hflds hk)
  refine ⟨⟨?status, ?tally, ?others⟩, ?touches⟩
  case status => rw [← hnow]; exact hraised.status
  case tally => rw [← hnow, ← htally n hn]; exact hraised.tally
  case others => exact fun k hk hne => (hraised.others k hk hne).trans (htally k hk)
  case touches =>
    exact .of_noteHeld (late_sub n (by decide)) ((h.mono hP fun k hk => (hw k hk).2).trans (htouch.mono (fun _ hp => hp) fun k hk => (hw k hk).1))

theorem raiseAnd_split {n : Nat} {extra : List Fld} {wins : List Nat} {flds : List Fld} (hw : wins ⊆ [0x4001])
    (hf : flds ⊆ refugeFlds ++ extra) (k : Nat) (hk : raiseAnd n extra k = false) : raiseRegs n k = false ∧ fields wins flds k = false := by
  obtain ⟨hr, he⟩ := Bool.or_eq_false_iff.mp hk
  refine ⟨hr, ?_⟩
  simp only [raiseRegs, fields, Bool.or_eq_false_iff, List.any_eq_false, List.contains_eq_mem, decide_eq_false_iff_not, decide_eq_true_eq] at hr he ⊢
  obtain ⟨hrw, hrf⟩ := hr
  refine ⟨fun hmem => hrw (List.mem_cons.mpr (.inl (List.mem_singleton.mp (hw hmem)))), fun f hmem => ?_⟩
  rcases List.mem_append.mp (hf hmem) with h | h
  · exact hrf f (List.mem_append_right _ h)
  · exact he.2 f h

/-- A command that does nothing but raise a source. -/
theorem onUp_raises {x : LaneId} {s : State} {i : Instr} {f : Lane → Lane} {n : Nat} (hup : (s.lane x).up = true) (hi : exec i s = onUp x f s)
    (hf : f (s.lane x).noteHeld = (s.lane x).noteHeld.raise n) (hn : n < 192) :
    ∃ t, exec i s = .next t ∧ OnlyLane x s t ∧ Raised n (s.lane x) (t.lane x) ∧
      Touches (raiseParts n) (raiseRegs n) (s.lane x) (t.lane x) := by
  obtain ⟨t, ht, honly, hlane⟩ := onUp_acts hup hi
  refine ⟨t, ht, honly, ?_⟩
  rw [hlane, hf]
  exact (Touches.refl [] noRegs _).thenRaise hn (by decide) (by decide) (List.nil_subset _) (by decide) (by decide) (fun _ hk => ⟨hk, rfl⟩) 0

/-! ### A bridge that stops (R252) -/

@[simp] theorem Lane.sw_setSw_same (L : Lane) (k : Nat) (w : Sw) : (L.setSw k w).sw k = w := spGet_set_same ..

theorem Lane.sw_setSw_other (L : Lane) {k j : Nat} (w : Sw) (h : j ≠ k) : (L.setSw k w).sw j = L.sw j := spGet_set_other _ _ _ h _

/-- The turning off of a switch leaves every control input as it is. -/
theorem Lane.sw_swOff_inp (L : Lane) (k j : Nat) : ((L.swOff k).sw j).inp = (L.sw j).inp := by
  by_cases h : j = k
  · subst h; unfold Lane.swOff; dsimp only; split <;> rw [Lane.sw_setSw_same]
  · unfold Lane.swOff; dsimp only; split <;> rw [Lane.sw_setSw_other _ _ h]

theorem Lane.sw_bridgeOff_inp {L : Lane} {j : Nat} (h : (L.sw j).inp = false) (b : Nat) : ((L.bridgeOff b).sw j).inp = false := by
  have hall : ((L.forEach (List.range 6) fun i L => L.swOff (6 * b + i)).sw j).inp = false :=
    Lane.forEach_keeps (p := fun M => (M.sw j).inp = false) (fun i _ M hM => (M.sw_swOff_inp _ j).trans hM) h
  unfold Lane.bridgeOff
  split
  · split
    · exact h
    · exact hall
  · exact hall

theorem Lane.sw_dropInputs_inp (L : Lane) (b : Nat) {k : Nat} (hk : k < 6) : ((L.dropInputs b).sw (6 * b + k)).inp = false := by
  refine Lane.forEach_establishes (p := fun M => (M.sw (6 * b + k)).inp = false) (q := fun _ => True) (a := k)
    (fun _ _ _ => trivial) (fun M _ => ?_) (fun i M _ hM => ?_) (List.mem_range.mpr hk) trivial
  · rw [Lane.sw_setSw_same]
  · by_cases h : 6 * b + k = 6 * b + i
    · rw [h, Lane.sw_setSw_same]
    · rwa [Lane.sw_setSw_other _ _ h]

theorem Lane.swOff_touches_gd (L : Lane) (k : Nat) : Touches [.gd] noRegs L (L.swOff k) := by
  unfold Lane.swOff
  dsimp only
  split <;> exact Touches.of_gd (by decide) _

theorem Lane.bridgeOff_touches_gd (L : Lane) (b : Nat) : Touches [.gd] noRegs L (L.bridgeOff b) := by
  have hall := Touches.forEach (f := fun i L => L.swOff (6 * b + i)) (fun _ M => M.swOff_touches_gd _) (List.range 6) L
  unfold Lane.bridgeOff
  split
  · split
    · exact Touches.refl ..
    · exact hall
  · exact hall

theorem Lane.dropInputs_touches_gd (L : Lane) (b : Nat) : Touches [.gd] noRegs L (L.dropInputs b) :=
  Touches.forEach (fun _ _ => Touches.of_gd (by decide) _) _ L

/-- A bridge's change of state changes its STATE, and TS by its event. -/
theorem Lane.setBrState_touches_own (L : Lane) (b st : Nat) :
    Touches [.ts, .cp] (fields [0x4001] [Reg.PM_STAT_STATE, Reg.FC_BR_STAT_STATE b]) L (L.setBrState b st) := by
  unfold Lane.setBrState
  split
  · exact Touches.refl ..
  · exact (Touches.set _ (by simp [fields])).trans ((Lane.event_touches _ _).mono (by decide) (fields_mono (by simp) (by simp)))

theorem tsRegs_bridge : ∀ b : Fin 2, ∀ f ∈ [Reg.FC_BR_STAT_STATE b, Reg.FC_BR_STAT_LOCKED b, Reg.FC_CNT_LOCK_COUNT b], tsRegs f.key = false := by
  decide

theorem Lane.get_setBrState_same (L : Lane) (b : Fin 2) {st : Nat} (h : st < 8) : (L.setBrState b st).get (Reg.FC_BR_STAT_STATE b) = st := by
  unfold Lane.setBrState
  split
  · assumption
  · rw [Lane.event_get _ _ (tsRegs_bridge b _ (by simp)), Lane.get_set_same]
    exact Nat.mod_eq_of_lt h

/-- The fields that the stopping of bridge `b` may change, its TS event among them. -/
abbrev brStopFlds (b : Nat) : List Fld := [Reg.PM_STAT_STATE, Reg.FC_BR_STAT_STATE b, Reg.FC_BR_STAT_DRIVE_OK b, Reg.FC_BR_STAT_RAMP b,
  Reg.FC_BR_CTRL_REQ b, Reg.XF_SHARE_OUT_SHARE b, Reg.GD_DIRECT_HS b, Reg.GD_DIRECT_LS b]

/-- What a stopping bridge clears before it changes state (Table 5.4, R252, R360). -/
def Lane.clearBridge (L : Lane) (b : Nat) : Lane :=
  let L1 := (L.set (Reg.FC_BR_STAT_DRIVE_OK b) 0).set (Reg.FC_BR_CTRL_REQ b) 0
  let L2 := (L1.set (Reg.XF_SHARE_OUT_SHARE b) 0).set (Reg.FC_BR_STAT_RAMP b) 0
  let L3 := (L2.set (Reg.GD_DIRECT_HS b) 0).set (Reg.GD_DIRECT_LS b) 0
  L3.setBr b { L3.br b with commits := [], pulse := [], pulsePrev := [], nPred := 0, forcing := 0, chosen := [], zeroLeft := 0, rampAt := none }

theorem Lane.toOff_eq (L : Lane) (b : Nat) : L.toOff b = (((L.clearBridge b).setBrState b 0).dropInputs b).bridgeOff b := rfl

theorem Lane.clearBridge_touches (L : Lane) (b : Nat) : Touches stopParts (fields [0x4001] (brStopFlds b)) L (L.clearBridge b) := by
  have hset : ∀ (M : Lane) (f : Fld), f ∈ brStopFlds b → Touches stopParts (fields [0x4001] (brStopFlds b)) M (M.set f 0) := fun M f hf =>
    Touches.set 0 (by rw [fields, Bool.or_eq_true, List.any_eq_true]; exact .inr ⟨f, hf, by simp⟩)
  exact ((((((hset _ _ (by simp)).trans (hset _ _ (by simp))).trans (hset _ _ (by simp))).trans (hset _ _ (by simp))).trans
    (hset _ _ (by simp))).trans (hset _ _ (by simp))).trans (Touches.of_fc (by decide) _)

theorem Lane.toOff_touches_own (L : Lane) (b : Nat) : Touches stopParts (fields [0x4001] (brStopFlds b)) L (L.toOff b) := by
  rw [Lane.toOff_eq]
  have hgd : ∀ {M N : Lane}, Touches [.gd] noRegs M N → Touches stopParts (fields [0x4001] (brStopFlds b)) M N := fun h =>
    h.mono (by decide) fun _ _ => rfl
  exact (((L.clearBridge_touches b).trans ((Lane.setBrState_touches_own _ b 0).mono (by decide) (fields_mono (by simp) (by simp)))).trans
    (hgd (Lane.dropInputs_touches_gd _ b))).trans (hgd (Lane.bridgeOff_touches_gd _ b))

/-- The switches keep every register as the bridge's change of state left it. -/
theorem Lane.toOff_get (L : Lane) (b : Nat) (f : Fld) : (L.toOff b).get f = ((L.clearBridge b).setBrState b 0).get f :=
  ((Lane.bridgeOff_touches_gd _ b).regs f rfl).trans ((Lane.dropInputs_touches_gd _ b).regs f rfl)

theorem Lane.toOff_state (L : Lane) (b : Fin 2) : (L.toOff b).get (Reg.FC_BR_STAT_STATE b) = 0 :=
  (L.toOff_get b _).trans (Lane.get_setBrState_same _ b (by decide))

theorem toOff_keys : ∀ b : Fin 2, ∀ f ∈ [Reg.FC_BR_STAT_DRIVE_OK b, Reg.FC_BR_CTRL_REQ b, Reg.XF_SHARE_OUT_SHARE b],
    fields [0x4001] [Reg.PM_STAT_STATE, Reg.FC_BR_STAT_STATE b] f.key = false := by decide

theorem Lane.clearBridge_get (L : Lane) : ∀ b : Fin 2, ∀ f ∈ [Reg.FC_BR_STAT_DRIVE_OK b, Reg.FC_BR_CTRL_REQ b, Reg.XF_SHARE_OUT_SHARE b],
    (L.clearBridge b).get f = 0 := by
  intro b
  have hsets : ∀ f, (L.clearBridge b).get f = ((((((L.set (Reg.FC_BR_STAT_DRIVE_OK b) 0).set (Reg.FC_BR_CTRL_REQ b) 0).set
      (Reg.XF_SHARE_OUT_SHARE b) 0).set (Reg.FC_BR_STAT_RAMP b) 0).set (Reg.GD_DIRECT_HS b) 0).set (Reg.GD_DIRECT_LS b) 0).get f := fun _ => rfl
  simp only [List.forall_mem_cons, List.not_mem_nil, false_imp_iff, implies_true, and_true, hsets]
  have hb : b = 0 ∨ b = 1 := by omega
  rcases hb with rfl | rfl <;> simp (disch := decide) only [Lane.get_set_other, Lane.get_set_same, Nat.zero_mod, and_self]

/-- DRIVE_OK, REQ and the share in force read 0 in a bridge that has stopped. -/
theorem Lane.toOff_cleared (L : Lane) (b : Fin 2) {f : Fld} (hf : f ∈ [Reg.FC_BR_STAT_DRIVE_OK b, Reg.FC_BR_CTRL_REQ b, Reg.XF_SHARE_OUT_SHARE b]) :
    (L.toOff b).get f = 0 :=
  ((L.toOff_get b f).trans ((Lane.setBrState_touches_own _ b 0).regs f (toOff_keys b f hf))).trans (L.clearBridge_get b f hf)

theorem Lane.toOff_inp (L : Lane) (b : Nat) {k : Nat} (hk : k < 6) : ((L.toOff b).sw (6 * b + k)).inp = false :=
  Lane.sw_bridgeOff_inp (Lane.sw_dropInputs_inp _ b hk) b

/-! ### An event of a source leaves a bridge in OFF there -/

theorem Lane.toOff_off {L : Lane} {b c : Fin 2} (h : L.get (Reg.FC_BR_STAT_STATE c) = 0) : (L.toOff b).get (Reg.FC_BR_STAT_STATE c) = 0 := by
  have hkey : ∀ b c : Fin 2, c ≠ b → fields [0x4001] (brStopFlds b) (Reg.FC_BR_STAT_STATE c).key = false := by decide
  by_cases hc : c = b
  · subst hc; exact L.toOff_state c
  · exact ((L.toOff_touches_own b).regs _ (hkey b c hc)).trans h

theorem Lane.allOff_state (L : Lane) (b : Fin 2) : L.allOff.get (Reg.FC_BR_STAT_STATE b) = 0 := by
  have hb : b = 0 ∨ b = 1 := by omega
  rcases hb with rfl | rfl
  · exact Lane.toOff_off (b := 1) (L.toOff_state 0)
  · exact Lane.toOff_state _ 1

theorem Lane.assertToff_state (L : Lane) (b : Fin 2) : L.assertToff.get (Reg.FC_BR_STAT_STATE b) = 0 := by
  unfold Lane.assertToff
  dsimp only
  split <;> exact Lane.allOff_state _ b

theorem Lane.refugeReset_state (L : Lane) (b : Fin 2) : L.refugeReset.get (Reg.FC_BR_STAT_STATE b) = 0 := by
  have hkeys : ∀ b : Fin 2, ∀ f ∈ [Reg.XF_VSTAT_SELF_CMD, Reg.VF_STAT_SELF_HM], (Reg.FC_BR_STAT_STATE b).key ≠ f.key := by decide
  have hclaim : ∀ md, (({ L.assertToff with md := md } : Lane).set Reg.XF_VSTAT_SELF_CMD 0).get (Reg.FC_BR_STAT_STATE b) = 0 := fun md =>
    (Lane.get_set_other _ 0 (hkeys b _ (by simp))).trans (L.assertToff_state b)
  show (Lane.stopOriginating _).get _ = 0
  unfold Lane.stopOriginating
  split
  · rw [Lane.event_get _ _ (tsRegs_bridge b _ (by simp)), Lane.get_set_other _ 0 (hkeys b _ (by simp))]
    exact hclaim _
  · exact hclaim _

/-- The fields that an event of a source whose reaction B resets no block may change before its reaction L. -/
abbrev bookRegs : Nat → Bool := fields [0x4001, 0x400C] [Reg.PM_STAT_STATE, Reg.HL_CNT_RLOST_COUNT]
abbrev BookTouch (L M : Lane) : Prop := Touches lateParts bookRegs L M

theorem Touches.setFm {L : Lane} {f : Fld} (v : Nat) (h : f.key / 0x200000 = 0x400C) : BookTouch L (L.set f v) :=
  Touches.set v (fields_win 0x400C (by decide) h)

theorem Lane.event_books (L : Lane) (e : Nat) : BookTouch L (L.event e) :=
  (L.event_touches e).mono (by decide) (fields_mono (by decide) (by decide))

theorem Lane.reportOn_books (L : Lane) (r rid : Nat) (args : List Nat) (k : Bool) : BookTouch L (L.reportOn r rid args k) :=
  (L.reportOn_touches r rid args k).mono (by decide) (fields_mono (by decide) (by decide))

theorem Lane.faultReport_books (L : Lane) (s w0 w1 : Nat) : BookTouch L (L.faultReport s w0 w1) := by
  unfold Lane.faultReport
  split
  · exact Touches.forEach (fun _ M => Lane.reportOn_books M ..) _ L
  · exact Touches.refl ..

theorem Lane.amendReport_books (L : Lane) (old new : List Nat) : BookTouch L (L.amendReport old new) :=
  Touches.forEach (fun r M => by
    dsimp only
    split
    · exact Touches.of_hl (by decide) _
    · exact Lane.reportOn_books ..) _ L

theorem Lane.writeHist_books (L : Lane) (seq w0 : Nat) : BookTouch L (L.writeHist seq w0) := by
  have hword : ∀ (M : Lane) (w v : Nat), w < 4 → BookTouch M (M.set (Reg.FM_HIST_WORD (seq % 32) w) v) := fun M w v hw =>
    Touches.setFm v (by simp [Reg.FM_HIST_WORD, Fld.key]; omega)
  exact (((hword _ 0 _ (by omega)).trans (hword _ 1 _ (by omega))).trans (hword _ 2 _ (by omega))).trans (hword _ 3 _ (by omega))

theorem Lane.history_books (L : Lane) (s d : Nat) (forced : Bool) : BookTouch L (L.history s d forced) := by
  have hskip : ∀ M : Lane, BookTouch M (M.wrap Reg.FM_HSKIP_SKIP) := fun M => Touches.setFm _ (by decide)
  have hskipped : ∀ w0 w1, BookTouch L ((L.wrap Reg.FM_HSKIP_SKIP).faultReport s w0 w1) := fun w0 w1 => (hskip L).trans (Lane.faultReport_books ..)
  unfold Lane.history
  dsimp only
  generalize (if L.fm.tick = L.now then L.fm.tickSrc else []) = cur
  split
  · exact (((Lane.writeHist_books L _ _).trans (Touches.setFm _ (by decide))).trans (Touches.of_fm (by decide) _)).trans (Lane.faultReport_books ..)
  · split
    · exact hskipped ..
    · split
      · have hmoved : ∀ seq w0 v, BookTouch L (Lane.wrap { L.writeHist seq w0 with fm := v } Reg.FM_HSKIP_SKIP) := fun seq w0 v =>
          ((Lane.writeHist_books L seq w0).trans (Touches.of_fm (by decide) v)).trans (hskip _)
        refine Touches.trans ?_ (Lane.faultReport_books ..)
        split
        · exact (hmoved ..).trans (Lane.amendReport_books ..)
        · exact hmoved ..
      · exact hskipped ..

theorem Lane.trapEvent_books (L : Lane) (s : Nat) : BookTouch L (L.trapEvent s) := by
  unfold Lane.trapEvent
  extract_lets F L1
  have hbits : BookTouch L L1 := Touches.of_fm (by decide) _
  split
  · exact hbits
  · exact (hbits.trans (L1.wakeCores_touches.mono (by decide) (fields_mono (by decide) (by decide)))).trans (Touches.of_cp (by decide) _)

theorem Lane.tally_books (L : Lane) {n : Nat} (hn : n < 192) : BookTouch L (L.tally n) := by
  unfold Lane.tally
  extract_lets L1 L2 L3
  have hwrapped : BookTouch L L1 := Touches.ite (Touches.setFm _ (by simp [Reg.FM_REC_TWRAP, Fld.key]; omega))
  have hcounted : BookTouch L1 L2 := Touches.setFm _ (by simp [Reg.FM_TALLY_TALLY, Fld.key]; omega)
  obtain ⟨v, hv⟩ := L2.foldTallied_fm
  have hfold : L3 = { L2 with fm := v } := hv
  rw [hfold]
  exact (hwrapped.trans hcounted).trans (Touches.of_fm (by decide) _)

theorem Lane.unrecover_books (L : Lane) {n : Nat} (hn : n < 192) : BookTouch L (L.unrecover n) := by
  have hset : ∀ v, BookTouch L (L.set (Reg.FM_REC_REC n) v) := fun v => Touches.setFm v (by simp [Reg.FM_REC_REC, Fld.key]; omega)
  unfold Lane.unrecover
  split
  · exact Touches.refl ..
  · split
    · exact Touches.refl ..
    · split
      · exact hset _
      · exact Touches.refl ..

/-- No step from `L` to `M` sets bridge `b` going. -/
def StaysOff (b : Fin 2) (L M : Lane) : Prop := L.get (Reg.FC_BR_STAT_STATE b) = 0 → M.get (Reg.FC_BR_STAT_STATE b) = 0

theorem StaysOff.trans {b : Fin 2} {L M N : Lane} (h : StaysOff b L M) (k : StaysOff b M N) : StaysOff b L N := k ∘ h

theorem Touches.staysOff {L M : Lane} (h : BookTouch L M) (b : Fin 2) : StaysOff b L M := by
  have hkey : ∀ b : Fin 2, bookRegs (Reg.FC_BR_STAT_STATE b).key = false := by decide
  exact fun hoff => (h.regs _ (hkey b)).trans hoff

theorem Lane.laneResetReaction_staysOff (L : Lane) (b : Fin 2) : StaysOff b L L.laneResetReaction := by
  unfold Lane.laneResetReaction
  split
  · exact Touches.staysOff (Touches.setFm 1 (by decide)) b
  · exact fun _ => L.refugeReset_state b

theorem Lane.react_staysOff (L : Lane) {n : Nat} (hb : blockOf n = none) (b : Fin 2) : StaysOff b L (L.react n) := by
  unfold Lane.react
  extract_lets F1 L1 L2 L3 L4
  have he : BookTouch L L1 := Touches.ite (Touches.of_fm (by decide) _)
  have hi : BookTouch L1 L2 := Touches.ite (Lane.event_books ..)
  have ht : BookTouch L2 L3 := Touches.ite (Lane.trapEvent_books ..)
  have hnone : L4 = L3 := by simp only [L4, hb]
  have hbefore : StaysOff b L L4 := by rw [hnone]; exact Touches.staysOff ((he.trans hi).trans ht) b
  split
  · exact hbefore.trans (L4.laneResetReaction_staysOff b)
  · exact hbefore

theorem Lane.raiseAs_staysOff (L : Lane) {n : Nat} (hn : n < 192) (hb : blockOf n = none) (d : Nat) (forced : Bool) (b : Fin 2) :
    StaysOff b L (L.raiseAs n d forced) := by
  unfold Lane.raiseAs
  extract_lets H F L2
  have hbook : BookTouch L L2 :=
    (((Lane.unrecover_books L hn).trans (Lane.tally_books _ hn)).trans
      (Touches.setFm _ (by simp [Reg.FM_STATUS_STATUS, Fld.key]; omega))).trans ((Lane.history_books ..).trans (Touches.of_fm (by decide) _))
  split
  · split
    · exact Touches.staysOff (hbook.trans (Touches.of_fm (by decide) _)) b
    · exact hbook.staysOff b
  · exact (hbook.staysOff b).trans (L2.react_staysOff hb b)

/-- A source raised leaves a bridge in OFF that is there: a reaction may take a bridge to OFF, never out of it. -/
theorem Lane.raise_staysOff (L : Lane) {n : Nat} (hn : n < 192) (hb : blockOf n = none) (d : Nat) (b : Fin 2) : StaysOff b L (L.raise n d) := by
  unfold Lane.raise
  split
  · exact id
  · have hnoted : ∀ v, StaysOff b L { L with fm := v } := fun v => Touches.staysOff (Touches.of_fm (by decide) v) b
    exact (hnoted _).trans (Lane.raiseAs_staysOff _ hn hb d false b)

@[simp] theorem Lane.noteHeld_bit (L : Lane) (f : Fld) : L.noteHeld.bit f = L.bit f := rfl
@[simp] theorem Lane.noteHeld_br (L : Lane) (b : Nat) : L.noteHeld.br b = L.br b := rfl
@[simp] theorem Lane.noteHeld_endStop (L : Lane) (b : Nat) : L.noteHeld.endStop b = L.endStop b := rfl
@[simp] theorem Lane.noteHeld_aboveTq (L : Lane) (b : Nat) : L.noteHeld.aboveTq b = L.aboveTq b := rfl

theorem Lane.advance_aboveTq (n : Nat) (L : Lane) (b : Nat) : (L.advance n).aboveTq b = L.aboveTq b := by rw [Lane.advance_eq]; rfl

/-! ### The write of FC_CAR (R224) -/

theorem bitAt_31 (v : Word) : bitAt v.toNat 31 = decide (2 ^ 31 ≤ v.toNat) := by
  have := v.isLt
  simp only [bitAt, decide_eq_decide]
  omega

/-- LOCK as a write of `v` to FC_CAR leaves it, where the write is not refused. -/
def Lane.lockCarrier (L : Lane) (v : Nat) : Lane := if bitAt v 31 then L.set Reg.FC_CAR_LOCK 1 else L

theorem Lane.lockCarrier_lock (L : Lane) (v : Nat) : (L.lockCarrier v).bit Reg.FC_CAR_LOCK = (L.bit Reg.FC_CAR_LOCK || bitAt v 31) := by
  unfold Lane.lockCarrier
  cases h : bitAt v 31
  · simp
  · simp [Lane.bit_set_one L (f := Reg.FC_CAR_LOCK) (by decide)]

theorem Lane.lockCarrier_touches (L : Lane) (v : Nat) : Touches [] (fields [] [Reg.FC_CAR_LOCK]) L (L.lockCarrier v) := by
  unfold Lane.lockCarrier
  split
  · exact Touches.set _ (by decide)
  · exact Touches.refl ..

/-- PHASE of a word written to FC_CAR. -/
theorem carrierPhase_of (v : Nat) : bitsOf v 14 0 = v % 2 ^ 15 := by simp [bitsOf]

section Carrier
variable {L : Lane} {v div ph : Nat} (hdiv : div = v / 2 ^ 18 % 2 ^ 4) (hph : ph = v % 2 ^ 15)
include hdiv hph

theorem Lane.writeCarrier_eq : L.writeCarrier v =
    if div = L.get Reg.FC_CAR_DIV ∧ ph = L.get (Reg.FC_CAR_PHASE L.me) then L.lockCarrier v
    else if L.bit Reg.FC_CAR_LOCK = true ∨ L.bothOff = false ∨ div < 1 ∨ 8 < div ∨ div * 2500 ≤ ph then L.raise 48
    else { ((L.lockCarrier v).set Reg.FC_CAR_DIV div).set (Reg.FC_CAR_PHASE L.me) ph with
      fc := { L.fc with carNext := some L.carrierNow } } := by
  have hd : bitsOf v 21 18 = div := hdiv.symm
  have hp : bitsOf v 14 0 = ph := (carrierPhase_of v).trans hph.symm
  have hfc : (L.lockCarrier v).fc = L.fc := (L.lockCarrier_touches v).fc.resolve_left (by decide)
  rw [← hfc]
  simp only [Lane.writeCarrier, hd, hp, Bool.and_eq_true, Bool.or_eq_true, Bool.not_eq_true', decide_eq_true_eq, or_assoc]
  rfl

/-- A legal change with both bridges in OFF and no lock is taken (R224). -/
theorem Lane.writeCarrier_taken (hne : div ≠ L.get Reg.FC_CAR_DIV ∨ ph ≠ L.get (Reg.FC_CAR_PHASE L.me)) (hlock : L.bit Reg.FC_CAR_LOCK = false)
    (hoff : L.bothOff = true) (h1 : 1 ≤ div) (h8 : div ≤ 8) (hlt : ph < div * 2500) :
    (L.writeCarrier v).get Reg.FC_CAR_DIV = div ∧ (L.writeCarrier v).get (Reg.FC_CAR_PHASE L.me) = ph ∧
      (L.writeCarrier v).bit Reg.FC_CAR_LOCK = bitAt v 31 ∧ (L.writeCarrier v).fc = { L.fc with carNext := some L.carrierNow } ∧
      Touches [.fc] (fields [] [Reg.FC_CAR_LOCK, Reg.FC_CAR_DIV, Reg.FC_CAR_PHASE L.me]) L (L.writeCarrier v) := by
  have hkeys : ∀ y, (Reg.FC_CAR_PHASE y).key ≠ Reg.FC_CAR_DIV.key ∧ (Reg.FC_CAR_PHASE y).key ≠ Reg.FC_CAR_LOCK.key := by
    intro y; cases y <;> decide
  obtain ⟨hpd, hpl⟩ := hkeys L.me
  have hillegal : ¬ (L.bit Reg.FC_CAR_LOCK = true ∨ L.bothOff = false ∨ div < 1 ∨ 8 < div ∨ div * 2500 ≤ ph) := by
    simp [hlock, hoff]; omega
  generalize hM : ((L.lockCarrier v).set Reg.FC_CAR_DIV div).set (Reg.FC_CAR_PHASE L.me) ph = M
  have htaken : L.writeCarrier v = { M with fc := { L.fc with carNext := some L.carrierNow } } := by
    rw [Lane.writeCarrier_eq hdiv hph, if_neg (Classical.not_and_iff_not_or_not.mpr hne), if_neg hillegal, hM]
  have hget : ∀ f, (L.writeCarrier v).get f = M.get f := fun f => by rw [htaken]; rfl
  refine ⟨?div, ?phase, ?lock, by rw [htaken], ?touches⟩
  case div =>
    rw [hget, ← hM, Lane.get_set_other _ _ hpd.symm, Lane.get_set_same]
    exact Nat.mod_eq_of_lt (by rw [hdiv]; exact Nat.mod_lt _ (by decide))
  case phase =>
    rw [hget, ← hM, Lane.get_set_same]
    exact Nat.mod_eq_of_lt (by rw [hph]; exact Nat.mod_lt _ (by decide))
  case lock =>
    have hrest : M.get Reg.FC_CAR_LOCK = (L.lockCarrier v).get Reg.FC_CAR_LOCK := by
      rw [← hM, Lane.get_set_other _ _ hpl.symm, Lane.get_set_other _ _ (by decide)]
    rw [Lane.bit_of_get ((hget _).trans hrest), Lane.lockCarrier_lock, hlock, Bool.false_or]
  case touches =>
    rw [htaken, ← hM]
    exact (((L.lockCarrier_touches v).mono (List.nil_subset _) (fields_mono (List.nil_subset _) (by simp))).trans
      ((Touches.set _ (by simp [fields])).trans (Touches.set _ (by simp [fields])))).trans (Touches.of_fc (by decide) _)

end Carrier

/-! ### The requests of a bridge (R251, R252, R269) -/

theorem bridge_keys : ∀ b : Fin 2, fields [0x4001] [Reg.PM_STAT_STATE, Reg.FC_BR_STAT_STATE b] (Reg.FC_BR_CTRL_REQ b).key = false ∧
    fields [0x4001] [Reg.PM_STAT_STATE, Reg.FC_BR_STAT_STATE b] (Reg.FC_BR_STAT_DRIVE_OK b).key = false := by decide

/-- A bridge that CATCH finds in OFF, with nothing that holds it there, waits in MEASURE from now on. -/
theorem Lane.catchReq_starts {L : Lane} {b : Fin 2} (hoff : L.get (Reg.FC_BR_STAT_STATE b) = 0) (hheld : L.heldOff b = false) :
    (L.catchReq b).get (Reg.FC_BR_STAT_STATE b) = 1 ∧ (L.catchReq b).get (Reg.FC_BR_CTRL_REQ b) = 1 ∧
      ((L.catchReq b).br b).waitSince = L.now ∧
      Touches [.fc, .ts, .cp] (fields [0x4001] [Reg.PM_STAT_STATE, Reg.FC_BR_STAT_STATE b, Reg.FC_BR_CTRL_REQ b]) L (L.catchReq b) := by
  generalize hM : (L.set (Reg.FC_BR_CTRL_REQ b) 1).setBr b { (L.set (Reg.FC_BR_CTRL_REQ b) 1).br b with waitSince := L.now } = M
  have hreq : M.get (Reg.FC_BR_CTRL_REQ b) = 1 := by
    rw [← hM]; exact Lane.get_set_same L (Reg.FC_BR_CTRL_REQ b) 1
  have hbr : (M.br b).waitSince = L.now := by rw [← hM]; simp [Lane.br, Lane.setBr]
  have htouch : Touches [.fc, .ts, .cp] (fields [0x4001] [Reg.PM_STAT_STATE, Reg.FC_BR_STAT_STATE b, Reg.FC_BR_CTRL_REQ b]) L M := by
    rw [← hM]; exact (Touches.set _ (by simp [fields])).trans (Touches.of_fc (by decide) _)
  have hgo : L.catchReq b = M.setBrState b 1 := by rw [← hM]; simp [Lane.catchReq, hoff, hheld]
  have hstate := M.setBrState_touches_own b 1
  rw [hgo]
  refine ⟨M.get_setBrState_same b (by decide), (hstate.regs _ (bridge_keys b).1).trans hreq, ?_, ?_⟩
  · rw [Lane.br, hstate.fc.resolve_left (by decide)]; exact hbr
  · exact htouch.trans (hstate.mono (by decide) (fields_mono (by simp) (by simp)))

theorem Lane.catchReq_idle {L : Lane} {b : Nat} (h : L.get (Reg.FC_BR_STAT_STATE b) ≠ 0 ∨ L.heldOff b = true) : L.catchReq b = L := by
  refine if_neg ?_
  rcases h with h | h <;> simp [h]

theorem Lane.permits_direct (L : Lane) : L.permits .direct = decide (L.mode = 6) := by simp [Lane.permits, permitted]

theorem Lane.directReq_starts {L : Lane} {b : Fin 2} (hmode : L.mode = 6) (hoff : L.get (Reg.FC_BR_STAT_STATE b) = 0)
    (hheld : L.heldOff b = false) :
    (L.directReq b).get (Reg.FC_BR_STAT_STATE b) = 4 ∧ (L.directReq b).get (Reg.FC_BR_CTRL_REQ b) = 3 ∧
      Touches [.ts, .cp] (fields [0x4001] [Reg.PM_STAT_STATE, Reg.FC_BR_STAT_STATE b, Reg.FC_BR_CTRL_REQ b]) L (L.directReq b) := by
  have hgo : L.directReq b = (L.set (Reg.FC_BR_CTRL_REQ b) 3).setBrState b 4 := by
    simp [Lane.directReq, Lane.permits_direct, hmode, hoff, hheld]
  have hstate := (L.set (Reg.FC_BR_CTRL_REQ b) 3).setBrState_touches_own b 4
  rw [hgo]
  refine ⟨Lane.get_setBrState_same _ b (by decide), (hstate.regs _ (bridge_keys b).1).trans (Lane.get_set_same ..), ?_⟩
  exact (Touches.set _ (by simp [fields])).trans (hstate.mono (by decide) (fields_mono (by simp) (by simp)))

theorem Lane.directReq_refused {L : Lane} {b : Nat} (hmode : L.mode = 6) (hoff : L.get (Reg.FC_BR_STAT_STATE b) ≠ 0) :
    L.directReq b = L.raise 48 := by
  simp [Lane.directReq, Lane.permits_direct, hmode, hoff, Lane.fcRefused]

theorem Lane.directReq_notWorkshop {L : Lane} {b : Nat} (hmode : L.mode ≠ 6) : L.directReq b = L.raise 2 := by
  simp [Lane.directReq, Lane.permits_direct, hmode, Lane.modeRefusal]

/-! ### Catch, ZERO and the locked rotor (R253, R257, R267) -/

/-- The lane after a wait in MEASURE has timed out, but for XF's request of rejoin stage 3. -/
def Lane.catchFailed (L : Lane) (b : Nat) : Lane := ((L.toOff b).set (Reg.FC_BR_STAT_CTMO b) 1).raise 51 b

theorem ctmo_keys : ∀ b : Fin 2, Reg.FC_BR_STAT_CTMO b :: brStopFlds b ⊆ refugeFlds ++ [Reg.FC_BR_STAT_CTMO b] ∧
    (∀ f ∈ Reg.FC_BR_STAT_CTMO b :: brStopFlds b, f.key / 0x200000 ≠ 0x400C) ∧
    (Reg.FC_BR_STAT_STATE b).key ≠ (Reg.FC_BR_STAT_CTMO b).key ∧ raiseRegs 51 (Reg.FC_BR_STAT_CTMO b).key = false ∧
    raiseAnd 51 [Reg.FC_BR_STAT_CTMO b] Reg.XF_REJOIN_STAGE.key = false := by decide

theorem Lane.catchFailed_effect (L : Lane) (b : Fin 2) :
    (L.noteHeld.catchFailed b).get (Reg.FC_BR_STAT_STATE b) = 0 ∧ (L.noteHeld.catchFailed b).bit (Reg.FC_BR_STAT_CTMO b) = true ∧
      Raised 51 L (L.noteHeld.catchFailed b) ∧
      Touches (raiseParts 51) (raiseAnd 51 [Reg.FC_BR_STAT_CTMO b]) L (L.noteHeld.catchFailed b) := by
  obtain ⟨hsub, hfm, hstate, hctmo, -⟩ := ctmo_keys b
  unfold Lane.catchFailed
  generalize hM : (L.noteHeld.toOff b).set (Reg.FC_BR_STAT_CTMO b) 1 = M
  have hoff : M.get (Reg.FC_BR_STAT_STATE b) = 0 := by
    rw [← hM, Lane.get_set_other _ 1 hstate]; exact L.noteHeld.toOff_state b
  have hset : M.bit (Reg.FC_BR_STAT_CTMO b) = true := by rw [← hM]; exact Lane.bit_set_one _ Nat.one_pos
  have htouch : Touches stopParts (fields [0x4001] (Reg.FC_BR_STAT_CTMO b :: brStopFlds b)) L.noteHeld M := by
    rw [← hM]
    exact ((L.noteHeld.toOff_touches_own b).mono (fun _ h => h) (fields_mono (fun _ h => h) (List.subset_cons_self ..))).trans
      (Touches.set _ (by simp [fields]))
  refine ⟨M.raise_staysOff (by decide) (by decide) b b hoff, ?_, ?_⟩
  · rw [Lane.bit_of_get ((M.raise_effect (n := 51) (by decide) b).2.1.regs _ hctmo), hset]
  · exact htouch.thenRaise (by decide) (by decide) (by decide) (by decide) (by decide) hfm (raiseAnd_split (by decide) hsub) b

theorem Lane.rejoinCatch_idle {L : Lane} {b : Nat} (h : L.stage ≠ 3) : L.rejoinCatch b = L := if_neg (by simp [h])

/-- Bridge `b` at the end of ZERO, before it changes state: DRIVE_OK set where the gate supply is up, the ramp armed or not, its start not yet set. -/
def Lane.driveReady (L : Lane) (b : Nat) : Lane :=
  let ramp := (L.br b).aboveLimit && !isService L.mode && L.get (Reg.FC_CATCH_CFG_RAMP b) ≠ 0
  let L1 := (L.setBool (Reg.FC_BR_STAT_DRIVE_OK b) (!L.bit Reg.GD_STAT_VGD_UV)).setBool (Reg.FC_BR_STAT_RAMP b) ramp
  let L2 := L1.setBr b { L1.br b with rampAt := none }
  { L2 with xf := { L2.xf with driveAt := some (L2.xf.driveAt.getD L2.now), okSeen := L2.xf.okSeen.set b true } }

theorem exec_zeroEnd (x : LaneId) (b : Fin 2) (s : State) : exec (.zeroEnd x b) s = onUp x (fun L =>
    if L.get (Reg.FC_BR_STAT_STATE b) = 2 && (L.br b).zeroLeft = 0 && (L.gd.short.get b).isNone then (L.driveReady b).setBrState b 3 else L) s := rfl

theorem Lane.driveReady_driveOk {L : Lane} (b : Fin 2) (h : L.bit Reg.GD_STAT_VGD_UV = false) :
    (L.driveReady b).bit (Reg.FC_BR_STAT_DRIVE_OK b) = true := by
  have hkey : ∀ b : Fin 2, (Reg.FC_BR_STAT_DRIVE_OK b).key ≠ (Reg.FC_BR_STAT_RAMP b).key := by decide
  have hramp : ∀ v, ((L.setBool (Reg.FC_BR_STAT_DRIVE_OK b) (!L.bit Reg.GD_STAT_VGD_UV)).setBool (Reg.FC_BR_STAT_RAMP b) v).get
      (Reg.FC_BR_STAT_DRIVE_OK b) = (L.set (Reg.FC_BR_STAT_DRIVE_OK b) 1).get (Reg.FC_BR_STAT_DRIVE_OK b) := fun v => by
    rw [h]; exact Lane.get_set_other _ _ (hkey b)
  exact (Lane.bit_of_get (hramp _)).trans (L.bit_set_one Nat.one_pos)

theorem Lane.driveReady_okSeen (L : Lane) (b : Nat) : (L.driveReady b).xf.okSeen.get b = true := Two.get_set_same ..

theorem Lane.driveReady_touches (L : Lane) (b : Nat) :
    Touches [.fc, .xf] (fields [] [Reg.FC_BR_STAT_DRIVE_OK b, Reg.FC_BR_STAT_RAMP b]) L (L.driveReady b) :=
  (((Touches.set _ (by simp [fields])).trans (Touches.set _ (by simp [fields]))).trans (Touches.of_fc (by decide) _)).trans
    (Touches.of_xf (by decide) _)

theorem lockedRotor_keys : ∀ b : Fin 2,
    [Reg.PM_STAT_STATE, Reg.FC_BR_STAT_LOCKED b, Reg.FC_CNT_LOCK_COUNT b] ⊆ refugeFlds ++ [Reg.FC_BR_STAT_LOCKED b, Reg.FC_CNT_LOCK_COUNT b] ∧
    (∀ f ∈ [Reg.PM_STAT_STATE, Reg.FC_BR_STAT_LOCKED b, Reg.FC_CNT_LOCK_COUNT b], f.key / 0x200000 ≠ 0x400C) ∧
    (Reg.FC_CNT_LOCK_COUNT b).key ≠ (Reg.FC_BR_STAT_LOCKED b).key ∧ raiseRegs 53 (Reg.FC_BR_STAT_LOCKED b).key = false ∧
    raiseRegs 53 (Reg.FC_CNT_LOCK_COUNT b).key = false := by decide

/-- The lane after the lock timer has run out. -/
def Lane.declareLock (L : Lane) (b : Nat) : Lane :=
  (((L.set (Reg.FC_BR_STAT_LOCKED b) 1).count (Reg.FC_CNT_LOCK_COUNT b)).event 186).raise 53 b

theorem Lane.declareLock_effect (L : Lane) (b : Fin 2) :
    (L.noteHeld.declareLock b).bit (Reg.FC_BR_STAT_LOCKED b) = true ∧
      (L.noteHeld.declareLock b).get (Reg.FC_CNT_LOCK_COUNT b) =
        min (L.get (Reg.FC_CNT_LOCK_COUNT b) + 1) (2 ^ (Reg.FC_CNT_LOCK_COUNT b).width - 1) ∧
      Raised 53 L (L.noteHeld.declareLock b) ∧
      Touches (raiseParts 53) (raiseAnd 53 [Reg.FC_BR_STAT_LOCKED b, Reg.FC_CNT_LOCK_COUNT b]) L (L.noteHeld.declareLock b) := by
  obtain ⟨hsub, hfm, hkey, hlocked, hcount⟩ := lockedRotor_keys b
  unfold Lane.declareLock
  generalize hM : ((L.noteHeld.set (Reg.FC_BR_STAT_LOCKED b) 1).count (Reg.FC_CNT_LOCK_COUNT b)).event 186 = M
  have htouch : Touches [.ts, .cp] (fields [0x4001] [Reg.PM_STAT_STATE, Reg.FC_BR_STAT_LOCKED b, Reg.FC_CNT_LOCK_COUNT b]) L.noteHeld M := by
    rw [← hM]
    exact ((Touches.set _ (by simp [fields])).trans (Lane.count_touches _ (by simp [fields]))).trans
      ((Lane.event_touches _ 186).mono (by decide) (fields_mono (by simp) (by simp)))
  have hraise := (M.raise_effect (n := 53) (by decide) b).2.1
  refine ⟨?_, ?_, htouch.thenRaise (by decide) (by decide) (by decide) (by decide) (by decide) hfm (raiseAnd_split (by decide) hsub) b⟩
  · rw [Lane.bit_of_get (hraise.regs _ hlocked), ← hM, Lane.bit_of_get (Lane.event_get _ _ (tsRegs_bridge b _ (by simp)))]
    have hother := (Lane.count_touches (P := []) (w := fields [] [Reg.FC_CNT_LOCK_COUNT b]) (L.noteHeld.set (Reg.FC_BR_STAT_LOCKED b) 1)
      (f := Reg.FC_CNT_LOCK_COUNT b) (by simp [fields])).regs (Reg.FC_BR_STAT_LOCKED b) (fields_none (by simpa using hkey.symm))
    rw [Lane.bit_of_get hother]
    exact Lane.bit_set_one _ Nat.one_pos
  · rw [hraise.regs _ hcount, ← hM, Lane.event_get _ _ (tsRegs_bridge b _ (by simp)), Lane.get_count_same, Lane.get_set_other _ _ hkey]
    rfl

/-! ### Offset calibration (R275) -/

theorem Lane.calRequest_starts {L : Lane} (hoff : L.bothOff = true) (hcal : L.bit Reg.AM_CTRL_CAL = false) :
    L.calRequest = { L.set Reg.AM_CTRL_CAL 1 with fc := { L.fc with calSum := [], calLeft := ⟨64, 64⟩ } } := by
  simp [Lane.calRequest, hoff, hcal]

theorem Lane.calRequest_refused {L : Lane} (hon : L.bothOff = false) : L.calRequest = (L.set Reg.AM_STAT_CAL_REFUSED 1).raise 48 := by
  simp [Lane.calRequest, hon, Lane.fcRefused]

/-- A channel's average of a calibration taken as its offset (R275), and those of the six current channels. -/
def Lane.takeOffset (ch : Nat) (L : Lane) : Lane := L.setI (Reg.AM_CAL_OFFSET ch) (roundDiv (nth L.fc.calSum ch) 64)
def Lane.takeOffsets (L : Lane) : Lane := L.forEach [0, 1, 2, 4, 5, 6] Lane.takeOffset

theorem Lane.takeOffsets_touches (L : Lane) : Touches [] (fields [] ([0, 1, 2, 4, 5, 6].map Reg.AM_CAL_OFFSET)) L L.takeOffsets := by
  have hkey : ∀ ch ∈ [0, 1, 2, 4, 5, 6], fields [] ([0, 1, 2, 4, 5, 6].map Reg.AM_CAL_OFFSET) (Reg.AM_CAL_OFFSET ch).key = true := by decide
  exact Lane.forEach_keeps (p := Touches [] _ L) (fun ch hch M hM => hM.trans (Touches.set _ (hkey ch hch))) (Touches.refl ..)

theorem Lane.takeOffsets_get (L : Lane) {ch : Nat} (h : ch ∈ [0, 1, 2, 4, 5, 6]) : L.takeOffsets.get (Reg.AM_CAL_OFFSET ch) =
    uns (Reg.AM_CAL_OFFSET ch).width (roundDiv (nth L.fc.calSum ch) 64) % 2 ^ (Reg.AM_CAL_OFFSET ch).width := by
  generalize hv : uns (Reg.AM_CAL_OFFSET ch).width (roundDiv (nth L.fc.calSum ch) 64) % 2 ^ (Reg.AM_CAL_OFFSET ch).width = v
  have hset : ∀ M : Lane, M.fc = L.fc → (M.takeOffset ch).get (Reg.AM_CAL_OFFSET ch) = v := fun M hM => by
    rw [Lane.takeOffset, Lane.setI, Lane.get_set_same, hM, hv]
  have hkeep : ∀ (i : Nat) (M : Lane), M.fc = L.fc → M.get (Reg.AM_CAL_OFFSET ch) = v → (M.takeOffset i).get (Reg.AM_CAL_OFFSET ch) = v := by
    intro i M hM hget
    by_cases hi : i = ch
    · rw [hi]; exact hset M hM
    · rw [Lane.takeOffset, Lane.setI, Lane.get_set_other _ _ (by simp [Reg.AM_CAL_OFFSET, Fld.key]; omega), hget]
  exact Lane.forEach_establishes (f := Lane.takeOffset) (p := fun M => M.get (Reg.AM_CAL_OFFSET ch) = v) (q := fun M => M.fc = L.fc)
    (fun _ _ hM => hM) hset hkeep h rfl

/-- A calibration whose offsets stand is over: CAL reads 0 and the sums are dropped. -/
def Lane.endCal (L : Lane) : Lane := { L.set Reg.AM_CTRL_CAL 0 with fc := { L.fc with calSum := [] } }

theorem exec_amCalEnd (x : LaneId) (s : State) : exec (.amCalEnd x) s =
    onUp x (fun L => if L.bit Reg.AM_CTRL_CAL && L.fc.calLeft = ⟨0, 0⟩ then L.takeOffsets.endCal.event 187 else L) s := rfl

theorem Lane.endCal_get (L : Lane) (f : Fld) : L.endCal.get f = (L.set Reg.AM_CTRL_CAL 0).get f := rfl

theorem Lane.endCal_cal (L : Lane) : L.endCal.bit Reg.AM_CTRL_CAL = false := by simp [Lane.bit, Lane.endCal_get]

theorem Lane.endCal_touches (L : Lane) : Touches [.fc] (fields [] [Reg.AM_CTRL_CAL]) L L.endCal :=
  (Touches.set 0 (by decide)).trans (Touches.of_fc (by decide) _)

/-! ### The obligation -/

/-- Settles O29: each clause is the command's equation on its lane, followed by the law of the update that it makes. -/
theorem carrierBridgesAndCatch : Obligations.CarrierBridgesAndCatch := by
  unfold Obligations.CarrierBridgesAndCatch
  refine ⟨?carTaken, ?carRefused, ?carSame, ?off, ?catchStarts, ?catchIdle, ?catchRefused, ?direct, ?directRefused, ?directMode, ?timeout, ?zero,
    ?locked, ?cal, ?calRefused, ?calEnd⟩
  case carTaken =>
    intro x v div ph s hup hdiv hph hlock hoff h1 h8 hlt hne
    obtain ⟨t, ht, honly, hlane⟩ := onUp_acts (i := .carrierWrite x v) hup rfl
    obtain ⟨hgetDiv, hgetPh, hbit, hfc, htouch⟩ :=
      Lane.writeCarrier_taken (L := (s.lane x).noteHeld) hdiv hph hne hlock hoff h1 h8 hlt
    refine ⟨t, ht, honly, ?_⟩
    rw [hlane]
    exact ⟨hgetDiv, hgetPh, hbit.trans (bitAt_31 v), hfc, .of_noteHeld (by decide) (htouch.mono (by decide) fun _ h => h)⟩
  case carRefused =>
    intro x v div ph s hup hdiv hph hillegal hne
    refine onUp_raises (i := .carrierWrite x v) hup rfl ?_ (by decide)
    exact (Lane.writeCarrier_eq hdiv hph).trans ((if_neg (Classical.not_and_iff_not_or_not.mpr hne)).trans (if_pos hillegal))
  case carSame =>
    intro x v s hup hdiv hph
    obtain ⟨t, ht, honly, hlane⟩ := onUp_acts (i := .carrierWrite x v) hup rfl
    have hsame := hlane.trans ((Lane.writeCarrier_eq rfl rfl).trans (if_pos ⟨hdiv, hph⟩))
    refine ⟨t, ht, honly, ?_, ?_⟩ <;> rw [hsame]
    · rw [Lane.lockCarrier_lock, bitAt_31, Lane.noteHeld_bit]
    · exact .of_noteHeld (by decide) ((Lane.lockCarrier_touches _ _).mono (List.nil_subset _) fun _ h => h)
  case off =>
    intro x b s hup
    obtain ⟨t, ht, honly, hlane⟩ := onUp_acts (i := .brReqOff x b) hup rfl
    have hclear := fun f => (s.lane x).noteHeld.toOff_cleared b (f := f)
    refine ⟨t, ht, honly, ?_⟩
    rw [hlane]
    exact ⟨Lane.toOff_state _ b, hclear _ (by simp), hclear _ (by simp), hclear _ (by simp), fun k hk => Lane.toOff_inp _ b hk,
      .of_noteHeld (by decide) ((Lane.toOff_touches _ b.isLt).mono (List.subset_cons_self ..) fun _ h => h)⟩
  case catchStarts =>
    intro x b s hup htoff hoff hheld
    obtain ⟨t, ht, honly, hlane⟩ := onUp_acts (i := .brReqCatch x b) hup rfl
    obtain ⟨hstate, hreq, hwait, htouch⟩ := Lane.catchReq_starts (L := (s.lane x).noteHeld) hoff hheld
    refine ⟨t, ht, honly, ?_⟩
    rw [hlane.trans (if_neg (ne_true_of_eq_false htoff))]
    exact ⟨hstate, hreq, hwait, .of_noteHeld (by decide) (htouch.mono (by decide) fun _ h => h)⟩
  case catchIdle =>
    intro x b s hup htoff hidle
    obtain ⟨t, ht, honly, hlane⟩ := onUp_acts (i := .brReqCatch x b) hup rfl
    refine ⟨t, ht, honly, ?_⟩
    rw [(hlane.trans (if_neg (ne_true_of_eq_false htoff))).trans (Lane.catchReq_idle hidle)]
    exact Touches.noteHeld _ _ (by decide) _
  case catchRefused =>
    intro x b s hup htoff
    exact onUp_raises (i := .brReqCatch x b) hup rfl (if_pos htoff) (by decide)
  case direct =>
    intro x b s hup hmode hoff hheld
    obtain ⟨t, ht, honly, hlane⟩ := onUp_acts (i := .brReqDirect x b) hup rfl
    obtain ⟨hstate, hreq, htouch⟩ := Lane.directReq_starts (L := (s.lane x).noteHeld) hmode hoff hheld
    refine ⟨t, ht, honly, ?_⟩
    rw [hlane]
    exact ⟨hstate, hreq, .of_noteHeld (by decide) (htouch.mono (by decide) fun _ h => h)⟩
  case directRefused =>
    intro x b s hup hmode hoff
    exact onUp_raises (i := .brReqDirect x b) hup rfl (Lane.directReq_refused (L := (s.lane x).noteHeld) hmode hoff) (by decide)
  case directMode =>
    intro x b s hup hmode
    exact onUp_raises (i := .brReqDirect x b) hup rfl (Lane.directReq_notWorkshop (L := (s.lane x).noteHeld) hmode) (by decide)
  case timeout =>
    intro x b T s hup hdue hcond hstage
    obtain ⟨t, ht, honly, hlane⟩ := atDue_acts (i := .catchTimeout x b) (due := fun L => L.catchDue b) hup hdue rfl
    obtain ⟨hstate, hctmo, hraised, htouch⟩ := ((s.reach x T).lane x).catchFailed_effect b
    obtain ⟨-, -, -, -, hkey⟩ := ctmo_keys b
    have hnot : (((s.reach x T).lane x).noteHeld.catchFailed b).stage ≠ 3 := by
      rw [Lane.stage, htouch.regs _ hkey, State.reach_lane, Lane.advance_get]; exact hstage
    refine ⟨t, ht, honly, ?_⟩
    rw [(hlane.trans (if_neg (ne_true_of_eq_false hcond))).trans (Lane.rejoinCatch_idle hnot)]
    exact ⟨hstate, hctmo, hraised, htouch⟩
  case zero =>
    intro x b s hup hzero hleft hshort hvgd
    obtain ⟨t, ht, honly, hlane⟩ := onUp_acts hup (exec_zeroEnd x b s)
    have hready := (s.lane x).noteHeld.driveReady_touches b
    have hstate := ((s.lane x).noteHeld.driveReady b).setBrState_touches_own b 3
    refine ⟨t, ht, honly, ?_⟩
    rw [hlane.trans (if_pos (by simp [hzero, hleft, hshort]))]
    refine ⟨Lane.get_setBrState_same _ b (by decide), ?_, ?_, ?_⟩
    · exact (Lane.bit_of_get (hstate.regs _ (bridge_keys b).2)).trans (Lane.driveReady_driveOk b hvgd)
    · rw [hstate.xf.resolve_left (by decide)]; exact Lane.driveReady_okSeen _ b
    · exact .of_noteHeld (by decide) ((hready.mono (by decide) (fields_mono (by simp) (by simp))).trans
        (hstate.mono (by decide) (fields_mono (by simp) (by simp))))
  case locked =>
    intro x b T s hup hdue hend habove
    obtain ⟨t, ht, honly, hlane⟩ := atDue_acts (i := .lockedRotor x b) (due := fun L => L.lockDue b) hup hdue rfl
    have hstill : ((s.reach x T).lane x).aboveTq b = true := by rw [State.reach_lane, Lane.advance_aboveTq]; exact habove
    obtain ⟨hlocked, hcount, hraised, htouch⟩ := ((s.reach x T).lane x).declareLock_effect b
    rw [State.reach_lane, Lane.advance_get, ← State.reach_lane] at hcount
    refine ⟨t, ht, honly, ?_⟩
    rw [hlane.trans (if_neg (by simp [hend, hstill]))]
    exact ⟨hlocked, hcount, hraised, htouch⟩
  case cal =>
    intro x s hup hoff hcal
    obtain ⟨t, ht, honly, hlane⟩ := onUp_acts (i := .amCal x) hup rfl
    rw [Lane.calRequest_starts (L := (s.lane x).noteHeld) hoff hcal] at hlane
    refine ⟨t, ht, honly, ?_⟩
    rw [hlane]
    exact ⟨Lane.bit_set_one _ (f := Reg.AM_CTRL_CAL) Nat.one_pos, rfl,
      .of_noteHeld (by decide) ((Touches.set 1 (by decide)).trans (Touches.of_fc (by decide) _))⟩
  case calRefused =>
    intro x s hup hon
    obtain ⟨t, ht, honly, hlane⟩ := onUp_acts (i := .amCal x) hup rfl
    refine ⟨t, ht, honly, ?_⟩
    rw [hlane.trans (Lane.calRequest_refused hon)]
    have htouch : Touches [] (fields [] [Reg.AM_STAT_CAL_REFUSED]) (s.lane x).noteHeld ((s.lane x).noteHeld.set Reg.AM_STAT_CAL_REFUSED 1) :=
      Touches.set 1 (by decide)
    refine ⟨?_, htouch.thenRaise (by decide) (by decide) (by decide) (by decide) (by decide) (by decide)
      (raiseAnd_split (by decide) (by decide)) 0⟩
    rw [Lane.bit_of_get ((Lane.raise_effect _ (n := 48) (by decide) 0).2.1.regs Reg.AM_STAT_CAL_REFUSED (by decide))]
    exact Lane.bit_set_one _ Nat.one_pos
  case calEnd =>
    intro x ch s hup hcal hleft hch
    obtain ⟨t, ht, honly, hlane⟩ := onUp_acts hup (exec_amCalEnd x s)
    have hmem : ch ∈ [0, 1, 2, 4, 5, 6] := by simpa using hch
    have hkeys : ∀ ch ∈ [0, 1, 2, 4, 5, 6], tsRegs (Reg.AM_CAL_OFFSET ch).key = false ∧
        (Reg.AM_CAL_OFFSET ch).key ≠ Reg.AM_CTRL_CAL.key := by decide
    obtain ⟨hts, hne⟩ := hkeys ch hmem
    have hoffsets := (s.lane x).noteHeld.takeOffsets_touches
    refine ⟨t, ht, honly, ?_⟩
    rw [hlane.trans (if_pos (by simp [hcal, hleft]))]
    refine ⟨?_, ?_, ?_⟩
    · rw [Lane.bit_of_get (Lane.event_get _ _ (by decide))]
      exact Lane.endCal_cal _
    · rw [Lane.event_get _ _ hts, Lane.endCal_get, Lane.get_set_other _ 0 hne]
      exact Lane.takeOffsets_get _ hmem
    · exact .of_noteHeld (by decide) (((hoffsets.mono (List.nil_subset _) (fields_mono (List.nil_subset _) (by simp))).trans
        ((Lane.endCal_touches _).mono (by decide) (fields_mono (List.nil_subset _) (by simp)))).trans
        ((Lane.event_touches _ 187).mono (by decide) (fields_mono (fun _ h => h) (by simp))))

end Sys2Proof.Machine
end

section
/-! The hardware queues: a core push that ends at a full queue (R415). -/

namespace Sys2Proof.Machine

/-- Lane A after reset, with queue 63 enabled and full at its two entries (R412), where a push waits since LOCAL 0 that is marked as a core's and
names requester 2, which is none of the two cores. -/
def pushOfNoCore : State :=
  let L := (State.reset.lane .A).set (Reg.TS_Q_CFG_EN 63) 1
  State.reset.setLane .A { L with ts := { L.ts with queues := [(63, [7, 8])], held := [(63, [⟨true, 2, 5, 0⟩])] } }

/-- `pushOfNoCore` meets every premise of O41's clause on the push that ends, that it is answered in lockstep among them. -/
theorem pushOfNoCore_ends : (pushOfNoCore.lane .A).up = true ∧ (pushOfNoCore.lane .A).pushDue 63 = some 100 ∧
    ((pushOfNoCore.lane .A).heldPush 63).find? (·.core) = some ⟨true, 2, 5, 0⟩ ∧ (pushOfNoCore.lane .A).queueFull 63 = true ∧
    (pushOfNoCore.lane .A).lockstep = true := by
  decide

/-- The pair's answers stay as they were after reset: an error response goes to requesters 0 and 1 alone. -/
theorem pushOfNoCore_unanswered :
    ((((pushOfNoCore.reach .A 100).lane .A).noteHeld).pushTimeout 63).cp.answer = ⟨{}, {}⟩ := by
  decide

/-- Refutes O41: its clause on a core push held for 1 µs promises the pair an error response whichever requester the held push names, and
`Lane.answerError` gives one to requesters 0 and 1 alone (R365). The state `pushOfNoCore` holds a push marked as a core's that names requester 2;
its end at LOCAL 100 leaves the answers without an error. No push makes such an entry: the bus marks as a core's the pushes of requesters below 2, and
the clause lacks that premise. -/
theorem not_queuesAreFirstInFirstOut : ¬ Obligations.QueuesAreFirstInFirstOut := by
  unfold Obligations.QueuesAreFirstInFirstOut
  rintro ⟨-, -, -, -, -, -, -, htimeout, -⟩
  obtain ⟨hup, hdue, hfind, hfull, hlock⟩ := pushOfNoCore_ends
  obtain ⟨t, ht, -, -, -, -, -, hanswer, -⟩ := htimeout .A 63 _ 100 pushOfNoCore hup hdue hfind hfull
  obtain ⟨u, hu, -, hlane⟩ := atDue_acts (i := .queuePushTimeout .A 63) (due := (·.pushDue 63)) (f := (·.pushTimeout 63)) hup hdue rfl
  obtain rfl : u = t := by injection hu.symm.trans ht
  have herror : (u.lane .A).cp.answer = ⟨⟨0, true⟩, ⟨0, true⟩⟩ := hanswer hlock
  rw [hlane, pushOfNoCore_unanswered] at herror
  exact absurd herror (by decide)

end Sys2Proof.Machine
end
